-- ==== Sys2Proof/Word.lean ====
section
/-! DEFINITION. The word types of the Mladuth package (00_scope.md R6 to R8, R18): every value the manual
treats as bits is one of these; counts, ticks and indexes are natural numbers. -/
namespace Sys2Proof

/-- One byte; memories are lists of addressed bytes. -/
abbrev Byte := BitVec 8
/-- A 32-bit word, among others a binary32 value (R121). -/
abbrev W32 := BitVec 32
/-- A register or Proctor word (R181, R555). -/
abbrev W64 := BitVec 64
/-- A station command word (R144). -/
abbrev W128 := BitVec 128
/-- The raw integer of a W160 window value (R127). -/
abbrev W160 := BitVec 160

end Sys2Proof
end

