-- ==== Sys2Proof/Syntax.lean ====
section
/-! DEFINITION. The commands of the block: one constructor per row of the table of operations and events
(spec/opcode_table.json), with where it acts and what the outside supplies. What the machine itself holds (a queued
command word, an instruction word, a waiting request) is no operand: the meaning takes it from the state. -/
namespace Sys2Proof

/-- Paths by which slab windows are reached (R211, R215). -/
inductive SlabPath where
  | host | care | debug
deriving DecidableEq, Repr

/-- What the receiver of a port finds on a lane in a millisecond: its symbol errors, and whether it lost lock (R292). -/
structure LaneReport where
  lane : Nat
  errors : Nat
  lost : Bool
deriving DecidableEq, Repr

/-- A command: an operation or event of the table, whole and indivisible (95_what_each_step_holds.md). -/
inductive Instr where
  /-- TE_LDA (R156). Loads an operand tile from the slab into an A buffer through port A, visible at start + 34 or start + 2 + b. -/
  | teLda (f : Fin 288)
  /-- TE_LDB (R156). Loads an operand tile from the slab into a B buffer through port A. -/
  | teLdb (f : Fin 288)
  /-- TE_MAC (R157). Runs PASSES array passes that add exact products into an accumulator bank, with an optional clear before and an optional drain after. -/
  | teMac (f : Fin 288)
  /-- TE_DRAIN (R158). Snapshots an accumulator bank and writes it to the slab as FP32, BF16 or W160 beats. -/
  | teDrain (f : Fin 288)
  /-- TE_ADDW (R159). Reads a wide-partial tile and adds each value into its bank accumulator. -/
  | teAddw (f : Fin 288)
  /-- TE_CLR (R159). Sets an accumulator bank to value 0 and state NONE, visible at start + 2. -/
  | teClr (f : Fin 288)
  /-- VE_LD (R162). Converts 256 slab elements to FP32 into a vector register. -/
  | veLd (f : Fin 288)
  /-- VE_ST (R162). Converts a register to a format, quantising MX blocks, and writes it to the slab. -/
  | veSt (f : Fin 288)
  /-- VE_IMM (R162). Writes one FP32 value into every lane of a register. -/
  | veImm (f : Fin 288)
  /-- VE_FADD (R161). Lane-wise IEEE binary32 addition. -/
  | veFadd (f : Fin 288)
  /-- VE_FSUB (R161). Lane-wise IEEE binary32 subtraction. -/
  | veFsub (f : Fin 288)
  /-- VE_FMUL (R161). Lane-wise IEEE binary32 multiplication. -/
  | veFmul (f : Fin 288)
  /-- VE_FFMA (R161). Lane-wise fused multiply-add, rounded once. -/
  | veFfma (f : Fin 288)
  /-- VE_FMIN (R161). Lane-wise minimum under R124. -/
  | veFmin (f : Fin 288)
  /-- VE_FMAX (R161). Lane-wise maximum under R124. -/
  | veFmax (f : Fin 288)
  /-- VE_FNEG (R161). Inverts the sign bit of each lane. -/
  | veFneg (f : Fin 288)
  /-- VE_FABS (R161). Clears the sign bit of each lane. -/
  | veFabs (f : Fin 288)
  /-- VE_FBCAST (R161). Broadcasts lane LANE of a register to every lane. -/
  | veFbcast (f : Fin 288)
  /-- VE_FMASK (R161). Sets to -infinity every lane whose position is at or beyond POS_LIMIT. -/
  | veFmask (f : Fin 288)
  /-- VE_EXP2 (R141). Applies the defined exp2 to each lane. -/
  | veExp2 (f : Fin 288)
  /-- VE_LOG2 (R141). Applies the defined log2 to each lane. -/
  | veLog2 (f : Fin 288)
  /-- VE_RCP (R141). Applies the defined reciprocal to each lane. -/
  | veRcp (f : Fin 288)
  /-- VE_RSQRT (R141). Applies the defined reciprocal square root to each lane. -/
  | veRsqrt (f : Fin 288)
  /-- VE_TANH (R142). Applies the defined tanh composition to each lane. -/
  | veTanh (f : Fin 288)
  /-- VE_GELU (R142). Applies the defined GELU composition to each lane. -/
  | veGelu (f : Fin 288)
  /-- VE_SILU (R142). Applies the defined SiLU composition to each lane. -/
  | veSilu (f : Fin 288)
  /-- VE_RSUM (R163). Enters the 256 lanes of a register into a W160 accumulator. -/
  | veRsum (f : Fin 288)
  /-- VE_RMAX (R163). Sets every lane to the maximum of a running value and the source lanes. -/
  | veRmax (f : Fin 288)
  /-- VE_RMIN (R163). Sets every lane to the minimum of a running value and the source lanes. -/
  | veRmin (f : Fin 288)
  /-- VE_AADD (R163). Adds a wide partial from the slab into an accumulator. -/
  | veAadd (f : Fin 288)
  /-- VE_AST (R163). Stores an accumulator as a wide partial, with an optional clear. -/
  | veAst (f : Fin 288)
  /-- VE_ARND (R163). Rounds an accumulator to FP32 into every lane of a register. -/
  | veArnd (f : Fin 288)
  /-- VE_ACLR (R163). Clears an accumulator to value 0 and state NONE. -/
  | veAclr (f : Fin 288)
  /-- SM_COPY (R165). Copies slab beats from one range to another within the fen. -/
  | smCopy (f : Fin 288)
  /-- SM_SEND (R166). Injects slab flits onto the mesh toward a fen, a sampler or an Issyn staging area, optionally as a multicast. -/
  | smSend (f : Fin 288)
  /-- SM_SLRD (R167). Issues a stacked-DRAM or peat read into the next free entry of a sluice. -/
  | smSlrd (f : Fin 288)
  /-- SM_SLPUT (R167). Writes the oldest ready read entry of a sluice to the slab and removes it. -/
  | smSlput (f : Fin 288)
  /-- SM_SLWR (R167). Reads slab beats and writes them through a sluice to stacked DRAM or the peat tier. -/
  | smSlwr (f : Fin 288)
  /-- SAMP_DRAW (R172). Selects a token from a logit bank by the defined draw and delivers its 16-byte result record. -/
  | sampDraw (d : Fin 4)
  /-- LX_HDR (R277). Writes DATA or NULL headers into Issyn transmit staging entries. -/
  | lxHdr (f : Fin 288)
  /-- EPOCH_ZEROING_DONE (R148). At advance + 63 the zeroing of TE buffers, banks and VE state after an epoch advance completes. -/
  | epochZeroingDone (f : Fin 288)
  /-- ADD (R185). Proctor integer addition modulo 2^64. -/
  | add (f : Fin 288)
  /-- SUB (R185). Proctor integer subtraction. -/
  | sub (f : Fin 288)
  /-- AND (R185). Proctor bitwise AND. -/
  | and_ (f : Fin 288)
  /-- OR (R185). Proctor bitwise OR. -/
  | or_ (f : Fin 288)
  /-- XOR (R185). Proctor bitwise XOR. -/
  | xor (f : Fin 288)
  /-- SHL (R185). Proctor left shift. -/
  | shl (f : Fin 288)
  /-- SHR (R185). Proctor logical right shift. -/
  | shr (f : Fin 288)
  /-- SRA (R185). Proctor arithmetic right shift. -/
  | sra (f : Fin 288)
  /-- MUL (R185). Proctor low 64-bit multiply. -/
  | mul (f : Fin 288)
  /-- ADDI (R185). Proctor add of a sign-extended immediate. -/
  | addi (f : Fin 288)
  /-- ANDI (R185). Proctor AND with a zero-extended immediate. -/
  | andi (f : Fin 288)
  /-- LDI (R185). Proctor load of a sign-extended immediate. -/
  | ldi (f : Fin 288)
  /-- LDHI (R185). Proctor load of an immediate into the upper 32 bits. -/
  | ldhi (f : Fin 288)
  /-- CMP (R185). Proctor comparison under a condition code, giving 1 or 0. -/
  | cmp (f : Fin 288)
  /-- MINMAX (R185). Proctor signed or unsigned minimum or maximum. -/
  | minmax (f : Fin 288)
  /-- BFX (R185). Proctor bit-field extract. -/
  | bfx (f : Fin 288)
  /-- AGCUR (R186). Reads the current address of a stride descriptor. -/
  | agcur (f : Fin 288)
  /-- AGNEXT (R186). Reads a descriptor's address and then advances its indices. -/
  | agnext (f : Fin 288)
  /-- AGRST (R186). Resets a descriptor's indices to 0. -/
  | agrst (f : Fin 288)
  /-- AGBASE (R186). Sets a descriptor's base address. -/
  | agbase (f : Fin 288)
  /-- AGAT (R186). Computes a descriptor address at given indices. -/
  | agat (f : Fin 288)
  /-- BR (R187). Conditional or unconditional branch. -/
  | br (f : Fin 288)
  /-- JAL (R187). Jump and link. -/
  | jal (f : Fin 288)
  /-- JR (R187). Jump to a register address and link. -/
  | jr (f : Fin 288)
  /-- LOOP (R190). Pushes a hardware loop entry or skips the body when the count is 0. -/
  | loop (f : Fin 288)
  /-- LIDX (R187). Reads the INDEX of a loop stack entry. -/
  | lidx (f : Fin 288)
  /-- BREAK (R187). Pops the innermost loop and continues after its END. -/
  | break_ (f : Fin 288)
  /-- STEP (R187). Advances tb by STEP_TICKS, loads pc from ENTRY and empties the loop stack. -/
  | step (f : Fin 288)
  /-- PUSH_TE (R189). Builds a command word and pushes it to the TE queue, subject to the run-ahead and full-queue waits. -/
  | pushTe (f : Fin 288)
  /-- PUSH_VE (R189). Pushes a command to the VE queue. -/
  | pushVe (f : Fin 288)
  /-- PUSH_SM (R189). Pushes a command to the SM queue. -/
  | pushSm (f : Fin 288)
  /-- PUSH_LX (R189). Pushes a command to the LX queue. -/
  | pushLx (f : Fin 288)
  /-- PUSH_SAMP (R189). Pushes a command to the die's SAMP queue. -/
  | pushSamp (f : Fin 288)
  /-- PUSH_QUEUE_ENTRY (R194). A push that waited under the run-ahead limit or a full queue enters its queue at the end of the tick in which its wait ends. -/
  | pushQueueEntry (f : Fin 288)
  /-- INS (R189). Inserts a bit field into a register. -/
  | ins (f : Fin 288)
  /-- WAITT (R191). Waits until the local tick reaches a target. -/
  | waitt (f : Fin 288)
  /-- WAITS (R192). Waits for the target tick and a ready sluice head entry, reads one word and optionally pops the entry. -/
  | waits (f : Fin 288)
  /-- WAITB (R191). Waits for the next step boundary or a given bell count and writes STEP_NO. -/
  | waitb (f : Fin 288)
  /-- CSRR (R193). Reads a CSR. -/
  | csrr (f : Fin 288)
  /-- CSRW (R193). Writes a CSR. -/
  | csrw (f : Fin 288)
  /-- CSRS (R193). Sets bits of a CSR. -/
  | csrs (f : Fin 288)
  /-- CSRC (R193). Clears bits of a CSR. -/
  | csrc (f : Fin 288)
  /-- EPOCH (R148). Advances ep and squashes queued commands of the old epoch, discards its effects and starts the zeroing. -/
  | epoch (f : Fin 288)
  /-- TBSET (R193). Sets the tick base tb. -/
  | tbset (f : Fin 288)
  /-- COVER (R195). Raises the cover tick CT. -/
  | cover (f : Fin 288)
  /-- ICACHE_MISS (R201). A fetch misses the instruction cache, stalls the Proctor and requests two lines on VC2. -/
  | icacheMiss (f : Fin 288) (parity : Bool)
  /-- ICACHE_FILL (R201). A requested instruction line arrives, ending the fetch stall and any hold under R195. -/
  | icacheFill (f : Fin 288) (line : Nat)
  /-- PC_RANGE (R200). A fetch at or beyond CODE_LEN executes nothing, logs PC_RANGE and waits for the next step boundary. -/
  | pcRange (f : Fin 288)
  /-- PC_RANGE_RESUME (R200). At the next step boundary the stopped Proctor resumes at RESUME. -/
  | pcRangeResume (f : Fin 288)
  /-- DROOP_STRETCH (R68). A supply droop above the threshold stretches a fen period and adds lag. -/
  | droopStretch (f : Fin 288) (mv : Nat)
  /-- SLIP_HIGH (R76). A fen's lag exceeds 64 ticks and the fen logs SLIP_HIGH once. -/
  | slipHigh (f : Fin 288)
  /-- DROOP_HIGH (R77). A fen's stretch lag exceeds 4 ticks and the fen logs DROOP_HIGH once. -/
  | droopHigh (f : Fin 288)
  /-- FEN_CLOCK_UNLOCK (R486). A fen clock generator out of lock for 64 reference periods raises FEN_HARD. -/
  | fenClockUnlock (f : Fin 288)
  /-- MESH_FLIT_ARRIVAL (R166). A mesh flit reaches its destination router and is written at its arrival tick, or is dropped for a foreign epoch. -/
  | meshFlitArrival (i : Nat)
  /-- MESH_HOP_REPEAT (R305). A receiving router finds a bad CRC and the sender repeats the flit from its hop copy. -/
  | meshHopRepeat (i : Nat) (snd : Fin 288) (rcv : Fin 288)
  /-- PORT_B_GRANT (R212). At the end of tick t - 4 a waiting port-B access is granted tick t when no port-A access is known for it. -/
  | portBGrant (f : Fin 288)
  /-- PORT_B_ACCESS (R213). A granted port-B access is performed in its tick, or is displaced or answered with BUSY by a port-A access. -/
  | portBAccess (f : Fin 288)
  /-- PB_FORCED (R214). A port-B access that has waited PB_MAX_WAIT ticks is served in an inserted period. -/
  | pbForced (f : Fin 288)
  /-- SCRUB_WRITEBACK (R221). The scrubber writes a corrected word back through port B, unless a write replaced it first. -/
  | scrubWriteback (f : Fin 288)
  /-- SLAB_WINDOW_READ (R217). A host or Caretaker read through a slab window returns the current contents with BUSY or POISON status. -/
  | slabWindowRead (by_ : SlabPath) (n : Nat) (addr : Nat) (len : Nat)
  /-- SLAB_WINDOW_WRITE (R217). A write through the normal slab window replaces the enabled bytes. -/
  | slabWindowWrite (by_ : SlabPath) (n : Nat) (addr : Nat) (be : List Bool) (data : List Byte) (ep : Bool)
  /-- SLAB_WINDOW_BIT_SET (R217). A write through the bit-set slab window ORs data into the enabled bytes. -/
  | slabWindowBitSet (by_ : SlabPath) (n : Nat) (addr : Nat) (be : List Bool) (data : List Byte) (ep : Bool)
  /-- SLAB_WINDOW_BIT_CLEAR (R217). A write through the bit-clear slab window clears the data bits in the enabled bytes. -/
  | slabWindowBitClear (by_ : SlabPath) (n : Nat) (addr : Nat) (be : List Bool) (data : List Byte) (ep : Bool)
  /-- DREDGE_REGION_START (R225). At each region interval Dredge starts SAVE, MARCH and RESTORE on the next region. -/
  | dredgeRegionStart (d : Fin 4)
  /-- DREDGE_MARCH_DONE (R228). A region's March C- completes; a failing row is given a spare, retired or left in service. -/
  | dredgeMarchDone (d : Fin 4)
  /-- DREDGE_REGION_END (R225). RESTORE writes back the last beat, ending redirection of the region. -/
  | dredgeRegionEnd (d : Fin 4)
  /-- DREDGE_ENABLE_WRITE (R230). A write of DREDGE.CFG.ENABLE stops Dredge after the region in progress or resumes it. -/
  | dredgeEnableWrite (d : Fin 4) (care : Bool) (v : Bool)
  /-- SLUICE_DATA_ARRIVAL (R235). Data of a sluice read arrives; the entry becomes ready, or is dropped when it was discarded. -/
  | sluiceDataArrival (i : Nat)
  /-- SLUICE_WRITE_ACCEPT (R237). A controller accepts the last atom of a write entry, which becomes ready. -/
  | sluiceWriteAccept (i : Nat)
  /-- DRAM_REQUEST_SERVICE (R245). A stacked-DRAM controller serves a request atom under the bank timing and returns it. -/
  | dramRequestService (st : Fin 8) (i : Nat)
  /-- PEAT_REQUEST_SERVICE (R258). A peat controller serves a request atom within its ceiling. -/
  | peatRequestService (i : Nat)
  /-- REFRESH_WINDOW (R250). At a window's first tick by the TB1 count the controller refreshes the named planning bank. -/
  | refreshWindow (st : Fin 8) (bank : Nat)
  /-- OWN_REFRESH (R252). While no plan runs, a controller issues per-bank refresh at the JEDEC rate. -/
  | ownRefresh (st : Fin 8) (bank : Nat)
  /-- REFRESH_DEFICIT (R253). A stack's band rises above the covered band during a run. -/
  | refreshDeficit (st : Fin 8) (temp : Nat)
  /-- DEFICIT_CLEAR (R253). The temperature falls 2 °C below the covered band's limit and DEFICIT clears. -/
  | deficitClear (st : Fin 8) (temp : Nat)
  /-- ISSYN_SLOT (R279). At each slot start the port sends a reserved flit, replay, Bell message, behind entry, control flit or ACK. -/
  | issynSlot (p : Fin 16)
  /-- ISSYN_FLIT_RECEIVE (R283). A received DATA or NULL flit is checked and stored, discarded or dropped, and the gap NAKs are set. -/
  | issynFlitReceive (p : Fin 16) (corrected : Nat) (lost : Nat) (flit : List Byte)
  /-- ISSYN_DELIVERY (R284). At the scheduled tick plus the ceiling, a stored flit is delivered to a slab, stacked DRAM, or transit. -/
  | issynDelivery (p : Fin 16)
  /-- ACK (R281). A received ACK control flit releases acknowledged flits and schedules replays for its NAKs. -/
  | ack (p : Fin 16) (flit : List Byte)
  /-- REPLAY_TIMEOUT (R281). A flit unacknowledged for LOOP_TICKS + 160 ticks is scheduled for replay, or the port enters RETRAIN at the replay limit. -/
  | replayTimeout (p : Fin 16)
  /-- NAK_REPEAT (R283). A receive gap still open LOOP_TICKS + 160 ticks later is NAKed again. -/
  | nakRepeat (p : Fin 16)
  /-- IDENT (R290). A received IDENT compares the partner identity and enters UP, records a new partner, sets PARTNER_CHANGED or FOREIGN. -/
  | ident (p : Fin 16) (flit : List Byte)
  /-- PING (R287). A received PING is answered with a PONG carrying the turnaround. -/
  | ping (p : Fin 16) (flit : List Byte) (phase : Nat)
  /-- PONG (R287). A received PONG records one path measurement pair of training. -/
  | pong (p : Fin 16) (flit : List Byte) (phase : Nat)
  /-- LANE (R292). A received LANE flit handles SWAP, NARROW or ADD requests and GRANT or REFUSE answers. -/
  | lane (p : Fin 16) (flit : List Byte)
  /-- LANE_FAIL (R292). A receive lane exceeds SER_LIMIT or loses lock, and the receiver requests a swap or narrowing. -/
  | laneFail (p : Fin 16) (lane : LaneReport)
  /-- LANE_MAP_CHANGE (R292). At the granted block boundary both ends change the lane map together. -/
  | laneMapChange (p : Fin 16)
  /-- LANE_RETRY (R293). A write of LANE_RETRY retests failed lanes with PRBS31 for 10 ms. -/
  | laneRetry (p : Fin 16) (care : Bool)
  /-- LANE_RETEST_DONE (R293). A lane retest ends and a passing lane is restored by ADD_REQ. -/
  | laneRetestDone (p : Fin 16) (tx : Bool) (lane : Nat) (ok : Bool)
  /-- PORT_ENABLE (R286). Setting ENABLE starts training from OFF; clearing it takes the port OFF and empties it. -/
  | portEnable (p : Fin 16) (care : Bool) (v : Bool) (corrTx : Nat) (corrRx : Nat)
  /-- TRAIN (R287). A write of TRAIN, or the RETRY_MS interval from DOWN, starts full training. -/
  | train (p : Fin 16) (care : Bool) (corrTx : Nat) (corrRx : Nat)
  /-- TRAIN_DONE (R287). Training ends, recording PATH, LAT_TICKS and LOOP_TICKS, and the port moves to IDENTIFY or DOWN. -/
  | trainDone (p : Fin 16) (ok : Bool) (txFailed : Nat) (rxFailed : Nat)
  /-- TRAIN_TIMEOUT (R286). Training not done within 400 ms sends the port to DOWN. -/
  | trainTimeout (p : Fin 16)
  /-- BLOCK_LOCK_LOSS (R288). Loss of block lock starts a fast retrain. -/
  | blockLockLoss (p : Fin 16)
  /-- RETRAIN_TIMEOUT (R288). A fast retrain not UP within 200 µs fails and is retried, or the port goes DOWN at the limit. -/
  | retrainTimeout (p : Fin 16)
  /-- FENCE_SET (R319). Setting FENCE stops DATA, NULL, BELL and MGMT traffic at the next slot boundary and sends IDENT. -/
  | fenceSet (p : Fin 16) (care : Bool)
  /-- PART_ID_WRITE (R320). A write of PART_ID is accepted only on a fenced empty port, otherwise PART_REJECT. -/
  | partIdWrite (p : Fin 16) (care : Bool) (v : Nat)
  /-- FENCE_CLEAR (R320). Clearing FENCE sends IDENT. -/
  | fenceClear (p : Fin 16) (care : Bool)
  /-- BELL_SYNC (R102). Every SYNC interval the master sends SYNC, voiding an exchange still open. -/
  | bellSync (b : Bool) (p : Fin 16)
  /-- SYNC (R102). A received SYNC is stamped t2 by the slave. -/
  | sync (p : Fin 16) (flit : List Byte) (phase : Nat)
  /-- FOLLOW_UP (R102). A received FOLLOW_UP gives t1, and the slave sends DELAY_REQ and stamps t3. -/
  | followUp (p : Fin 16) (flit : List Byte)
  /-- DELAY_REQ (R102). A received DELAY_REQ is stamped t4 and answered with DELAY_RESP. -/
  | delayReq (p : Fin 16) (flit : List Byte) (phase : Nat)
  /-- DELAY_RESP (R104). A received DELAY_RESP completes an exchange and runs the servo update. -/
  | delayResp (p : Fin 16) (flit : List Byte)
  /-- TIME_MASTER_LOST (R108). MISS_LIMIT intervals without a usable exchange, or the master port going down, put the base in HOLD. -/
  | timeMasterLost (b : Bool)
  /-- HANDOVER (R114). When TB2 reaches the handover tick, TB1 takes TB2's state and step 0 of the armed plan begins, or the handover is refused. -/
  | handover
  /-- TB0_RATE_WRITE (R96). A write of BELL.TB0_RATE re-anchors TB0 without a step. -/
  | tb0RateWrite (care : Bool) (v : W64)
  /-- TB0_ADJ_WRITE (R96). A write of BELL.TB0_ADJ adds a signed value to TB0's offset. -/
  | tb0AdjWrite (care : Bool) (v : W64)
  /-- MASTER_CHANGE (R109). A write of MASTER_PORT or MASTER_BASE changes a base's master or returns TB2 to ACQUIRE. -/
  | masterChange (b : Bool) (care : Bool) (v : W64)
  /-- REF_LOSS (R82). Reference loss puts the PLL in holdover on its frozen word. -/
  | refLoss
  /-- REF_RESTORED (R83). After 10 ms of good reference the PLL re-attaches with no phase step. -/
  | refRestored
  /-- THROTTLE_TICK_WRITE (R80). A write of PCLK.THROTTLE_TICK arms a throttle change or is rejected. -/
  | throttleTickWrite (v : W64)
  /-- THROTTLE_APPLIED (R80). At the apply tick the reference period changes to the armed ratio. -/
  | throttleApplied
  /-- STEP_BOUNDARY (R337). At each TB1 step boundary the Roll commits, fails, cancels, scans, applies adapter changes, admits, publishes and posts. -/
  | stepBoundary
  /-- INTAKE_SCAN (R333). Every 10 µs between steps the firmware scans the intake area. -/
  | intakeScan
  /-- SUBMIT (R335). A new SUBMIT intake record is accepted into a FREE entry or rejected. -/
  | submit (i : Nat)
  /-- CANCEL (R336). A CANCEL intake record sets CANCEL_PENDING on a matching entry or is rejected. -/
  | cancel (i : Nat)
  /-- SAMPLER_RECORD_TO_ROLL (R329). A sampler result copy reaches the Roll and is kept for the next boundary or discarded as stray. -/
  | samplerRecordToRoll (i : Nat)
  /-- EGRESS_POST (R343). A backlogged egress record is posted once the host ring has room. -/
  | egressPost
  /-- EGRESS_TAIL_WRITE (R343). A write of ROLL.EGRESS_TAIL frees ring records, or is ignored when refused. -/
  | egressTailWrite (v : Nat)
  /-- DISARM_EFFECT (R353). A DISARM with TARGET RUNNING ends the plan at the next TB1 step boundary. -/
  | disarmEffect
  /-- DIGEST_POINT_DROP (R409). At the step end a point with an untaken beat is dropped and the step marked INCOMPLETE. -/
  | digestPointDrop (i : Nat)
  /-- DIGEST_STEP_RECORD (R414). A STEP record is written to the digest log after the step's last point closes or is dropped. -/
  | digestStepRecord
  /-- REPLAY_HALTED (R418). At HALT_TICK of HALT_STEP every fen stops starting commands and the replay halts. -/
  | replayHalted
  /-- SHADOW_START (R422). At the BEGIN_STEP tick the pupil starts the plan on TB2 with outbound writes suppressed. -/
  | shadowStart
  /-- SDIG (R424). A received SDIG gives the tutor's slot digests, which the pupil compares with its own. -/
  | sdig (p : Fin 16) (flit : List Byte)
  /-- SROLL (R424). A received SROLL script entry is applied by the pupil's Roll. -/
  | sroll (p : Fin 16) (flit : List Byte)
  /-- SHADOW_LATE (R424). An SDIG not complete by the end of step k + 2 resets CLEAN. -/
  | shadowLate
  /-- WCHUNK (R385). A received weight chunk flit is assembled into its chunk. -/
  | wchunk (p : Fin 16) (flit : List Byte)
  /-- WACK (R384). A received chunk or shard acknowledgement or NACK frees staging or schedules a re-send. -/
  | wack (p : Fin 16) (flit : List Byte)
  /-- CHUNK_INCOMPLETE (R385). A chunk whose flits are not all present after a later chunk or 2 ms is discarded and NACKed. -/
  | chunkIncomplete (i : Nat)
  /-- CHUNK_AUTHENTICATED (R386). Authentication of a whole chunk ends; it is stored, written, forwarded and acknowledged, or NACKed. -/
  | chunkAuthenticated (i : Nat)
  /-- CHUNK_RESEND_TIMEOUT (R384). A chunk without CHUNK_ACK for 5 ms is sent again, or abandoned after 8 sends. -/
  | chunkResendTimeout (set : Nat) (i : Nat)
  /-- CHUNK_TIMEOUT (R389). 50 ms without an authenticated chunk while one is expected reports the missing chunk. -/
  | chunkTimeout (set : Nat)
  /-- WEIGHT_FRAME_SCAN (R390). Every 10 µs the firmware takes new host weight intake frames. -/
  | weightFrameScan
  /-- SLAB_FILL (R394). Once the plan is armed and no plan runs on TB1, kept TIER 0 shards are copied into slabs through port B. -/
  | slabFill
  /-- DEFERRED_PLACEMENT (R52). A RELOCATE deferred during a run is placed when the next plan is armed and no plan runs on TB1. -/
  | deferredPlacement
  /-- WEIGHTS_SWITCHED (R398). At APPLY_TICK the inactive WPT side becomes active and every fen's epoch advances. -/
  | weightsSwitched
  /-- IDENTIFY (R445). Writes 4,096 bytes of identify data to host memory. -/
  | identify
  /-- LOAD_PLAN (R50). Checks and loads a timetable image. -/
  | loadPlan
  /-- RELOCATE (R51). Maps logical fens, places code and constants, applies relocations and writes the rank table, or defers while a plan runs. -/
  | relocate
  /-- ARM (R455). Forwards the record and arms the relocated plan on TB2 after its checks. -/
  | arm
  /-- ARM_COPY (R453). A received ARM copy MGMT flit is taken as an ARM on the Caretaker path. -/
  | armCopy (p : Fin 16) (flit : List Byte)
  /-- ARM_READY (R455). When every ARM check has passed, including TB2 lock, ARM completes with the ready digest and an ARM report. -/
  | armReady
  /-- ARM_TIMEOUT (R455). TB2 not locked within 2 s of take refuses ARM. -/
  | armTimeout
  /-- START_AT (R458). Loads the handover tick and enters STARTING. -/
  | startAt
  /-- START_GUARD (R460). At handover tick - GUARD_TICKS a package without recent fault-manager contact cancels its own start. -/
  | startGuard
  /-- DISARM (R353). Cancels an armed plan at once or requests the end of the running plan. -/
  | disarm
  /-- ABORT (R461). Ends the plan at take, empties queues, sluices and ports and enters RELOCATED. -/
  | abort
  /-- LOAD_WEIGHTS (R382). Checks a manifest and starts loading a weight set. -/
  | loadWeights
  /-- SWITCH_WEIGHTS_AT (R396). Arms a weights switch at a step boundary and builds the inactive WPT side. -/
  | switchWeightsAt
  /-- ADAPTER_PUT (R350). Installs an adapter generation at the next boundary or at step S. -/
  | adapterPut
  /-- ADAPTER_RETIRE (R352). Retires an adapter handle at the next boundary. -/
  | adapterRetire
  /-- KEY_INSTALL (R550). Unwraps a weight key under a session and places it in a key slot. -/
  | keyInstall
  /-- REPLAY (R415). Starts an armed plan as a replay driven by a script. -/
  | replay
  /-- DIGEST_READ (R413). Copies digest log records in a step range to host memory. -/
  | digestRead
  /-- SHADOW_BEGIN (R421). Sets the tutor or pupil role from BEGIN_STEP. -/
  | shadowBegin
  /-- SHADOW_END (R425). Ends shadowing on the pupil or turns the tutor role off. -/
  | shadowEnd
  /-- TIME_REBASE (R110). Returns a time base to ACQUIRE or loads its count. -/
  | timeRebase
  /-- PERF_CONFIG (R534). Writes a counter control at once or schedules it for a tick. -/
  | perfConfig
  /-- PERF_CTL_APPLY (R534). A pending counter control takes effect at its AT_TICK. -/
  | perfCtlApply (i : Nat)
  /-- LOG_READ (R501). Copies Caretaker event log records to host memory. -/
  | logRead
  /-- POWER_STATE (R524). Requests entry to a lower power state or exit to RUN, after the refuser checks. -/
  | powerState
  /-- POWER_ENTRY_COMMIT (R525). Preparation of a power-state entry ends and the entry is committed. -/
  | powerEntryCommit
  /-- POWER_EXIT (R526). Exit from a power state completes and the package returns to RUN. -/
  | powerExit
  /-- PARTITION_SET (R321). Fences, re-assigns PART_ID and unfences the ports of a mask. -/
  | partitionSet
  /-- COMMAND_SLOT_SCAN (R436). Every 10 µs and after each boundary the firmware takes new Caretaker-queue and host slot commands. -/
  | commandSlotScan
  /-- COMPLETION_POST (R439). A completion waiting for ring room is posted. -/
  | completionPost
  /-- CPL_TAIL_WRITE (R439). A write of HOST.CPL_TAIL frees completion ring records, or is ignored when refused. -/
  | cplTailWrite (v : Nat)
  /-- FUNCTION_LEVEL_RESET (R432). Clears HOST registers and egress enable and finishes host-path commands silently. -/
  | functionLevelReset
  /-- MEMORY_WINDOW_READ (R434). A host read through a memory window returns package memory or is refused. -/
  | memoryWindowRead (w : Nat) (off : Nat) (len : Nat)
  /-- MEMORY_WINDOW_WRITE (R434). A host write through a memory window is performed or discarded. -/
  | memoryWindowWrite (w : Nat) (off : Nat) (be : List Bool) (data : List Byte) (ep : Bool)
  /-- RANK_TABLE_WRITE (R313). A Caretaker write of FAB.RT_DATA updates a rank-table entry, or is rejected while a plan is armed or running. -/
  | rankTableWrite (e : Nat) (care : Bool) (v : W64)
  /-- REGISTER_WRITE (R556). A write to a register with no row of its own, through the normal or an alias page, under its access codes. -/
  | registerWrite (care : Bool) (off : Nat) (size : Nat) (v : W64)
  /-- PERF_COUNTER_CLEAR (R529). A write of CLEAR sets a counter to 0 in the tick it takes effect. -/
  | perfCounterClear (page : Nat) (n : Nat) (care : Bool)
  /-- MARK_RESET (R539). Writing MARK.CFG.RESET clears the Markbook index, sample count and flags. -/
  | markReset (d : Fin 4)
  /-- MARK_RECORD (R537). A sampled item's record is written when its latency is known. -/
  | markRecord (d : Fin 4) (i : Nat)
  /-- COLD_RESET (R468). The last power-good edge resets the package apart from the Bursar and TB3 and restarts bring-up at S0. -/
  | coldReset (rack : Nat) (board : Nat) (pos : Nat) (mode : Nat)
  /-- WARM_RESET (R469). Deassertion of PERST_N resets the package as the warm-reset column states. -/
  | warmReset (rack : Nat) (board : Nat) (pos : Nat) (mode : Nat)
  /-- STAGE_ENTERED (R471). The bring-up stage advances when its condition holds. -/
  | stageEntered
  /-- FULL_RATE (R474). The package moves from REDUCED to SINGLE service once S4 is entered and no plan is armed or running. -/
  | fullRate
  /-- STACK_LOST (R486). A fitted stack fails training and its channels are unmapped. -/
  | stackLost (st : Fin 8)
  /-- PEAT_LOST (R486). A present MRDIMM channel fails or loses training and peat capacity becomes 0. -/
  | peatLost (c : Nat)
  /-- SENSOR_SAMPLE (R498). Every 1 ms the Caretaker samples sensors and may send THROTTLE_REQ or apply its own ratio. -/
  | sensorSample (vals : List (Nat × Nat))
  /-- STATUS (R502). Every 100 ms the Caretaker sends a STATUS message. -/
  | status
  /-- HEARTBEAT (R504). A received HEARTBEAT restarts the start guard. -/
  | heartbeat (port : Nat) (msg : List Byte)
  /-- COMMAND (R504). A received COMMAND message enters the Caretaker command queue or is NACKed BUSY. -/
  | command (port : Nat) (msg : List Byte)
  /-- THROTTLE_SET (R499). A received THROTTLE_SET makes the Caretaker write the ratio and apply tick. -/
  | throttleSet (port : Nat) (msg : List Byte)
  /-- TIME (R502). A received TIME message disciplines TB0. -/
  | time (port : Nat) (msg : List Byte)
  /-- RECORD (R502). A received RECORD is stored in board flash. -/
  | record (port : Nat) (msg : List Byte)
  /-- FW_WRITE (R507). Writes a 4 KiB block of the inactive firmware slot. -/
  | fwWrite (port : Nat) (msg : List Byte)
  /-- FW_ACTIVATE (R507). Verifies the inactive slot, marks it preferred and TRIAL and restarts the Caretaker. -/
  | fwActivate (port : Nat) (msg : List Byte)
  /-- FW_COMMIT (R507). Clears TRIAL and blows rollback fuses. -/
  | fwCommit (port : Nat) (msg : List Byte)
  /-- FW_TRIAL_EXPIRE (R507). A TRIAL slot not committed within 10 minutes loses preference. -/
  | fwTrialExpire
  /-- MESSAGE_ACK (R503). A received acknowledgement ends retransmission of a Caretaker message. -/
  | messageAck (port : Nat) (msg : List Byte)
  /-- MESSAGE_RETRANSMIT (R503). A message with ACK_REQ unacknowledged for 2 ms is sent again, up to 8 times. -/
  | messageRetransmit (i : Nat)
  /-- MGMT_FLIT (R318). A received MGMT flit is delivered, forwarded within the rack, or dropped. -/
  | mgmtFlit (p : Fin 16) (flit : List Byte)
  /-- CARETAKER_RESTART (R505). The watchdog sees no service for 1 s and restarts the Caretaker alone. -/
  | caretakerRestart
  /-- EVENT_LOG_APPEND (R500). The Caretaker appends a queued event to its ring and reports it in an EVENT message. -/
  | eventLogAppend
  /-- LOG_FLASH_WRITE (R501). A full log page, or one 10 s after its first record, is written to board flash. -/
  | logFlashWrite
  /-- MGMT_PORT_DOWN (R509). A management port loses link. -/
  | mgmtPortDown (n : Fin 2)
  /-- BURSAR_TAG_FRAME (R513). A tag frame from ED1 sets the partition charged for the 1 ms bin, or a PART change closes a TAG_CHANGE record. -/
  | bursarTagFrame (flip : Nat)
  /-- BURSAR_INTERVAL (R516). TB3 reaches a multiple of 60 s and the Bursar commits an INTERVAL record. -/
  | bursarInterval
  /-- BURSAR_POWER_FAIL (R516). VAUX falls below its threshold and a POWER_FAIL record is committed from hold-up energy. -/
  | bursarPowerFail (samples : List (List (Int × Int)))
  /-- BURSAR_POWER_ON (R516). VAUX returns and a POWER_ON record is committed. -/
  | bursarPowerOn
  /-- BURSAR_SELECT (R517). An I3C write of SELECT chooses the record that RECORD returns. -/
  | bursarSelect (v : Nat)
  /-- TIME_MARK (R517). An I3C write of TIME_MARK commits a record binding TB3 to UTC. -/
  | timeMark (v : Nat)
  /-- CAL_DATA (R518). An I3C write of CAL_DATA stages calibration values unless sealed. -/
  | calData (off : Nat) (data : List Byte)
  /-- CAL_COMMIT (R518). An accepted CAL_COMMIT puts new calibration in force, blows a fuse slot and commits a CAL_EVENT. -/
  | calCommit (v : Nat) (samples : List (List (Int × Int)))
  /-- SEAL_CHANGE (R518). METRO_SEAL_N going from low to high increments MEC. -/
  | sealChange (high : Bool)
  /-- BURSAR_MIRROR (R519). Every 1 ms the Bursar copies its status and energy to the BRSM block. -/
  | bursarMirror
  /-- BURSAR_STALE (R519). No good mirror copy for 10 ms sets STALE. -/
  | bursarStale
  /-- BRSM_SELECT_WRITE (R519). A Caretaker write of BRSM.SELECT copies a Bursar record into BRSM.RECORD. -/
  | brsmSelectWrite (care : Bool) (v : Nat)
  /-- WAKE_N (R523). A falling edge of WAKE_N wakes the package or starts power-up and clears a trip latch. -/
  | wakeN
  /-- THERMTRIP (R582). A sensor at 115 °C in 4 samples asserts THERMTRIP_N, releases the enables and latches the trip. -/
  | thermtrip (sensor : Nat)
  /-- POWER_UP_START (R586). 5 ms after VAUX enters range, or at WAKE_N, power-up asserts PWR_EN[0]. -/
  | powerUpStart
  /-- PWR_EN_STEP (R586). At 2 ms intervals the next rail enable is asserted. -/
  | pwrEnStep
  /-- PWR_SEQ_TIMEOUT (R586). Power-good inputs not all high 20 ms after PWR_EN[3] release the enables and latch the cause. -/
  | pwrSeqTimeout (pg : Fin 16)
  /-- PG_LOST (R587). A power-good input falls while all enables are driven, causing a cold reset and a release of the enables. -/
  | pgLost (i : Fin 4)
  /-- VAUX_LOSS (R588). VAUX is removed and every enable falls together. -/
  | vauxLoss (samples : List (List (Int × Int)))
  /-- GET_VERSION (R545). SPDM request for supported versions. -/
  | getVersion (mgmt : Bool) (sec : Bool) (msg : List Byte)
  /-- GET_CAPABILITIES (R545). SPDM request for capabilities. -/
  | getCapabilities (mgmt : Bool) (sec : Bool) (msg : List Byte)
  /-- NEGOTIATE_ALGORITHMS (R545). SPDM algorithm negotiation. -/
  | negotiateAlgorithms (mgmt : Bool) (sec : Bool) (msg : List Byte)
  /-- GET_DIGESTS (R544). SPDM request for certificate chain digests. -/
  | getDigests (mgmt : Bool) (sec : Bool) (msg : List Byte)
  /-- GET_CERTIFICATE (R544). SPDM request for the slot 0 certificate chain. -/
  | getCertificate (mgmt : Bool) (sec : Bool) (msg : List Byte)
  /-- CHALLENGE (R545). SPDM challenge signed by the Alias key. -/
  | challenge (mgmt : Bool) (sec : Bool) (msg : List Byte)
  /-- GET_MEASUREMENTS (R546). SPDM request for measurement blocks, with the ML-DSA block 0xFD. -/
  | getMeasurements (mgmt : Bool) (sec : Bool) (msg : List Byte)
  /-- KEY_EXCHANGE (R547). Starts an SPDM session, or is refused at the session limit. -/
  | keyExchange (mgmt : Bool) (sec : Bool) (msg : List Byte)
  /-- FINISH (R596). Completes an SPDM session and derives its application secrets. -/
  | finish (mgmt : Bool) (sec : Bool) (msg : List Byte)
  /-- SPDM_HEARTBEAT (R547). Keeps an SPDM session alive. -/
  | spdmHeartbeat (mgmt : Bool) (sec : Bool) (msg : List Byte)
  /-- KEY_UPDATE (R596). Replaces a direction's application secret and its derived keys. -/
  | keyUpdate (mgmt : Bool) (sec : Bool) (msg : List Byte)
  /-- END_SESSION (R547). Ends an SPDM session. -/
  | endSession (mgmt : Bool) (sec : Bool) (msg : List Byte)
  /-- SESSION_TIMEOUT (R547). A session without a message for 10 s ends. -/
  | sessionTimeout (i : Nat)
  /-- REGISTER_READ (R13). A read of a register with RC fields returns the value and clears those fields. -/
  | registerRead (care : Bool) (off : Nat) (size : Nat)
  /-- LAG_CLEARED (R76). A fen's lag returns to zero by catch-up, re-arming SLIP_HIGH and DROOP_HIGH and clearing SLIP_HIGH_ACT. -/
  | lagCleared (f : Fin 288)
  /-- RETRAIN_COUNT_RESET (R288). After 1,050,000 ticks in UP the count of failed fast retrains resets. -/
  | retrainCountReset (p : Fin 16)
  /-- HOST_LINK_CHANGE (R429). The PCI Express host link trains at, or changes to, another rate or width, and the Caretaker logs the change. -/
  | hostLinkChange (gen : Nat) (width : Nat)
  /-- D3HOT (R430). A PCI power-management write moves the function between D0 and D3hot, changing only its behaviour on the link. -/
  | d3hot (v : Bool)
  /-- MGMT_PORT_UP (R508). A management port regains link and its MG_UP bit is set. -/
  | mgmtPortUp (n : Fin 2)
  /-- SENSE_FAULT (R512). An open or shorted Bursar sense pair is detected, the channel counts as 0 and records carry SENSE_FAULT. -/
  | senseFault (ch : Fin 6) (bad : Bool)
  /-- TAG_INVALID (R513). A 1 ms Bursar bin ends, its energy is charged to the PART of its last good frame or to UNATTRIBUTED with TAG_INVALID, and a PART change commits TAG_CHANGE. -/
  | tagInvalid (samples : List (List (Int × Int)))
  /-- POWER_ABORTED (R525). A refuser found holding at a preparation step aborts a power-state entry and the package returns to RUN. -/
  | powerAborted
  /-- POWER_ENTRY_DONE (R526). A committed power-state entry completes, the package is in the new state, and exit begins at once when a wake event is held. -/
  | powerEntryDone
  /-- STACK_TRAINING_DONE (R473). Full-rate training of one stack completes, setting its STACKS_FULL bit and releasing an ARM that waited for it. -/
  | stackTrainingDone (st : Fin 8)
deriving DecidableEq, Repr

end Sys2Proof
end

