-- ==== Sys2Proof/Decode.lean ====
section
/-! DEFINITION. The decoder over the table's bits. No row of the opcode table gives bits: commands arrive as
operations and events, so no word spells one. -/
namespace Sys2Proof

/-- The command that the `nbits` low bits of `w` spell by the table: none, since the table gives no row bits. -/
def decodeTableWord (_nbits _w : Nat) : Option Instr := none

end Sys2Proof
end

