-- ==== Sys2Proof/Machine/Bits.lean ====
section
/-! DEFINITION. Bit fields, byte order, saturation and the sorted key-value lists that State is built from
(R6, R7, R13, R18). -/
namespace Sys2Proof.Machine

/-- Bits [hi:lo] of `w`, as a number (R7, R18). -/
def bits {n : Nat} (w : BitVec n) (hi lo : Nat) : Nat := (w.toNat >>> lo) % 2 ^ (hi + 1 - lo)

/-- Bits [hi:lo] of a natural number. -/
def nbits (w hi lo : Nat) : Nat := (w >>> lo) % 2 ^ (hi + 1 - lo)

/-- Bit `i` of `w`. -/
def bit {n : Nat} (w : BitVec n) (i : Nat) : Bool := w.getLsbD i

/-- `w` with bits [hi:lo] replaced by `v`, which wraps at the width of the field. -/
def setBits (w : Sys2Proof.W64) (hi lo v : Nat) : Sys2Proof.W64 :=
  let m := (2 ^ (hi + 1 - lo) - 1) * 2 ^ lo
  (w &&& ~~~(BitVec.ofNat 64 m)) ||| (BitVec.ofNat 64 (v % 2 ^ (hi + 1 - lo) * 2 ^ lo))

/-- The number whose only bits are [hi:lo]. -/
def maskBits (hi lo : Nat) : Sys2Proof.W64 := BitVec.ofNat 64 ((2 ^ (hi + 1 - lo) - 1) * 2 ^ lo)

/-- A Bool as a bit. -/
def b2n (b : Bool) : Nat := if b then 1 else 0

/-- Saturating sum at a field of `w` bits (the counters of R61, R62, R492). -/
def satAdd (w a b : Nat) : Nat := min (a + b) (2 ^ w - 1)

/-- The little-endian bytes of `v`, `n` of them (R7). -/
def leBytes : Nat → Nat → List Byte
  | 0, _ => []
  | n + 1, v => BitVec.ofNat 8 v :: leBytes n (v / 256)

/-- The number that little-endian bytes hold (R7). -/
def ofLe : List Byte → Nat
  | [] => 0
  | b :: bs => b.toNat + 256 * ofLe bs

/-- The number that big-endian bytes hold. -/
def ofBe (bs : List Byte) : Nat := bs.foldl (fun a b => a * 256 + b.toNat) 0

/-- The big-endian bytes of `v`, `n` of them. -/
def beBytes (n v : Nat) : List Byte := (leBytes n v).reverse

/-- Two's-complement reading of the low `w` bits of `v`. -/
def sx (w v : Nat) : Int :=
  let u := v % 2 ^ w
  if u < 2 ^ (w - 1) then (u : Int) else (u : Int) - (2 ^ w : Nat)

/-- An integer modulo 2^w. -/
def wrapNat (w : Nat) (i : Int) : Nat := (i % ((2 ^ w : Nat) : Int)).toNat

/-- Exactly `n` bytes: `bs` cut or padded with zeros. -/
def padTo (n : Nat) (bs : List Byte) : List Byte := bs.take n ++ List.replicate (n - bs.length) 0#8

/-- Bytes [off, off + n) of a byte string, zero beyond its end. -/
def sliceB (bs : List Byte) (off n : Nat) : List Byte := padTo n (bs.drop off)

/-- The little-endian number in bytes [off, off + n). -/
def leAt (bs : List Byte) (off n : Nat) : Nat := ofLe (sliceB bs off n)

/-- Ceiling division. -/
def cdiv (a b : Nat) : Nat := (a + b - 1) / b

/-- Integer square root, rounded down: `k` bits of the root, found from the top. -/
def isqrtGo (x : Nat) : Nat → Nat → Nat
  | 0, r => r
  | k + 1, r => let t := r + 2 ^ k; isqrtGo x k (if t * t ≤ x then t else r)
def isqrt (x : Nat) : Nat := isqrtGo x (x.log2 / 2 + 1) 0

/-! Sorted association lists. -/

/-- Keyed entries in strictly rising key order. -/
abbrev AMap (α : Type) := List (Nat × α)

/-- The entry at a key, if one is listed. -/
def AMap.find? {α : Type} : AMap α → Nat → Option α
  | [], _ => none
  | (k, v) :: r, i => if k = i then some v else AMap.find? r i

/-- The value at a key; an unlisted key holds `d`. -/
def AMap.getD {α : Type} (m : AMap α) (i : Nat) (d : α) : α := (AMap.find? m i).getD d

/-- The list with the value of a key replaced or inserted in order. -/
def AMap.put {α : Type} : AMap α → Nat → α → AMap α
  | [], i, v => [(i, v)]
  | (k, w) :: r, i, v =>
    if i < k then (i, v) :: (k, w) :: r
    else if i = k then (i, v) :: r
    else (k, w) :: AMap.put r i v

/-- The list without a key. -/
def AMap.erase {α : Type} : AMap α → Nat → AMap α
  | [], _ => []
  | (k, w) :: r, i => if k = i then AMap.erase r i else (k, w) :: AMap.erase r i

/-- A write that keeps the canonical form: the value an unlisted key reads as is not listed. -/
def AMap.set {α : Type} [DecidableEq α] (d : α) (m : AMap α) (i : Nat) (v : α) : AMap α :=
  if v = d then AMap.erase m i else AMap.put m i v

/-- Keys strictly rising. -/
def AMap.sorted {α : Type} : AMap α → Bool
  | [] => true
  | [_] => true
  | (k, _) :: (l, w) :: r => decide (k < l) && AMap.sorted ((l, w) :: r)

/-- Replace the element at a position. -/
def setAt {α : Type} : List α → Nat → α → List α
  | [], _, _ => []
  | _ :: r, 0, v => v :: r
  | a :: r, n + 1, v => a :: setAt r n v

/-- Change the element at a position. -/
def updAt {α : Type} (l : List α) (n : Nat) (f : α → α) : List α :=
  match l[n]? with
  | some a => setAt l n (f a)
  | none => l

/-- The list without the element at a position. -/
def dropAt {α : Type} : List α → Nat → List α
  | [], _ => []
  | _ :: r, 0 => r
  | a :: r, n + 1 => a :: dropAt r n

/-- Cut into runs of `k` elements (`fuel` bounds the number of runs). -/
def chunksGo {α : Type} (k : Nat) : Nat → List α → List (List α)
  | 0, _ => []
  | _ + 1, [] => []
  | f + 1, l => l.take k :: chunksGo k f (l.drop k)
def chunksOf {α : Type} (k : Nat) (l : List α) : List (List α) := chunksGo k (l.length / k + 1) l

/-- Insertion sort. -/
def insertIn {α : Type} (le : α → α → Bool) (a : α) : List α → List α
  | [] => [a]
  | b :: r => if le a b then a :: b :: r else b :: insertIn le a r
def isort {α : Type} (le : α → α → Bool) : List α → List α
  | [] => []
  | a :: r => insertIn le a (isort le r)

/-- Position of the first element that satisfies a test. -/
def findPos {α : Type} (p : α → Bool) : List α → Option Nat
  | [] => none
  | a :: r => if p a then some 0 else (findPos p r).map (· + 1)

end Sys2Proof.Machine
end

