-- ==== Sys2Proof/Machine/Tables.lean ====
section
/-! DEFINITION. The constants and tables of the defined vector functions (05_arithmetic.md R140), each entry the
correctly rounded value of its definition, in units of 2^-62. -/
namespace Sys2Proof.Machine.Tables

/-- q(ln 2) (R140). -/
def ln2 : Int := 3196577161300663915
/-- q(1/ln 2) (R140). -/
def invln2 : Int := 6653256548922161246

/-- q of the rational a/b: a * 2^62 / b rounded half to even (R139). -/
def qRat (a b : Nat) : Nat :=
  let n := a * 2 ^ 62
  let f := n / b
  let r := n % b
  if 2 * r < b then f else if b < 2 * r then f + 1 else if f % 2 = 0 then f else f + 1

/-- Taylor coefficients of e^t (R140). -/
def cExp : List Int := [qRat 1 1, qRat 1 1, qRat 1 2, qRat 1 6, qRat 1 24]
/-- Taylor coefficients of ln(1 + u) (R140). -/
def cLn : List Int := [0, qRat 1 1, -(qRat 1 2 : Int), qRat 1 3, -(qRat 1 4 : Int), qRat 1 5]
/-- Taylor coefficients of 1/(1 + u) (R140). -/
def cRcp : List Int := [qRat 1 1, -(qRat 1 1 : Int), qRat 1 1, -(qRat 1 1 : Int), qRat 1 1, -(qRat 1 1 : Int)]
/-- Taylor coefficients of (1 + u)^(-1/2) (R140). -/
def cRsq : List Int :=
  [qRat 1 1, -(qRat 1 2 : Int), qRat 3 8, -(qRat 5 16 : Int), qRat 35 128, -(qRat 63 256 : Int)]

/-- T_RCP[i] = q(1/(1 + i/128)) (R140). -/
def tRcp (i : Nat) : Nat := qRat 128 (128 + i)
/-- T_RSQI[i] = q(1/(1 + i/64)) (R140). -/
def tRsqi (i : Nat) : Nat := qRat 64 (64 + i)
/-- T_RSQ[i] = q(1/sqrt(1 + i/64)) (R140), from the integer square root; no entry lies on a tie. -/
def tRsq (i : Nat) : Nat := (isqrt (2 ^ 126 * 64 / (64 + i)) + 1) / 2

def tExp20 : List Nat :=
  [4611686018427387904, 4661903986662671290, 4712668792719003884, 4763986391269842979,
   4815862801830788490, 4868304109465667592, 4921316465500308116, 4974906088244084429,
   5029079263719320435, 5083842346398635251, 5139201759950318048, 5195163997991819502,
   5251735624851448219, 5308923276338361494, 5366733660520940721, 5425173558513642752]
def tExp21 : List Nat :=
  [5484249825272419512, 5543969390398799154, 5604339258952723100, 5665366512274234280,
   5727058308814112983, 5789421884973557729, 5852464555953009676, 5916193716610220111,
   5980616842327661685, 6045741489889385141, 6111575298367424380, 6178125990017853852,
   6245401371186603363, 6313409333225136570, 6382157853416100552, 6451654995909055045]
def tExp22 : List Nat :=
  [6521908912666391106, 6592927844419550153, 6664720121635655541, 6737294165494670078,
   6810658488877194079, 6884821697363019841, 6959792490240559659, 7035579661527265796,
   7112192101001162095, 7189638795243608238, 7267928828693418961, 7347071384712461870,
   7427075746662858866, 7507951298995917514, 7589707528352920109, 7672354024677899536]
def tExp23 : List Nat :=
  [7755900482342532474, 7840356701283281883, 7925732588150922155, 8012038157472581778,
   8099283532826439817, 8187478948029213993, 8276634748336579668, 8366761391656660532,
   8457869449776733335, 8549969609603290562, 8643072674415606502, 8737189565132953757,
   8832331321595618838, 8928509103859867100, 9025734193507008925, 9124017994966720698]
/-- T_EXP2[i] = q(2^(i/64)) (R140). -/
def tExp2 : List Nat :=
  tExp20 ++ tExp21 ++ tExp22 ++ tExp23

def tLog20 : List Nat :=
  [0, 51776576860734092, 103153330606121625, 154136388884136542,
   204731739545776358, 254945234865449951, 304782595603293869, 354249414916468918,
   403351162126124447, 452093186346374828, 500480719981309593, 548518882095754375,
   596212681665212875, 643567020710149551, 690586697319517456, 737276408568194713]
def tLog21 : List Nat :=
  [783640753332765648, 829684235009867669, 875411264141121919, 920826160948473729,
   965933157783587320, 1010736401494767392, 1055239955714717668, 1099447803072292452,
   1143363847331251474, 1186991915458890095, 1230335759627285963, 1273399059149779027,
   1316185422355184002, 1358698388402122607, 1400941429035756762, 1442917950289103222]
def tLog22 : List Nat :=
  [1484631294131014398, 1526084740062819198, 1567281506665531296, 1608224753099450085,
   1648917580557901400, 1689363033676790756, 1729564101901571123, 1769523720813159845,
   1809244773414275253, 1848730091377602357, 1887982456257138845, 1927004600664017122,
   1965799209408045220, 2004368920606159019, 2042716326758930046, 2080843975796227273]
def tLog23 : List Nat :=
  [2118754372093087486, 2156449977456806991, 2193933212086227468, 2231206455504150653,
   2268272047463780046, 2305132288830053050, 2341789442436693607, 2378245733919783589,
   2414503352528620721, 2450564451914601718, 2486431150898841404, 2522105534219211933,
   2557589653257460679, 2592885526747040901, 2627995141462265872, 2662920452889374731]
def tLog24 : List Nat :=
  [2697663385880076776, 2732225835288120360, 2766609666589412753, 2800816716486198401,
   2834848793495784858, 2868707678524288214, 2902395125425853134, 2935912861547786570,
   2969262588262028797, 3002445981483370645, 3035464692174811580, 3068320346840439651,
   3101014548006201223, 3133548874688915798, 3165924882853879154, 3198144105861386369]
def tLog25 : List Nat :=
  [3230208054902495130, 3262118219424338960, 3293876067545289651, 3325483046460258250,
   3356940582836414350, 3388250083199594232, 3419412934311659540, 3450430503539059618,
   3481304139212842424, 3512035170980351009, 3542624910148834945, 3573074650021198695,
   3603385666224101885, 3633559217028619578, 3663596543663664096, 3693498870622363581]
def tLog26 : List Nat :=
  [3723267405961586381, 3752903341594794444, 3782407853578403233, 3811782102391820155,
   3841027233211328250, 3870144376177976739, 3899134646659635119, 3927999145507362739,
   3956738959306241175, 3985355160620812318, 4013848808235260778, 4042220947388475078,
   4070472610004118119, 4098604814915833537, 4126618568087710828, 4154514862830128517]
def tLog27 : List Nat :=
  [4182294680011091174, 4209958988263172691, 4237508744186174972, 4264944892545608072,
   4292268366467094717, 4319480087626799256, 4346580966437978175, 4373571902233746604,
   4400453783446152532, 4427227487781647899, 4453893882393043195, 4480453824048029814,
   4506908159294352029, 4533257724621708207, 4559503346620458693, 4585645842137215621]
/-- T_LOG2[i] = q(log2(1 + i/128)) (R140). -/
def tLog2 : List Nat :=
  tLog20 ++ tLog21 ++ tLog22 ++ tLog23 ++ tLog24 ++ tLog25 ++ tLog26 ++ tLog27

end Sys2Proof.Machine.Tables
end

