-- ==== Sys2Proof/Machine/Fp.lean ====
section
/-! DEFINITION. Element formats, binary32 arithmetic, the W160 window and the defined vector functions
(05_arithmetic.md R121 to R143). Values are exact dyadic numbers, rounded once where the spec rounds. -/
namespace Sys2Proof.Machine

/-- The value of a floating-point or integer element: NaN, an infinity, or sign, magnitude m * 2^e (R121, R122). -/
inductive Fv where
  | nan
  | inf (neg : Bool)
  | fin (neg : Bool) (m : Nat) (e : Int)
deriving DecidableEq, Repr

/-- m * 2^-sh rounded to nearest, ties to even (R124, R125). -/
def rne (m : Nat) (sh : Int) : Nat :=
  if sh ≤ 0 then m * 2 ^ (-sh).toNat
  else
    let d := 2 ^ sh.toNat
    let q := m / d
    let r := m % d
    if 2 * r < d then q else if d < 2 * r then q + 1 else if q % 2 = 0 then q else q + 1

/-- m * 2^-sh rounded toward zero. -/
def rtz (m : Nat) (sh : Int) : Nat :=
  if sh ≤ 0 then m * 2 ^ (-sh).toNat else m / 2 ^ sh.toNat

/-- The magnitude code nearest to m * 2^e in a format of `eb` exponent and `mb` mantissa bits with bias
2^(eb-1) - 1, before any overflow rule: consecutive codes are consecutive magnitudes (R122). -/
def magCode (eb mb m : Nat) (e : Int) : Nat :=
  if m = 0 then 0
  else
    let bias : Int := (2 ^ (eb - 1) : Nat) - 1
    let top : Int := (m.log2 : Int) + e
    let q : Int := max top (1 - bias) - mb
    let r := rne m (q - e)
    ((q + mb + bias).toNat * 2 ^ mb + r) - 2 ^ mb

/-- Decode a code of `eb` exponent and `mb` mantissa bits that has no special encodings (R122). -/
def plainVal (eb mb c : Nat) : Fv :=
  let neg := nbits c (eb + mb) (eb + mb) = 1
  let ex := nbits c (eb + mb - 1) mb
  let fr := c % 2 ^ mb
  let bias : Int := (2 ^ (eb - 1) : Nat) - 1
  if ex = 0 then .fin neg fr (1 - bias - mb) else .fin neg (2 ^ mb + fr) ((ex : Int) - bias - mb)

/-- Decode a format whose all-ones exponent holds infinity and NaN, as IEEE 754 does (R121). -/
def ieeeVal (eb mb c : Nat) : Fv :=
  if nbits c (eb + mb - 1) mb = 2 ^ eb - 1 then
    if c % 2 ^ mb = 0 then .inf (nbits c (eb + mb) (eb + mb) = 1) else .nan
  else plainVal eb mb c

/-- An integer as a value. -/
def intVal (i : Int) (e : Int) : Fv := .fin (decide (i < 0)) i.natAbs e

/-- The formats of R152. -/
inductive Fmt where
  | e4m3 | e5m2 | int8 | int4 | bf16 | mxfp4 | mxfp6a | mxfp6b | mxint8 | fp32
deriving DecidableEq, Repr

/-- The format codes of R152; 0xA to 0xF are illegal. -/
def Fmt.ofCode : Nat → Option Fmt
  | 0 => some .e4m3 | 1 => some .e5m2 | 2 => some .int8 | 3 => some .int4 | 4 => some .bf16
  | 5 => some .mxfp4 | 6 => some .mxfp6a | 7 => some .mxfp6b | 8 => some .mxint8 | 9 => some .fp32
  | _ => none

/-- Bits per element (R121). -/
def Fmt.width : Fmt → Nat
  | .e4m3 | .e5m2 | .int8 | .mxint8 => 8
  | .int4 | .mxfp4 => 4
  | .mxfp6a | .mxfp6b => 6
  | .bf16 => 16
  | .fp32 => 32

/-- Formats with E8M0 block scales (R123). -/
def Fmt.isMx : Fmt → Bool
  | .mxfp4 | .mxfp6a | .mxfp6b | .mxint8 => true
  | _ => false

/-- The two FP8 formats. -/
def Fmt.isFp8 : Fmt → Bool
  | .e4m3 | .e5m2 => true
  | _ => false

/-- The value of one element code, without a block scale (R121, R122). -/
def elemVal (f : Fmt) (c : Nat) : Fv :=
  match f with
  | .e4m3 => if c % 128 = 127 then .nan else plainVal 4 3 c
  | .e5m2 => ieeeVal 5 2 c
  | .int8 => intVal (sx 8 c) 0
  | .int4 => intVal (sx 4 c) 0
  | .bf16 => ieeeVal 8 7 c
  | .mxfp4 => plainVal 2 1 c
  | .mxfp6a => plainVal 2 3 c
  | .mxfp6b => plainVal 3 2 c
  | .mxint8 => intVal (sx 8 c) (-6)
  | .fp32 => ieeeVal 8 23 c

/-- The element with its block's scale byte applied; 0xFF makes it NaN (R123). -/
def scaleVal (v : Fv) (sc : Nat) : Fv :=
  if sc = 255 then .nan
  else match v with
    | .fin n m e => .fin n m (e + sc - 127)
    | x => x

/-- Code of element `i` of packed data (R123): 4-bit elements two to a byte, 6-bit elements four to three bytes. -/
def elemCode (f : Fmt) (data : List Byte) (i : Nat) : Nat :=
  match f.width with
  | 4 => nbits (leAt data (i / 2) 1) (4 * (i % 2) + 3) (4 * (i % 2))
  | 6 => nbits (leAt data (3 * (i / 4)) 3) (6 * (i % 4) + 5) (6 * (i % 4))
  | w => leAt data (i * (w / 8)) (w / 8)

/-- Pack element codes of one format into bytes (R123). -/
def packCodes (f : Fmt) (cs : List Nat) : List Byte :=
  match f.width with
  | 4 => (chunksOf 2 cs).flatMap fun c => leBytes 1 (c.getD 0 0 + 16 * c.getD 1 0)
  | 6 => (chunksOf 4 cs).flatMap fun c =>
      leBytes 3 (c.getD 0 0 + 64 * c.getD 1 0 + 4096 * c.getD 2 0 + 262144 * c.getD 3 0)
  | w => cs.flatMap fun c => leBytes (w / 8) c

/-! ### binary32 (R124, R125) -/

/-- The canonical NaN (R124). -/
def nan32 : W32 := 0x7FC00000#32
def inf32 (neg : Bool) : W32 := if neg then 0xFF800000#32 else 0x7F800000#32
def zero32 (neg : Bool) : W32 := if neg then 0x80000000#32 else 0#32

/-- The value of a binary32 word. -/
def val32 (x : W32) : Fv := ieeeVal 8 23 x.toNat

/-- `to_fp32` of R139: sign and m * 2^e rounded to nearest even, beyond the range an infinity. -/
def toF32 (neg : Bool) (m : Nat) (e : Int) : W32 :=
  let c := magCode 8 23 m e
  if c ≥ 0x7F800000 then inf32 neg else BitVec.ofNat 32 (c + b2n neg * 2 ^ 31)

/-- The binary32 word of a value. -/
def fvTo32 : Fv → W32
  | .nan => nan32
  | .inf n => inf32 n
  | .fin n m e => toF32 n m e

/-- The exact dyadic as a signed mantissa. -/
def sgn (neg : Bool) (m : Nat) : Int := if neg then -(m : Int) else m

/-- The exact sum of two finite values, with the IEEE sign of an exact zero under roundTiesToEven. -/
def addFin (n1 : Bool) (m1 : Nat) (e1 : Int) (n2 : Bool) (m2 : Nat) (e2 : Int) : Bool × Nat × Int :=
  let e := min e1 e2
  let s := sgn n1 m1 * (2 ^ (e1 - e).toNat : Nat) + sgn n2 m2 * (2 ^ (e2 - e).toNat : Nat)
  if s = 0 then (n1 && n2, 0, e) else (decide (s < 0), s.natAbs, e)

/-- `ffma`: a * b + c rounded once (R124, R161). -/
def ffma (a b c : W32) : W32 :=
  match val32 a, val32 b, val32 c with
  | .nan, _, _ => nan32
  | _, .nan, _ => nan32
  | _, _, .nan => nan32
  | .inf n1, .inf n2, .inf n3 => if xor n1 n2 = n3 then inf32 n3 else nan32
  | .inf n1, .inf n2, .fin .. => inf32 (xor n1 n2)
  | .inf n1, .fin n2 m2 _, z =>
    if m2 = 0 then nan32
    else match z with
      | .inf n3 => if xor n1 n2 = n3 then inf32 n3 else nan32
      | _ => inf32 (xor n1 n2)
  | .fin n1 m1 _, .inf n2, z =>
    if m1 = 0 then nan32
    else match z with
      | .inf n3 => if xor n1 n2 = n3 then inf32 n3 else nan32
      | _ => inf32 (xor n1 n2)
  | .fin .., .fin .., .inf n3 => inf32 n3
  | .fin n1 m1 e1, .fin n2 m2 e2, .fin n3 m3 e3 =>
    let r := addFin (xor n1 n2) (m1 * m2) (e1 + e2) n3 m3 e3
    toF32 r.1 r.2.1 r.2.2

/-- `fadd` (R124). -/
def fadd (a b : W32) : W32 :=
  match val32 a, val32 b with
  | .nan, _ => nan32
  | _, .nan => nan32
  | .inf n1, .inf n2 => if n1 = n2 then inf32 n1 else nan32
  | .inf n1, .fin .. => inf32 n1
  | .fin .., .inf n2 => inf32 n2
  | .fin n1 m1 e1, .fin n2 m2 e2 =>
    let r := addFin n1 m1 e1 n2 m2 e2
    toF32 r.1 r.2.1 r.2.2

/-- Negation changes the sign bit only (R124). -/
def fneg (a : W32) : W32 := a ^^^ 0x80000000#32
/-- Absolute value clears the sign bit only (R124). -/
def fabs (a : W32) : W32 := a &&& 0x7FFFFFFF#32

/-- Is the word a NaN. -/
def isNan32 (a : W32) : Bool := val32 a == .nan

/-- `fsub` (R124). -/
def fsub (a b : W32) : W32 := if isNan32 b then nan32 else fadd a (fneg b)

/-- `fmul` (R124). -/
def fmul (a b : W32) : W32 :=
  match val32 a, val32 b with
  | .nan, _ => nan32
  | _, .nan => nan32
  | .inf n1, .inf n2 => inf32 (xor n1 n2)
  | .inf n1, .fin n2 m2 _ => if m2 = 0 then nan32 else inf32 (xor n1 n2)
  | .fin n1 m1 _, .inf n2 => if m1 = 0 then nan32 else inf32 (xor n1 n2)
  | .fin n1 m1 e1, .fin n2 m2 e2 => toF32 (xor n1 n2) (m1 * m2) (e1 + e2)

/-- The order key of a non-NaN binary32 word, with -0 below +0 (R124). -/
def ordKey (a : W32) : Int := if bit a 31 then -1 - ((a.toNat % 2 ^ 31 : Nat) : Int) else (a.toNat : Int)

/-- Minimum (R124): NaN when any input is NaN, -0 below +0. -/
def fmin (a b : W32) : W32 := if isNan32 a || isNan32 b then nan32 else if ordKey a ≤ ordKey b then a else b
/-- Maximum (R124). -/
def fmax (a b : W32) : W32 := if isNan32 a || isNan32 b then nan32 else if ordKey a ≤ ordKey b then b else a

/-- Numerical order of two non-NaN words, in which -0 equals +0 (R172). -/
def numKey (a : W32) : Int := if bit a 31 then -((a.toNat % 2 ^ 31 : Nat) : Int) else (a.toNat : Int)
/-- IEEE less-than, false on a NaN. -/
def flt (a b : W32) : Bool := !isNan32 a && !isNan32 b && decide (numKey a < numKey b)
/-- IEEE less-or-equal, false on a NaN. -/
def fle (a b : W32) : Bool := !isNan32 a && !isNan32 b && decide (numKey a ≤ numKey b)
/-- IEEE equality. -/
def feq (a b : W32) : Bool := !isNan32 a && !isNan32 b && decide (numKey a = numKey b)
/-- Positive infinity, negative infinity. -/
def isPinf (a : W32) : Bool := a == inf32 false
def isNinf (a : W32) : Bool := a == inf32 true

/-- A magnitude rounded onto a grid of codes and saturated at `maxc` (R125, R126). DESIGN CHOICE (log entry 115): an MX
element that rounds to zero keeps its sign bit. -/
def satCode (eb mb maxc : Nat) (neg : Bool) (m : Nat) (e : Int) : Nat :=
  min (magCode eb mb m e) maxc + b2n neg * 2 ^ (eb + mb)

/-- An integer rounded to nearest even and saturated at the ends of `w` bits, as a code (R125). -/
def satInt (w : Nat) (neg : Bool) (m : Nat) (e : Int) : Nat :=
  let r := rne m (-e)
  if neg then wrapNat w (-((min r (2 ^ (w - 1)) : Nat) : Int)) else min r (2 ^ (w - 1) - 1)

/-- Conversion of a binary32 word to an element code of a format without block scales (R125). -/
def toElem (f : Fmt) (x : W32) : Nat :=
  match f, val32 x with
  | .fp32, _ => x.toNat
  | .bf16, .nan => 0x7FC0
  | .bf16, .inf n => 0x7F80 + b2n n * 0x8000
  | .bf16, .fin n m e => let c := magCode 8 7 m e; (if c ≥ 0x7F80 then 0x7F80 else c) + b2n n * 0x8000
  | .e4m3, .nan => 0x7F
  | .e4m3, .inf n => 0x7E + b2n n * 0x80
  | .e4m3, .fin n m e => satCode 4 3 0x7E n m e
  | .e5m2, .nan => 0x7F
  | .e5m2, .inf n => 0x7C + b2n n * 0x80
  | .e5m2, .fin n m e => satCode 5 2 0x7B n m e
  | .int8, .nan => 0
  | .int8, .inf n => if n then 0x80 else 0x7F
  | .int8, .fin n m e => satInt 8 n m e
  | .int4, .nan => 0
  | .int4, .inf n => if n then 0x8 else 0x7
  | .int4, .fin n m e => satInt 4 n m e
  | _, _ => 0

/-- floor(log2) of the largest magnitude, EMAX and the element grid of an MX format (R126). -/
def mxEmax : Fmt → Int
  | .mxfp4 | .mxfp6a => 2
  | .mxfp6b => 4
  | _ => 0

/-- One MX element of value m * 2^e on the format's grid, saturated (R126). -/
def mxElem (f : Fmt) (neg : Bool) (m : Nat) (e : Int) : Nat :=
  match f with
  | .mxfp4 => satCode 2 1 0x7 neg m e
  | .mxfp6a => satCode 2 3 0x1F neg m e
  | .mxfp6b => satCode 3 2 0x1F neg m e
  | _ => satInt 8 neg m (e + 6)

/-- Quantise one block of binary32 values: the scale byte and the element codes (R126). -/
def mxQuant (f : Fmt) (xs : List W32) : Nat × List Nat :=
  let vs := xs.map val32
  let special := vs.any fun v => match v with | .fin .. => false | _ => true
  if special then (255, xs.map fun _ => 0)
  else
    let amax := (xs.map fun x => (fabs x).toNat).foldl max 0
    let X : Int :=
      match val32 (BitVec.ofNat 32 amax) with
      | .fin _ m e => if m = 0 then -127 else max (-127) (min 127 ((m.log2 : Int) + e - mxEmax f))
      | _ => -127
    ((X + 127).toNat, vs.map fun v => match v with
      | .fin n m e => mxElem f n m (e - X)
      | _ => 0)

/-! ### The W160 window (R127 to R136) -/

/-- The special states of a W160 accumulator (R127). -/
inductive WSt where
  | none | pinf | ninf | nan
deriving DecidableEq, Repr

/-- A W160 accumulator: V in units of 2^-80 and a special state (R127). -/
structure Acc where
  v : W160
  st : WSt
deriving DecidableEq, Repr

/-- Value 0, state NONE (R127). -/
def Acc.zero : Acc := ⟨0#160, .none⟩

/-- How two states combine (R129). -/
def WSt.join : WSt → WSt → WSt
  | .nan, _ => .nan
  | _, .nan => .nan
  | .none, x => x
  | x, .none => x
  | .pinf, .ninf => .nan
  | .ninf, .pinf => .nan
  | x, _ => x

/-- `enter` of R128: truncation toward zero to 2^-80, clipped to 2^55. -/
def enter (neg : Bool) (m : Nat) (e : Int) : Int := sgn neg (min (rtz m (-(e + 80))) (2 ^ 135))

/-- One term of a reduction: its contribution to V and to the state (R128, R129). -/
def termOf : Fv → Int × WSt
  | .nan => (0, .nan)
  | .inf n => (0, if n then .ninf else .pinf)
  | .fin n m e => (enter n m e, .none)

/-- The exact product of two element values (R128, R129). -/
def mulFv : Fv → Fv → Fv
  | .nan, _ => .nan
  | _, .nan => .nan
  | .inf a, .inf b => .inf (xor a b)
  | .inf a, .fin b m _ => if m = 0 then .nan else .inf (xor a b)
  | .fin a m _, .inf b => if m = 0 then .nan else .inf (xor a b)
  | .fin a m e, .fin b n f => .fin (xor a b) (m * n) (e + f)

/-- `accumulate` of R128. -/
def Acc.add (a : Acc) (t : Int × WSt) : Acc := ⟨a.v + BitVec.ofInt 160 t.1, a.st.join t.2⟩

/-- Export as a wide partial (R136). -/
def Acc.export (a : Acc) : W160 :=
  match a.st with
  | .none => a.v
  | .pinf => BitVec.ofInt 160 (-(2 ^ 159 : Int) + 1)
  | .ninf => BitVec.ofInt 160 (-(2 ^ 159 : Int) + 2)
  | .nan => BitVec.ofInt 160 (-(2 ^ 159 : Int) + 3)

/-- Import of a wide partial as a term (R135, R136). -/
def wideTerm (w : W160) : Int × WSt :=
  if bits w 159 158 = 2 then
    (0, if bits w 1 0 = 1 then .pinf else if bits w 1 0 = 2 then .ninf else .nan)
  else (w.toInt, .none)

/-- Output rounding to binary32 (R133). -/
def Acc.to32 (a : Acc) : W32 :=
  match a.st with
  | .nan => nan32
  | .pinf => inf32 false
  | .ninf => inf32 true
  | .none => let i := a.v.toInt; toF32 (decide (i < 0)) i.natAbs (-80)

/-- Output rounding to BF16, directly from the exact value (R133). -/
def Acc.toBf (a : Acc) : Nat :=
  match a.st with
  | .nan => 0x7FC0
  | .pinf => 0x7F80
  | .ninf => 0xFF80
  | .none =>
    let i := a.v.toInt
    let c := magCode 8 7 i.natAbs (-80)
    if c = 0 then 0 else c + b2n (decide (i < 0)) * 0x8000

/-! ### Defined vector functions (R139 to R142) -/

/-- `poly` of R139. -/
def poly (u : Int) (c : List Int) : Int :=
  match c.reverse with
  | [] => 0
  | top :: rest => rest.foldl (fun acc k => k + (acc * u) >>> 62) top

/-- A nonnegative or negative Q-format integer to FP32 (`to_fp32` of R139). -/
def intTo32 (v : Int) (e : Int) : W32 := toF32 (decide (v < 0)) v.natAbs e

/-- `split` of R139: M and E with |x| = M * 2^E, 2^23 ≤ M < 2^24. -/
def split32 (m : Nat) (e : Int) : Nat × Int :=
  let k := 23 - m.log2
  (m * 2 ^ k, e - k)

/-- exp2 (R141). -/
def exp2 (x : W32) : W32 :=
  match val32 x with
  | .nan => nan32
  | .inf n => if n then 0#32 else inf32 false
  | .fin n m e =>
    if fle 0x43000000#32 x then inf32 false
    else if flt x 0xC3800000#32 then 0#32
    else
      -- X = floor(x * 2^62)
      let X : Int :=
        if 0 ≤ e + 62 then sgn n m * (2 ^ (e + 62).toNat : Nat) else (sgn n m) >>> (-(e + 62)).toNat
      let k := X >>> 62
      let f : Nat := (X - k * (2 ^ 62 : Nat)).toNat
      let i := f / 2 ^ 56
      let r : Nat := f % 2 ^ 56
      let t : Int := ((r : Int) * Tables.ln2) >>> 62
      intTo32 ((Tables.tExp2.getD i 0 : Int) * poly t Tables.cExp) (k - 124)

/-- log2 (R141). -/
def log2f (x : W32) : W32 :=
  match val32 x with
  | .nan => nan32
  | .inf n => if n then nan32 else inf32 false
  | .fin n m e =>
    if m = 0 then inf32 true
    else if n then nan32
    else
      let s := split32 m e
      let k := s.2 + 23
      let i := (s.1 / 2 ^ 16) % 128
      let r := (s.1 % 2 ^ 16) * 2 ^ 39
      let u : Nat := (r * Tables.tRcp i) / 2 ^ 62
      let l := poly u Tables.cLn
      intTo32 (k * (2 ^ 62 : Nat) + (Tables.tLog2.getD i 0 : Nat) + (l * Tables.invln2) >>> 62) (-62)

/-- Reciprocal (R141). -/
def rcp (x : W32) : W32 :=
  match val32 x with
  | .nan => nan32
  | .inf n => zero32 n
  | .fin n m e =>
    if m = 0 then inf32 n
    else
      let s := split32 m e
      let i := (s.1 / 2 ^ 16) % 128
      let r := (s.1 % 2 ^ 16) * 2 ^ 39
      let u : Nat := (r * Tables.tRcp i) / 2 ^ 62
      let y := intTo32 ((Tables.tRcp i : Int) * poly u Tables.cRcp) (-124 - s.2 - 23)
      if n then fneg y else y

/-- Reciprocal square root (R141). -/
def rsqrt (x : W32) : W32 :=
  match val32 x with
  | .nan => nan32
  | .inf n => if n then nan32 else 0#32
  | .fin n m e =>
    if m = 0 then inf32 n
    else if n then nan32
    else
      let s := split32 m e
      let k0 := s.2 + 23
      let odd : Bool := decide (k0 % 2 = 1)
      let mm : Nat := if odd then s.1 * 2 ^ 40 else s.1 * 2 ^ 39
      let k := if odd then k0 - 1 else k0
      let i := (mm - 2 ^ 62) / 2 ^ 56
      let r : Nat := (mm - 2 ^ 62) % 2 ^ 56
      let u : Nat := (r * Tables.tRsqi i) / 2 ^ 62
      intTo32 ((Tables.tRsq i : Int) * poly u Tables.cRsq) (-124 - k / 2)

/-- tanh (R142). -/
def tanhf (x : W32) : W32 :=
  if isNan32 x then nan32
  else
    let a := fabs x
    if flt a 0x39800000#32 then x
    else if flt a 0x3E000000#32 then
      let x2 := fmul x x
      let p := ffma x2 0xBD5D0DD1#32 0x3E088889#32
      let p := ffma x2 p 0xBEAAAAAB#32
      let p := fmul x2 p
      ffma x p x
    else
      let e := exp2 (fneg (fmul a 0x4038AA3B#32))
      let t := fmul (fsub 0x3F800000#32 e) (rcp (fadd 0x3F800000#32 e))
      if bit x 31 then t ||| 0x80000000#32 else t &&& 0x7FFFFFFF#32

/-- GELU, tanh form (R142). -/
def gelu (x : W32) : W32 :=
  if isNan32 x then nan32
  else if isPinf x then inf32 false
  else if isNinf x then zero32 true
  else
    let x3 := fmul (fmul x x) x
    let z := fmul 0x3F4C422A#32 (ffma 0x3D372713#32 x3 x)
    fmul (fmul 0x3F000000#32 x) (fadd 0x3F800000#32 (tanhf z))

/-- SiLU (R142). -/
def silu (x : W32) : W32 :=
  if isNan32 x then nan32
  else if isNinf x then zero32 true
  else
    let e := exp2 (fneg (fmul x 0x3FB8AA3B#32))
    fmul x (rcp (fadd 0x3F800000#32 e))

/-- LOG2E of R140. -/
def log2e : W32 := 0x3FB8AA3B#32

/-- The W160 sum of binary32 terms (R128, R138). -/
def sum32 (a : Acc) (xs : List W32) : Acc := xs.foldl (fun s x => s.add (termOf (val32 x))) a

/-- Softmax normalisation of a row (R143). -/
def softmax (xs : List W32) : List W32 :=
  let m := xs.foldl fmax (inf32 true)
  if isNan32 m || isPinf m then xs.map fun _ => nan32
  else if isNinf m then xs.map fun _ => 0#32
  else
    let es := xs.map fun x => exp2 (fmul (fsub x m) log2e)
    let r := rcp (sum32 Acc.zero es).to32
    es.map fun e => fmul e r

end Sys2Proof.Machine
end

