-- ==== Sys2Proof/Machine/FenTypes.lean ====
section
/-! DEFINITION. The state of a fen and of the units around it: Proctor, engines, queues, slab, sluices, Dredge,
sampler, controllers and flits in flight (chapters 03, 05 to 09, 11). -/
namespace Sys2Proof.Machine

/-- Sparse byte memory: addresses strictly rising, no entry equal to what an unlisted address reads as. -/
abbrev Memory := List Host.Cell

/-- A unit of data on a path with its poison mark (R482): a beat, a flit or an atom. -/
structure Beat where
  bytes : List Byte
  poison : Bool
deriving DecidableEq, Repr

/-- The command stations of R33. -/
inductive Station where
  | te | ve | sm | lx | samp
deriving DecidableEq, Repr

/-- A queued station command: the word of R144, its firing tick (R35) and the logical fen that pushed it. -/
structure QCmd where
  word : W128
  fire : Nat
  fen : Nat
  /-- pc of the PUSH, and whether the push was late (R537) -/
  pc : Nat
  late : Bool
  /-- tick after the one in which the push entered the queue (R194) -/
  avail : Nat
deriving DecidableEq, Repr

/-- A TE operand buffer: one tile with its format (R154). -/
structure Tile where
  fmt : Fmt
  bytes : List Byte
  poison : Bool
deriving DecidableEq, Repr

/-- A TE accumulator bank: 16,384 W160 accumulators, unlisted ones at value 0 and state NONE (R154). -/
structure Bank where
  acc : AMap Acc
  poison : Bool
deriving DecidableEq, Repr

/-- The tensor engine's storage (R154). -/
structure Te where
  a0 : Tile
  a1 : Tile
  b0 : Tile
  b1 : Tile
  acc0 : Bank
  acc1 : Bank
deriving DecidableEq, Repr

/-- A vector register of 256 lanes; lanes beyond the list are 0 (R160). -/
structure VReg where
  lanes : List W32
  poison : Bool
deriving DecidableEq, Repr

/-- A VE accumulator (R160). -/
structure VAcc where
  acc : Acc
  poison : Bool
deriving DecidableEq, Repr

/-- The vector engine's storage: v0 to v31 and a0 to a7 (R160). -/
structure Ve where
  v : AMap VReg
  a : AMap VAcc
deriving DecidableEq, Repr

/-- A started station command (R146, R176): its start tick, epoch, word and what it has read or computed so far. -/
structure Flight where
  st : Station
  start : Nat
  fire : Nat
  ep : Nat
  word : W128
  /-- the fill of an illegal command (R594), not the command -/
  fill : Bool
  /-- beats read so far, or the beats of a drain's snapshot -/
  beats : List Beat
  /-- result lanes, captured sources -/
  lanes : List W32
  acc : Acc
  poison : Bool
  /-- flits of an SM.SEND injected so far -/
  sent : Nat := 0
  /-- ticks by which a busy drain buffer has put off a TE.MAC's drain (R158) -/
  late : Nat := 0
deriving DecidableEq, Repr

/-- A hardware loop entry (R181, R190). -/
structure LoopEnt where
  start : Nat
  stop : Nat
  remaining : W64
  index : W64
deriving DecidableEq, Repr

/-- The five CSRs of a stride descriptor (R183, R186). -/
structure Desc where
  base : W64
  str01 : W64
  str2 : W64
  cnt : W64
  idx : W64
deriving DecidableEq, Repr

/-- Proctor states of FEN.PROC_PC.STATE (R203). -/
inductive ProcSt where
  | idle | run | fetch | waitt | waits | waitb | pushWait | stepWait
deriving DecidableEq, Repr

/-- A push that waits under R194. -/
structure HeldPush where
  st : Station
  word : W128
  fire : Nat
  pc : Nat
deriving DecidableEq, Repr

/-- Instruction cache: the line held per way * 64 + set, ways by recency per set, retirement (R198, R205). -/
structure ICache where
  /-- way * 64 + set to line number -/
  lines : AMap Nat
  /-- per set, ways 4 to 7 from most to least recently used -/
  lru : AMap (List Nat)
  /-- pinned pages, one per way from way 0 -/
  pins : List Nat
  /-- retired ways as the present placement knows them -/
  retired : List Nat
  spareInUse : Bool
  /-- lines requested and not filled yet -/
  want : List Nat
  /-- instruction offsets whose fill carried an uncorrectable word (R201) -/
  bad : List Nat
deriving DecidableEq, Repr

/-- CSRs the loader or the plan start sets (R183). -/
structure ProcCsr where
  entry : W64
  resume : W64
  startTick : W64
  stepTicks : W64
  selfFen : W64
  selfRank : W64
  dramBase : W64
  peatBase : W64
  adapterBase : W64
deriving DecidableEq, Repr

/-- The Proctor (R181). -/
structure Proctor where
  g : AMap W64
  pc : Nat
  tb : W64
  ep : W64
  ct : W64
  loops : List LoopEnt
  desc : AMap Desc
  csr : ProcCsr
  st : ProcSt
  /-- local tick from which the next instruction may issue (R182) -/
  ready : Nat
  /-- the bell count a WAITB EVT 0 or a stopped Proctor waits for (R191, R200) -/
  waitB : Option Nat
  held : Option HeldPush
  /-- firing ticks that a stop under R200 left without pushes: above the first, below the second -/
  unpushed : List (Nat × Nat)
  /-- instruction bytes by pc, as long as the placed code: those of a cached line are what its fill read, and no others
  are looked at (R198, R201) -/
  code : List Byte
  /-- INIT pc (R202) -/
  initPc : Nat
  icache : ICache
deriving DecidableEq, Repr

/-- One sluice entry (R234, R235). -/
structure SlEnt where
  id : Nat
  write : Bool
  cls : Nat
  addr : Nat
  beats : Nat
  /-- start tick of the SM command, local and reference -/
  start : Nat
  at_ : Nat
  /-- atoms present (read) with their data, by atom index -/
  atoms : AMap Beat
  /-- atoms accepted by a controller (write) -/
  accepted : List Nat
  ready : Bool
  /-- stored codewords of the entry that are not the encoding of their data, by word of the entry (R219, R234) -/
  raw : AMap (BitVec 72) := []
  /-- discarded under R239 -/
  dead : Bool
deriving DecidableEq, Repr

/-- Masters of port B in the round-robin order of R211. -/
inductive PbMaster where
  | host | care | debug | dredge | scrub
deriving DecidableEq, Repr

/-- Kinds of port-B access (R217, R225, R221). -/
inductive PbKind where
  | read | write | bitSet | bitClear
  | save | march (k : Nat) | restore | scrub
deriving DecidableEq, Repr

/-- A port-B access waiting at a slab (R211 to R214). -/
structure PbReq where
  master : PbMaster
  kind : PbKind
  /-- slab byte address; one beat at most -/
  addr : Nat
  len : Nat
  data : List Byte
  /-- enabled bytes -/
  be : List Bool
  poison : Bool
  issued : Nat
  grant : Option Nat
  /-- it is to be served in an inserted period (R214) -/
  forced : Bool := false
deriving DecidableEq, Repr

/-- The answer of a port-B access (R213, R217, R218). -/
structure PbResp where
  master : PbMaster
  addr : Nat
  data : List Byte
  /-- completed with Unsupported Request (R216) -/
  ur : Bool
  busy : Bool
  poison : Bool
deriving DecidableEq, Repr

/-- A slab: in-service rows, then spare row s at 10,485,760 + 4,096 s (R207, R223). -/
structure Slab where
  mem : Memory
  /-- stored codewords that are not the encoding of their data, by word address: poison and errors (R219, R220) -/
  raw : AMap (BitVec 72)
  /-- stuck bits of the cells: mask and value, by word address -/
  stuck : AMap (BitVec 72 × BitVec 72)
  pb : List PbReq
  resp : List PbResp
  /-- the master granted last -/
  lastGrant : PbMaster
  /-- corrected words waiting for the scrubber, by slab address -/
  scrubQ : List Nat
deriving DecidableEq, Repr

/-- The clock of a fen (R64 to R69). Units are 1/352 tick. -/
structure FenClk where
  /-- lag at the start of the present period, with what that period has added: 352 when it is suppressed, its stretch -/
  lag : Nat
  stretchLag : Nat
  /-- stretch decided for the present period, taken into the lag at the next reference edge -/
  pend : Nat
  /-- stretch of the present period that the lag holds already -/
  stretched : Nat
  /-- the present period is suppressed: the work of the local tick is done -/
  heldNow : Bool
  /-- by how much the present period is shortened: 0 unless it is a catch-up period (R67) -/
  catchup : Nat
  /-- periods still to suppress for late pushes and inserted accesses (R195, R210, R214) -/
  suppress : Nat
deriving DecidableEq, Repr

/-- A physical fen (R24). -/
structure Fen where
  clk : FenClk
  proc : Proctor
  te : Te
  ve : Ve
  slab : Slab
  /-- the four sluices, entries in issue order -/
  slu : AMap (List SlEnt)
  qTe : List QCmd
  qVe : List QCmd
  qSm : List QCmd
  qLx : List QCmd
  /-- start tick + 1 of the last command, per station te, ve, sm, lx (R36) -/
  lastStart : AMap Nat
  flights : List Flight
  /-- port-A accesses of the present local tick, and the runs written in it: address, bytes (R210, R409) -/
  pa : Nat
  wrote : List (Nat × Nat)
  /-- tick advance + 64 of the last epoch advance (R148) and whether zeroing is still running -/
  zeroTill : Nat
  zeroing : Bool
  /-- FEN_HARD raised: no further command starts until a fen reset (R487) -/
  hard : Bool
  /-- local tick + 1 in which the router's local output last carried a flit (R302) -/
  localOut : Nat
  /-- VC and input of that flit -/
  localVc : Nat
  localSide : Nat
  /-- step counter + 1 in which MESH_DEFER was logged last (R303) -/
  deferStep : Nat
deriving DecidableEq, Repr

/-- A request atom at a memory controller (R244, R245). -/
structure DReq where
  /-- the fen; from 288 a port of Issyn, whose writes nobody waits for -/
  fen : Nat
  /-- its sluice; 4: its instruction cache, with the line as entry -/
  slu : Nat
  ent : Nat
  atom : Nat
  cls : Nat
  addr : Nat
  write : Bool
  data : Beat
  /-- it has met a refresh window (R246) -/
  held : Bool
deriving DecidableEq, Repr

/-- An atom on its way back to a sluice or an instruction cache: read data or a write acceptance (R201, R235, R237). -/
structure DRet where
  fen : Nat
  slu : Nat
  ent : Nat
  atom : Nat
  write : Bool
  data : Beat
  /-- uncorrectable words of the atom (R201) -/
  bad : List Nat := []
deriving DecidableEq, Repr

/-- Where a mesh flit goes (R166, R244). -/
inductive FlitDst where
  /-- the other edge die: a transit of the flit that port `q` holds as ordinal `o` (R316) -/
  | cross (q o : Nat)
  | fen (l : Nat)
  | samp (d : Nat)
  | edge (port : Nat)
  /-- the attachment of a memory controller: 0 to 3 a die's stacks, then its column; 4 and 5 the peat channels of ED0 and
  ED1, then the row -/
  | mem (side at_ : Nat)
  /-- the sluices and the instruction cache of a logical fen -/
  | slu (l : Nat)
deriving DecidableEq, Repr

/-- A mesh flit between injection and delivery (R166, R244, R302 to R305). -/
structure MFlit where
  /-- physical fen of the sender; an attachment from 288: samplers, then Issyn ports, then memory controllers, then the
  holes of the logical mesh -/
  src : Nat
  dst : FlitDst
  addr : Nat
  data : Beat
  /-- bytes that the flit writes: 256, or 16 for a sampler record -/
  len : Nat
  ep : Nat
  vc : Nat
  /-- scheduled arrival tick -/
  arr : Nat
  /-- failed attempts of the present hop, and the physical fen that sends it -/
  tries : Nat
  hop : Nat
  /-- injection tick by the plan: copies of one multicast share it -/
  inj : Nat
  /-- logical positions of the routers still to leave, with the tick the plan gives each; a fen destination comes last
  (R299, R300) -/
  route : List (Nat × Nat)
  /-- input of the next router that the flit stands at: 0 local, 1 N, 2 S, 3 E, 4 W -/
  side : Nat
  /-- wall time in 1/352 reference tick at which the transfer into that input ends (R70) -/
  left : Nat
  /-- it has found no credit (R304) -/
  blocked : Bool
  /-- local tick of the sender in which it was injected, and the logical fen that pushed a draw (R148) -/
  at_ : Nat := 0
  by_ : Nat := 0
  /-- local tick + 1 of its destination in which it last lost a slot to another input (R303) -/
  lost : Nat := 0
  /-- what a flit of memory traffic carries: request atoms, or atoms on their way back (R244) -/
  reqs : List DReq := []
  rets : List DRet := []
deriving DecidableEq, Repr

/-- A running draw (R172, R175). -/
structure SampRun where
  cmd : QCmd
  start : Nat
  stop : Nat
deriving DecidableEq, Repr

/-- The sampler of a compute die (R168, R169). -/
structure Samp where
  queue : List QCmd
  lastStart : Nat
  run : Option SampRun
  mem : Memory
  /-- poisoned words, by word address -/
  bad : List Nat
deriving DecidableEq, Repr

/-- The Dredge engine of a compute die (R224 to R230). -/
structure Dredge where
  /-- next visit in the order of R224: physical fen index and region -/
  nextFen : Nat
  nextRegion : Nat
  /-- the visit under way: physical fen, region, phase of DREDGE.POS -/
  fen : Nat
  region : Nat
  phase : Nat
  /-- physical row under test: 0 to 2,559 in service, 2,560 + s for spare s -/
  row : Nat
  /-- the row that RESTORE writes -/
  restoreTo : Nat
  /-- accesses of the phase performed -/
  done : Nat
  /-- the save buffer's codewords, by word index 0 to 511 -/
  save : AMap (BitVec 72)
  /-- beats redirected to the save buffer -/
  redirect : List Nat
  failed : Bool
  /-- reference count at which the last region was due -/
  lastStart : Nat
  started : Bool
deriving DecidableEq, Repr

/-- A planning bank with an open row (R243, R245). -/
structure OpenRow where
  row : Nat
  last : Nat
deriving DecidableEq, Repr

/-- A stacked-DRAM stack and its controllers (R240 to R255). -/
structure Stack where
  /-- fitted and in use; a lost stack is unmapped (R486) -/
  up : Bool
  banks : AMap OpenRow
  /-- planning banks under a refresh window and the tick it ends -/
  refresh : AMap Nat
  /-- corrected words per row since cold reset -/
  ceCount : AMap Nat
  repairList : List Nat
  /-- spare rows used per pseudo-channel, SID and bank group -/
  sparesUsed : AMap Nat
  selfRefresh : Bool
deriving DecidableEq, Repr

/-- Stacked DRAM, the peat tier and their traffic. -/
structure Dram where
  stackList : AMap Stack
  mem : Memory
  /-- stored codewords that are not the encoding of their data, by word address -/
  raw : AMap (BitVec 72)
  peat : Memory
  /-- peat bursts in error by 64-byte address: 1 correctable, 2 uncorrectable or poisoned -/
  peatBad : AMap Nat
  queue : List DReq
  returns : List DRet
  /-- atoms read that wait at an attachment for the rest of their flit -/
  out : List (FlitDst × DRet)
  /-- number that the next sluice entry of the package takes: a discarded entry's number never comes back (R239) -/
  nextEnt : Nat
deriving DecidableEq, Repr

end Sys2Proof.Machine
end

