-- ==== Sys2Proof/Machine/LinkTypes.lean ====
section
/-! DEFINITION. The state of the Issyn ports (chapter 10), the fabric (chapter 11), the Bell and the package clock
(chapters 03, 04). -/
namespace Sys2Proof.Machine

/-- A transmit staging entry (R276, R277). -/
structure StagEnt where
  payTag : Bool
  hdrTag : Bool
  null : Bool
  vc : Nat
  dest : Nat
  space : Nat
  addr : Nat
  poison : Bool
  payload : List Byte
  /-- TB1 count from which a transit entry is ready (R316); 0 for a local one -/
  readyAt : Nat
deriving DecidableEq, Repr

/-- A flit in the replay buffer (R280 to R282). -/
structure TxRec where
  seq : Nat
  bytes : List Byte
  lastSent : Nat
  replays : Nat
  pend : Bool
deriving DecidableEq, Repr

/-- A transit to an out-port: the ordinal it takes and the tick it is ready; NULL for a copy while the tutor role is off
(R316, R423). -/
structure Transit where
  out : Nat
  ord : Nat
  at_ : Nat
  null : Bool
  /-- its flit is still on its way through the mesh from one edge die to the other -/
  crossing : Bool := false
deriving DecidableEq, Repr

/-- A flit in the receive elastic buffer (R283, R284). -/
structure RxRec where
  ord : Nat
  bytes : List Byte
  arrived : Nat
  /-- no scheduled tick: stored and acknowledged only (R284) -/
  unscheduled : Bool
  /-- the transit of this flit that waits for its staging entry (R316) -/
  transit : Option Transit
  /-- the flit has been delivered at this package -/
  delivered : Bool
deriving DecidableEq, Repr

/-- Port states (R286), by code. -/
inductive PState where
  | off | down | train | identify | up | retrain
deriving DecidableEq, Repr

/-- The code of a port state (R286). -/
def PState.code : PState → Nat
  | .off => 0 | .down => 1 | .train => 2 | .identify => 3 | .up => 4 | .retrain => 5

/-- A lane change requested, or granted and waiting for its block boundary (R292). -/
structure LaneChange where
  /-- 1 swap, 2 narrow, 3 add -/
  op : Nat
  lane : Nat
  block : Nat
  /-- this end is the transmitter of the direction -/
  tx : Bool
  granted : Bool
deriving DecidableEq, Repr

/-- The partner's identity as IDENT carries it (R274, R290). -/
structure Ident where
  phys : Nat
  port : Nat
  part : Nat
  fence : Bool
  nonce : Nat
  txCorr : Nat
  rxCorr : Nat
deriving DecidableEq, Repr

/-- An Issyn port (R265 to R297). -/
structure Port where
  state : PState
  /-- TB1 count at which the state was entered, and free-running ns -/
  since : Nat
  sinceNs : Nat
  stag : AMap StagEnt
  /-- J of R279 -/
  ordTx : Nat
  nextSeq : Nat
  replay : List TxRec
  /-- free slots in a row that carried replays (R279) -/
  replayRun : Nat
  /-- E of R283 -/
  ordRx : Nat
  rx : List RxRec
  /-- gaps named in a NAK and the tick they were named -/
  gaps : AMap Nat
  nakDue : List Nat
  /-- last slot index served, counted from the epoch of TB1 -/
  lastSlot : Nat
  pendBell : List (List Byte)
  pendLane : List (List Byte)
  pendIdent : Nat
  pendMgmt : List (List Byte)
  pendPing : List (List Byte)
  /-- flits put on the wire, latest first: tick and 256 bytes -/
  wire : List (Nat × List Byte)
  /-- failed fast retrains in a row (R288) -/
  retrainFails : Nat
  /-- path measurements of the present training, in 2^-16 tick (R287) -/
  paths : List Int
  pings : AMap Nat
  partner : Option Ident
  lastIdent : Option Ident
  changes : List LaneChange
  /-- lanes under retest: receive lane k, or 16 + transmit lane k (R293) -/
  retest : List Nat
  /-- transit counts per in-port (R316) -/
  transit : AMap Nat
  /-- free-running ns at which a DATA or NULL flit was received last -/
  lastData : Option Nat
  /-- symbol errors of each receive lane in its last millisecond, the spare's too (R265, R292) -/
  laneErr : AMap Nat := []
  /-- blocks the transmitter had sent when the raw counter stood at `blkAt`, its lanes being the present ones since then
  (R266, R292) -/
  blkBase : Nat := 0
  blkAt : Nat := 0
  /-- how long after the start of slot `lastSlot` the block of its flit ends, in 1/5140 tick (R266, R293) -/
  busy : Nat := 0
  /-- tick from which a FENCE that is set acts (R319) -/
  fenceFrom : Nat := 0
  /-- cold resets so far; NONCE is the random value of that number (R274) -/
  nonce : Nat
deriving DecidableEq, Repr

/-- Servo states of a base (R105). -/
inductive BState where
  | free | acquire | locked | hold | freqOnly | self | follow
deriving DecidableEq, Repr

/-- The code of a servo state (R105). -/
def BState.code : BState → Nat
  | .free => 0 | .acquire => 1 | .locked => 2 | .hold => 3 | .freqOnly => 4 | .self => 5 | .follow => 6

/-- A slave's open exchange (R102). -/
structure SlaveX where
  id : Nat
  port : Nat
  t1 : Int
  t2 : Int
  t3 : Int
  /-- FOLLOW_UP has been taken -/
  gotT1 : Bool
  gotT3 : Bool
  steps : Nat
  ratio : Nat
  valid : Bool
  base : Nat
  gm : Nat
deriving DecidableEq, Repr

/-- A master's open exchange on a port (R102). -/
structure MasterX where
  id : Nat
  /-- own count at which SYNC fell due -/
  due : Nat
  /-- SYNC has been sent, and its transmit stamp in 2^-16 tick -/
  sent : Bool
  t1 : Int
  /-- DELAY_RESP has been sent -/
  closed : Bool
deriving DecidableEq, Repr

/-- A tick base of the Bell, TB1 or TB2 (R97, R104, R105). -/
structure TBase where
  count : Nat
  /-- fraction in 2^-40 tick; FRAC shows its upper 16 bits -/
  frac : Nat
  trim : Int
  integ : Int
  state : BState
  phaseStepped : Bool
  everLocked : Bool
  /-- SELF has been entered since cold reset (R112) -/
  everSelf : Bool := false
  steps : Nat
  /-- physical address of the grandmaster (R101) -/
  gm : Nat
  prevO : Int
  lockN : Nat
  acqN : Nat
  offset : Int
  path : Int
  /-- own count at the last usable exchange, or at entry into the present state (R108) -/
  lastUse : Nat
  slave : Option SlaveX
  masters : AMap MasterX
deriving DecidableEq, Repr

/-- The Bell unit and the package PLL (R82, R94 to R98, R80). -/
structure Bell where
  /-- TB0 raw counter in 2^-32 ns -/
  raw : Nat
  off0 : Int
  anchor : Nat
  tb1 : TBase
  tb2 : TBase
  /-- step number and job base of the plan on TB1 -/
  handoverTick : Option Nat
  /-- an armed throttle: captured ratio and apply tick (R80) -/
  throttle : Option (Nat × Nat)
  /-- the PLL's frequency word, as the TRIM in force, frozen at a reference loss (R82) -/
  frozen : Option Int := none
  /-- fraction of `raw`, in 2^-64 of its unit -/
  rawFrac : Nat := 0
  /-- reference periods for which BELL_OUT stays high (R581) -/
  out : Nat := 0
deriving DecidableEq, Repr

/-- The rank table of R312, by rank; an unlisted entry is 0. -/
abbrev RankTable := AMap W64

end Sys2Proof.Machine
end

