-- ==== Sys2Proof/Machine/SysTypes.lean ====
section
/-! DEFINITION. The state of the loader, the Roll, the digest unit, the weights unit and the host interface
(chapters 02, 12 to 17). -/
namespace Sys2Proof.Machine

/-- Which image a package holds: the parsed header, tables and the bytes of the file (R38 to R41). -/
structure Image where
  bytes : List Byte
  hash : List Byte
  manifest : List Byte
  contract : Nat
  single : Bool
  stepTicks : Nat
  slack : Nat
  rankCount : Nat
  ceilCu : Nat
  ceilOpt : Nat
  dramBytes : Nat
  peatBytes : Nat
  /-- directory entries: type, offset, length -/
  dir : List (Nat × Nat × Nat)
  /-- logical fens used -/
  fenset : List Nat
deriving DecidableEq, Repr

/-- The tables of an image that units read while it runs. -/
structure PlanTables where
  portMask : Nat
  /-- reserved slot indexes per port (R270) -/
  slots : AMap (List Nat)
  /-- transit bytes per port (R306) -/
  transit : AMap (List Nat)
  plog : Nat
  /-- router output patterns: logical fen * 8 + output (0 N, 1 S, 2 E, 3 W, 4 local) -/
  patterns : AMap (List Byte)
  /-- slot-channel patterns: logical fen * 8 + output -/
  chan : AMap (List Byte)
  /-- refresh windows: tick, stack, bank (R249) -/
  refresh : List (Nat × Nat × Nat)
  /-- sluices: fen * 4 + sluice to class and ceiling (R247) -/
  sluices : AMap (Nat × Nat)
  /-- digest points, 32 bytes each (R407) -/
  points : List (List Byte)
deriving DecidableEq, Repr

/-- The parameters of an accepted ARM record (R328, R444). -/
structure ArmRec where
  jobId : Nat
  dkey : List Byte
  batchSlots : Nat
  drainSteps : Nat
  specMax : Nat
  maxCtx : Nat
  home : List Nat
  /-- the record bytes 0x28 to 0x2F (R456) -/
  params : List Byte
deriving DecidableEq, Repr

/-- A relocated plan (R51, R52). -/
structure PlanInst where
  img : Image
  tab : PlanTables
  selfRank : Nat
  acceptHoles : Bool
  dramBase : Nat
  peatBase : Nat
  /-- logical to physical fen -/
  fmap : AMap Nat
  rt : RankTable
  /-- placed at RELOCATE, or still to be placed under R52 -/
  placed : Bool
  /-- slabs filled under R394 -/
  filled : Bool
  /-- the weight set claimed at ARM (R394) -/
  wset : Option Nat
  arm : Option ArmRec
  startTick : Nat
  stepBase : Nat
  /-- replay: script address, length, HALT_STEP, HALT_TICK (R415) -/
  replay : Option (List Byte × Nat × Nat)
deriving DecidableEq, Repr

/-- A Roll entry (R331): its states are 0 FREE, 1 QUEUED, 2 ACTIVE, 3 CLOSED. -/
structure REntry where
  state : Nat
  cls : Nat
  noAdapter : Bool
  specEn : Bool
  adChanged : Bool
  ttftMiss : Bool
  atRisk : Bool
  cancel : Bool
  cause : Nat
  msix : Nat
  slot : Nat
  hostTag : Nat
  adapter : Nat
  gen : Nat
  seed : Nat
  sampling : List Byte
  promptAddr : Nat
  promptLen : Nat
  maxNew : Nat
  committed : Nat
  prov : Nat
  kvPages : Nat
  stops : List Nat
  ttft : Nat
  tbt : Nat
  arrival : Nat
  deadline : Nat
  firstTick : Nat
  lastTick : Nat
  firstNs : Nat
  lastNs : Nat
  estTbt : Nat
  tbtMiss : Nat
  tokensOut : Nat
  acceptNo : Nat
  /-- the depth controller (R368) -/
  depth : Nat
  runDepth : Nat
  accEst : Nat
  runs : Nat
  proposed : Nat
  accepted : Nat
  /-- a TOKEN record of the request has been posted (R346) -/
  posted : Bool
deriving DecidableEq, Repr

/-- A batch slot: 0 FREE, 1 ACTIVE, 2 DRAINING (R330). -/
structure BSlot where
  state : Nat
  entry : Nat
  drain : Nat
  /-- first step of the request; a switch took effect at the last boundary -/
  new : Bool
  adChanged : Bool
  /-- the first step in which the request is ACTIVE (R340) -/
  first : Nat := 0
deriving DecidableEq, Repr

/-- The copy of a sampler record that reaches the Roll (R329). -/
structure SampRec where
  die : Nat
  slot : Nat
  ridx : Nat
  step : Nat
  token : Nat
  prob : Nat
  flags : Nat
  pos : Nat
  /-- reference tick of delivery, and the logical fen that pushed the draw -/
  due : Nat
  by_ : Nat := 0
deriving DecidableEq, Repr

/-- One slot of an adapter table entry: STATE 0 EMPTY, 1 CURRENT, 2 OLD, 3 SPARE (R347). -/
structure AdSlot where
  st : Nat
  gen : Nat
  addr : Nat
  len : Nat
  ref : Nat
deriving DecidableEq, Repr

/-- An adapter table entry (R347). -/
structure AdEnt where
  retired : Bool
  s0 : AdSlot
  s1 : AdSlot
deriving DecidableEq, Repr

/-- An adapter change waiting for its boundary: mode 0 NORMAL, 1 SWITCH_AT_STEP, 2 RETIRE (R350 to R352). -/
structure AdChange where
  mode : Nat
  handle : Nat
  gen : Nat
  addr : Nat
  len : Nat
  step : Nat
  /-- the command that asked for it, by its take number -/
  cmd : Nat
deriving DecidableEq, Repr

/-- An egress record that waits for the ring (R343, R345). -/
structure EgRec where
  kind : Nat
  cause : Nat
  entry : Nat
  intake : Nat
  hostTag : Nat
  value : Nat
  pos : Nat
  vec : Nat
  /-- a TOKEN record's place among those of its request at the boundary, and their number (R346) -/
  idx : Nat
  n : Nat
  /-- the boundary or scan that made the record (R343) -/
  batch : Nat := 0
deriving DecidableEq, Repr

/-- The Roll (chapter 12, 13). -/
structure Roll where
  entries : AMap REntry
  /-- cells of the entries that differ from the codewords written: of entry i, word w at key 32 i + w (R331) -/
  upset : AMap (BitVec 72)
  /-- home slots that a tutor has promised to QUEUED entries for the next boundary (R423) -/
  promised : AMap Nat
  slots : AMap BSlot
  recs : List SampRec
  /-- copies on the sideband path to ED0 (R174) -/
  inbound : List SampRec
  adapters : AMap AdEnt
  /-- the entries that the copies in the stacks hold (R347, R349) -/
  copies : AMap AdEnt
  changes : List AdChange
  backlog : List EgRec
  lastSeq : AMap Nat
  acceptNo : Nat
  intake : Memory
  /-- SROLL entries a pupil holds, or decisions a tutor applies at the next boundary (R423, R424) -/
  script : List (List Byte)
  /-- step whose boundary was acted on last, plus one -/
  lastStep : Nat
  /-- number of the boundary or scan whose egress records are being made (R343) -/
  batch : Nat
deriving DecidableEq, Repr

/-- Capture of a digest point in a step (R409). -/
structure DigPoint where
  idx : Nat
  step : Nat
  taken : AMap Beat
  /-- local tick of the fen at which the digest unit has folded the point, once every beat is taken (R45) -/
  due : Option Nat
deriving DecidableEq, Repr

/-- What a step has collected for its STEP record (R411, R414). -/
structure DigStep where
  /-- sum of PLAIN terms and folded slots, per die -/
  plain : AMap Nat
  /-- per-slot accumulators, die * 1024 + slot -/
  slotted : AMap Nat
  mask : AMap (List Byte)
  /-- first defect of the step: event code -/
  defect : Option Nat
  /-- all defect events in order -/
  incomplete : Bool
  poison : Bool
  poisonSlots : List Nat
  points : Nat
  /-- unit sums per closed point, for the trace ring -/
  traces : List (Nat × Nat)
  hasSlotted : List Nat
deriving DecidableEq, Repr

/-- The digests of a step that tutor and pupil compare (R423, R424). -/
structure StepDig where
  plain : Nat
  /-- digests of ACTIVE slots -/
  slots : List (Nat × Nat)
  /-- not defective (own), complete (received) -/
  ok : Bool
  /-- own: the record's place in the log ring, and the valid slots -/
  rec_ : Nat
  valid : List Nat
  /-- received: the flits held, and their number once LAST has come -/
  got : List Nat
  total : Option Nat
deriving DecidableEq, Repr

/-- The digest units and the log (chapter 15). -/
structure Dig where
  open_ : List DigPoint
  steps : AMap DigStep
  /-- provisional accumulators: (die * 1024 + slot) * 9 + index, with the poison of their units -/
  prov : AMap (Nat × Bool)
  /-- 0 none, 1 tutor, 2 pupil (R421) -/
  role : Nat
  port : Nat
  beginStep : Nat
  pendingRole : Nat
  /-- digests of a pupil's steps: received from the tutor, and its own -/
  tutor : AMap StepDig
  own : AMap StepDig
  valid : List Nat
  traceUsed : Nat
  halted : Bool
  /-- failures for step 2 of a later boundary (R59, R484): batch slot (none: every active slot), event code and step -/
  reports : List (Option Nat × Nat × Nat)
deriving DecidableEq, Repr

/-- A chunk being assembled (R385). -/
structure ChunkAsm where
  loadId : Nat
  shard : Nat
  chunk : Nat
  flits : AMap (List Byte)
  last : Nat
deriving DecidableEq, Repr

/-- A whole chunk waiting for its authentication (R380, R385, R390). -/
structure ChunkIn where
  loadId : Nat
  bytes : List Byte
  /-- intake frame, for a host load -/
  frame : Option Nat
deriving DecidableEq, Repr

/-- A chunk sent downstream (R384). -/
structure ChunkOut where
  shard : Nat
  chunk : Nat
  sends : Nat
  sentAt : Nat
  acked : Bool
  resend : Bool
  abandoned : Bool
deriving DecidableEq, Repr

/-- A weight set (R375, R381). -/
structure WSet where
  /-- R375 state code -/
  state : Nat
  loadId : Nat
  wrank : Nat
  manifest : List Byte
  up : Nat
  down : Nat
  dramDest : Nat
  peatDest : Nat
  stageAddr : Nat
  stageBytes : Nat
  held : List (Nat × Nat)
  /-- ciphertext images of held chunks with headers, for the shard hash and for forwarding -/
  store : AMap (List Byte)
  checked : List Nat
  acked : List Nat
  fails : AMap Nat
  out : List ChunkOut
  lastAuth : Nat
  forwarded : Bool
  cause : Nat
  /-- command take number of LOAD_WEIGHTS -/
  cmd : Nat
deriving DecidableEq, Repr

/-- A key slot (R379). -/
structure KeySlot where
  id : Nat
  key : List Byte
deriving DecidableEq, Repr

/-- The weights unit (chapter 14). -/
structure Wgt where
  sets : AMap WSet
  keys : AMap KeySlot
  asm_ : List ChunkAsm
  ready : List ChunkIn
  frames : Memory
  frameSeq : AMap Nat
  sideA : AMap W64
  sideB : AMap W64
  side : Nat
  /-- pending switch: set, apply tick, command (R396) -/
  pending : Option (Nat × Nat × Nat)
deriving DecidableEq, Repr

/-- Where a command came from (R436, R437, R453). -/
inductive CmdPath where
  | slot (n : Nat)
  | care
  | link
deriving DecidableEq, Repr

/-- A command record as taken (R435), numbered in take order. -/
structure Cmd where
  no : Nat
  path : CmdPath
  opcode : Nat
  flags : Nat
  tag : Nat
  /-- the 512 bytes of the record -/
  rec_ : List Byte
  /-- free-running ns at take -/
  takenNs : Nat
  /-- the host path's completion is discarded (R432) -/
  silent : Bool
deriving DecidableEq, Repr

/-- A completion record before it is posted (R439). -/
structure Cpl where
  path : CmdPath
  opcode : Nat
  status : Nat
  tag : Nat
  res0 : Nat
  res1 : Nat
  accepted : Bool
  msix : Bool
  silent : Bool
deriving DecidableEq, Repr

/-- The host interface and the command set (chapter 16). -/
structure HostIf where
  /-- host memory as the package reads and writes it -/
  mem : Memory
  slotMem : Memory
  lastSeq : AMap Nat
  nextNo : Nat
  /-- taken and not yet executed, in take order -/
  taken : List Cmd
  /-- executed and waiting for the event that completes them -/
  running : List Cmd
  /-- completions waiting for ring room -/
  cplQ : List Cpl
  /-- completions and ARM reports handed to the Caretaker -/
  careCpl : List Cpl
  /-- MSI-X vectors raised, oldest first -/
  msix : List Nat
  /-- MSI-X table words, by byte offset -/
  msixTab : AMap W64
  /-- answers of reads: value, unsupported, poisoned -/
  resp : List (List Byte × Bool × Bool)
  linkGen : Nat
  linkWidth : Nat
  d3hot : Bool
  /-- patch level and entries of the bundle applied (R447) -/
  patchLevel : Nat
  patchCount : Nat
deriving DecidableEq, Repr

/-- The job (chapter 17). -/
structure Job where
  /-- R451 state code of the plan reported -/
  state : Nat
  image : Option (Image × PlanTables)
  /-- the plan on TB1, or on TB2 while DRIVE is 1 -/
  cur : Option PlanInst
  /-- the next plan, relocated or armed -/
  next : Option PlanInst
  start : Nat
  ready : List Byte
  /-- a DISARM TARGET RUNNING waits for its boundary -/
  disarmReq : Bool
  /-- the ARM in progress, with its home list as read at take -/
  arming : Option (Cmd × List Byte)
  /-- fens whose epoch advances at a local tick: plan start (true, R197) or RESUME (false, R196) -/
  starts : AMap (Nat × Bool)
deriving DecidableEq, Repr

end Sys2Proof.Machine
end

