-- ==== Sys2Proof/Machine/MgmtTypes.lean ====
section
/-! DEFINITION. The state of the management side: event queue and log, Caretaker, Bursar, power sequencing, Markbook
and SPDM (chapters 18 to 24, 26), and what distinguishes one part from another (fuses, straps, fitted modules). -/
namespace Sys2Proof.Machine

/-- What distinguishes one part and board position from another: fuses, fitted modules, strap pins. -/
structure Part where
  /-- CHIP.GRADE.GRADE: 0 md256, 1 md224, 2 md192 (R573) -/
  grade : Nat
  /-- true: stepping B0 (R593) -/
  b0 : Bool
  serial : Nat
  /-- spare column of each die row (die * 8 + row), R26 -/
  spare : AMap Nat
  /-- fused columns of each die row, R26 -/
  fused : AMap (List Nat)
  /-- PEAT.MOD[c] module size in GiB, 0 when absent (R256) -/
  modules : AMap Nat
  /-- strap pins as they stand now (R477) -/
  rackId : Nat
  boardId : Nat
  posId : Nat
  bootMode : Nat
  /-- rollback fuses and patch fuses blown (R506, R552) -/
  fwFuses : Nat
  patchFuses : Nat
  /-- revocation bits of SEC.STATUS.REVOKED (R553) -/
  revoked : Nat
  /-- SHA-384 of the trusted public keys: kind * 8 + index * 2 + which (R552) -/
  keyHash : AMap (List Byte)
  uds : List Byte
  /-- SHA-384 of the DeviceID certificate (R544) -/
  certHash : List Byte
deriving DecidableEq, Repr

/-- An event of R492 on its way to the Caretaker's log (R500). -/
structure Ev where
  time : Nat
  block : Nat
  code : Nat
  info : Nat
  /-- it sets one of the block's bits of INT_RAW, beside ANY -/
  irq : Bool
  lost : Bool
deriving DecidableEq, Repr

/-- An event-log record (R500). -/
structure LogRec where
  seq : Nat
  tb0 : Nat
  time : Nat
  block : Nat
  code : Nat
  info : Nat
  lost : Bool
deriving DecidableEq, Repr

/-- A Caretaker Message after its header is parsed (R502). -/
structure Msg where
  typ : Nat
  flags : Nat
  tag : Nat
  src : Nat
  reason : Nat
  session : Nat
  sent : Nat
  body : List Byte
deriving DecidableEq, Repr

/-- A message of the Caretaker that waits for its acknowledgement (R503). -/
structure OutMsg where
  msg : Msg
  lastSent : Nat
  sends : Nat
deriving DecidableEq, Repr

/-- A firmware slot of board flash (R506, R507). -/
structure FwSlot where
  image : Memory
  /-- the slot still holds the image it was manufactured with, of this version and rollback index -/
  factory : Bool
  version : Nat
  rollback : Nat
  trial : Bool
deriving DecidableEq, Repr

/-- Board flash (R495, R501, R506). -/
structure Flash where
  slotA : FwSlot
  slotB : FwSlot
  /-- preferred slot: 0 A, 1 B -/
  prefer : Nat
  log : List LogRec
  /-- failed fens by physical index; repair-map and FEN.ICACHE registers by BAR0 offset; replacement bits -/
  failed : List Nat
  rmap : AMap W64
  ways : AMap W64
  replace : Nat
  /-- patch bundle, empty when there is none; DeviceID certificate, `none` the one stored at manufacture -/
  bundle : List Byte
  cert : Option (List Byte)
deriving DecidableEq, Repr

/-- The Caretaker (chapter 20). -/
structure Care where
  flash : Flash
  log : List LogRec
  nextSeq : Nat
  /-- free-running ns at the first record not yet in flash -/
  pageSince : Nat
  cmdQ : List (Nat × List Byte)
  tags : List Nat
  unacked : List OutMsg
  /-- messages put on the ports, latest first: port mask and message -/
  out : List (Nat × Msg)
  nextTag : Nat
  /-- TB1 count of the last fault-manager message, and whether one has come (R460, R508) -/
  lastMsg : Nat
  everMsg : Bool
  sensors : AMap Nat
  snapshot : AMap Nat
  lastSnap : Nat
  /-- DROOP_HIGH_ACT since, per physical fen, in free-running ns -/
  droopSince : AMap Nat
  coolSince : Option Nat
  /-- last THROTTLE_REQ: free-running ns and ratio; and whether a throttle condition has held since ratio 0 was asked -/
  lastReq : Option (Nat × Nat)
  asked : Bool
  /-- start of the firmware trial, free-running ns, and watchdog restarts in it -/
  trialStart : Nat
  trialRestarts : Nat
  /-- REJECTED to report in the next STATUS (R499) -/
  rejected : Bool
  /-- messages (type and body) that wait for a management session and a port with link -/
  outQ : List (Nat × List Byte)
deriving DecidableEq, Repr

/-- A stored Bursar record (R515), as its 128 bytes and its number. -/
structure BRec where
  seq : Nat
  bytes : List Byte
deriving DecidableEq, Repr

/-- The Bursar metering island (chapter 21). -/
structure Bursar where
  powered : Bool
  tb3 : Nat
  /-- idle steps counted, which number the free values of TB3's advance (the model's own field) -/
  ticks : Nat
  mec : Nat
  /-- records held, oldest first; at most 512 -/
  ring : List BRec
  nextSeq : Nat
  /-- HASH of the newest record, 32 zero bytes before the first -/
  prev : List Byte
  /-- cumulative energy per PART in mJ, and the total -/
  parts : AMap Nat
  total : Nat
  /-- start of the open interval, its PART, its energy and its flags -/
  since : Nat
  part : Nat
  energy : Nat
  tagInvalid : Bool
  overRange : Bool
  sense : Bool
  /-- the open 1 ms bin: its start, its energy in 1/64,000 nJ, PART of its last good frame, an over-range sample in it -/
  binAt : Nat
  bin : Nat
  binPart : Option Nat
  binOver : Bool
  /-- fraction of a mJ not yet counted, in 1/64,000 nJ -/
  residue : Nat
  /-- channels whose sense pair is open or shorted -/
  faults : List Nat
  /-- METRO_SEAL_N is high -/
  sealOpen : Bool
  calData : List Byte
  staged : List Byte
  calFuses : List (List Byte)
  select : Nat
  /-- mean power of the last 1 ms, mW -/
  mw : Nat
deriving DecidableEq, Repr

/-- Power states and the VAUX-domain sequencer (chapters 22, 26). -/
structure Power where
  state : Nat
  target : Nat
  committed : Bool
  wakeHeld : Bool
  /-- the POWER_STATE command whose entry is under way -/
  cmd : Option Cmd
  /-- PWR_EN[3:0] and the power-good inputs PG_CORE, PG_SRAM, PG_SD, PG_IO, as bits 3 to 0 -/
  en : Nat
  pg : Nat
  /-- enables are being raised (true) or released -/
  rising : Bool
  /-- a falling edge of WAKE_N is held for the next power-up -/
  wakeAfter : Bool
  /-- latched causes of R589: THERMTRIP die, PG_LOST input, PWR_SEQ_TIMEOUT inputs -/
  latchTrip : Option Nat
  latchPg : Option Nat
  latchSeq : Option Nat
  /-- the trip latch, and with it THERMTRIP_N -/
  tripPin : Bool
  vaux : Bool
deriving DecidableEq, Repr

/-- A sampled station command whose record is not due yet (R537). -/
structure MarkOpen where
  fen : Nat
  st : Nat
  start : Nat
  due : Nat
  fire : Nat
  pc : Nat
  opcode : Nat
  ep : Nat
  flags : Nat
  lag16 : Nat
  no : Nat
deriving DecidableEq, Repr

/-- The Markbook of a compute die (R536 to R539). -/
structure Mark where
  countdown : Nat
  sample : Nat
  /-- records written since RESET -/
  written : Nat
  recs : AMap (List Byte)
  open_ : List MarkOpen
  /-- tick in which the last record entered -/
  lastRec : Option Nat
deriving DecidableEq, Repr

/-- A pending PERF_CONFIG change: page offset, counter, value, tick (R534). -/
structure PerfPend where
  page : Nat
  ctr : Nat
  ctrl : W64
  tick : Nat
  cmd : Nat
deriving DecidableEq, Repr

/-- An SPDM session (R547). -/
structure Sess where
  id : Nat
  /-- session index, 0 to 7 -/
  idx : Nat
  /-- established over a management port -/
  mgmt : Bool
  /-- FINISH has been accepted -/
  established : Bool
  version : Nat
  /-- handshake secret, and the transcript of the key exchange -/
  hs : List Byte
  th : List Byte
  /-- secrets in force per direction: handshake secrets, then application secrets; and the records each has covered -/
  reqSecret : List Byte
  rspSecret : List Byte
  reqSeq : Nat
  rspSeq : Nat
  /-- free-running ns of its last message -/
  last : Nat
deriving DecidableEq, Repr

/-- An SPDM connection: DOE, or the management ports (R545). -/
structure Conn where
  /-- negotiated version: 0 none, 2 or 3 for 1.2 or 1.3 -/
  version : Nat
  /-- 0 start, 1 after VERSION, 2 after CAPABILITIES, 3 after ALGORITHMS -/
  phase : Nat
  /-- transcripts: negotiation; digests and certificates; measurements -/
  vca : List Byte
  certs : List Byte
  meas : List Byte
deriving DecidableEq, Repr

/-- The SPDM responder (R545 to R548). -/
structure Spdm where
  /-- connections: 0 DOE, 1 management ports -/
  conns : AMap Conn
  sessions : List Sess
  /-- responses sent, latest first: over a management port, and the bytes -/
  resp : List (Bool × List Byte)
  certOk : Bool
  cdi : List Byte
deriving DecidableEq, Repr

end Sys2Proof.Machine
end

