-- ==== Sys2Proof/Machine/RegTable.lean ====
section
/-! DEFINITION. The register map: block types and bases (R567), the fields of every block-specific register with
access code, reset value and whether only the Caretaker writes them, written from the register tables of the
chapters named in each row, and the header of every page (R560). -/
namespace Sys2Proof.Machine

/-- Block types of R567. -/
inductive Blk where
  | chip | pclk | host | job | dlog | fab | sec | samp | dredge | mark | fen | issyn | sdram | peat | bell | roll | wgt | care | brsm
deriving DecidableEq, Repr

/-- BAR0 offset of the normal page of instance `i` of a block (R567). -/
def Blk.base : Blk → Nat → Nat
  | .chip, _ => 0x00000000
  | .pclk, _ => 0x00004000
  | .host, _ => 0x00008000
  | .job, _ => 0x0000C000
  | .dlog, _ => 0x00010000
  | .fab, i => 0x00014000 + i * 0x4000
  | .sec, _ => 0x0001C000
  | .samp, i => 0x00800000 + i * 0x10000
  | .dredge, i => 0x00804000 + i * 0x10000
  | .mark, i => 0x00808000 + i * 0x10000
  | .fen, i => 0x01000000 + i * 0x4000
  | .issyn, i => 0x02000000 + i * 0x4000
  | .sdram, i => 0x02100000 + i * 0x4000
  | .peat, i => 0x02120000 + i * 0x4000
  | .bell, _ => 0x02140000
  | .roll, _ => 0x02144000
  | .wgt, _ => 0x02148000
  | .care, _ => 0x0214C000
  | .brsm, _ => 0x02150000

/-- Number of instances (R567). -/
def Blk.count : Blk → Nat
  | .fab => 2 | .samp => 4 | .dredge => 4 | .mark => 4 | .fen => 288 | .issyn => 16 | .sdram => 8 | .peat => 2
  | .chip => 1 | .pclk => 1 | .host => 1 | .job => 1 | .dlog => 1 | .sec => 1 | .bell => 1 | .roll => 1 | .wgt => 1
  | .care => 1 | .brsm => 1

/-- Distance between instances. -/
def Blk.stride : Blk → Nat
  | .samp => 0x10000 | .dredge => 0x10000 | .mark => 0x10000 | _ => 0x4000

/-- TYPE of R561. -/
def Blk.typ : Blk → Nat
  | .chip => 0x0001 | .pclk => 0x0002 | .host => 0x0043 | .job => 0x0041 | .dlog => 0x0042 | .fab => 0x0021
  | .sec => 0x0051 | .samp => 0x0011 | .dredge => 0x0012 | .mark => 0x0013 | .fen => 0x0010 | .issyn => 0x0020
  | .sdram => 0x0030 | .peat => 0x0031 | .bell => 0x0003 | .roll => 0x0040 | .wgt => 0x0044 | .care => 0x0050
  | .brsm => 0x0052

/-- DIE of R561: 0 to 3 the compute dies, 4 ED0, 5 ED1. -/
def Blk.die : Blk → Nat → Nat
  | .fen, i => i / 72
  | .samp, i => i
  | .dredge, i => i
  | .mark, i => i
  | .sdram, i => i / 2
  | .issyn, i => if i < 8 then 4 else 5
  | .fab, i => 4 + i
  | .peat, i => 4 + i
  | .pclk, _ => 5
  | .sec, _ => 5
  | .bell, _ => 5
  | .care, _ => 5
  | .brsm, _ => 5
  | .chip, _ => 4
  | .host, _ => 4
  | .job, _ => 4
  | .dlog, _ => 4
  | .roll, _ => 4
  | .wgt, _ => 4

/-- Every block type. -/
def Blk.all : List Blk :=
  [.chip, .pclk, .host, .job, .dlog, .fab, .sec, .samp, .dredge, .mark, .fen, .issyn, .sdram, .peat, .bell, .roll,
   .wgt, .care, .brsm]

/-- The block instance whose 16 KiB region holds a BAR0 offset (R566, R567), with the offset inside the region. -/
def Blk.locate (a : Nat) : Option (Blk × Nat × Nat) :=
  Blk.all.findSome? fun b =>
    let d := a - b.base 0
    let i := d / b.stride
    if b.base 0 ≤ a ∧ i < b.count ∧ d % b.stride < 0x4000 then some (b, i, d % b.stride) else none

/-- Access codes of R13. -/
inductive Acc7 where
  | ro | rw | wo | w1c | w1s | rc | st
deriving DecidableEq, Repr

/-- A field of a register row: bits, access, reset value, Caretaker-only writes. -/
structure FRow where
  hi : Nat
  lo : Nat
  acc : Acc7
  reset : Nat
  care : Bool
deriving DecidableEq, Repr

/-- A register row: offset of the first register, number of registers at stride 8, fields. -/
structure RRow where
  off : Nat
  n : Nat
  fields : List FRow
deriving DecidableEq, Repr

/-- A named field: block, offset in the page, bits. -/
structure Fld where
  blk : Blk
  off : Nat
  hi : Nat
  lo : Nat
deriving DecidableEq, Repr

/-- The same field of the k-th register of an array. -/
def Fld.nth (f : Fld) (k : Nat) : Fld := { f with off := f.off + 8 * k }

/-- Header rows that every page has (R529, R560, R563, R564, R492). -/
def hdrRows : List RRow := [
  ⟨0x010, 1, [⟨0, 0, .rw, 0, false⟩, ⟨1, 1, .rw, 0, false⟩]⟩,
  ⟨0x020, 1, [⟨0, 0, .w1c, 0, false⟩, ⟨15, 8, .w1c, 0, false⟩, ⟨23, 16, .w1c, 0, false⟩]⟩,
  ⟨0x028, 1, [⟨0, 0, .rw, 0, false⟩, ⟨15, 8, .rw, 0, false⟩, ⟨23, 16, .rw, 0, false⟩]⟩,
  ⟨0x038, 1, [⟨31, 0, .rc, 0, false⟩]⟩,
  ⟨0x040, 2, [⟨63, 0, .ro, 0, false⟩]⟩,
  ⟨0x080, 8, [⟨47, 0, .rw, 0, false⟩]⟩,
  ⟨0x0C0, 8, [⟨61, 0, .rw, 0, true⟩, ⟨62, 62, .w1c, 0, true⟩, ⟨63, 63, .wo, 0, true⟩]⟩]

/-- Block-specific rows of CHIP. -/
def chipRows : List RRow := [
  -- R479 CHIP.STAGE
  ⟨0x100, 1, [⟨2, 0, .ro, 0, false⟩, ⟨4, 3, .ro, 0, false⟩, ⟨5, 5, .ro, 0, false⟩, ⟨15, 8, .ro, 0, false⟩,
    ⟨63, 32, .ro, 0, false⟩]⟩,
  -- R479 CHIP.RESET
  ⟨0x108, 1, [⟨0, 0, .ro, 0, false⟩, ⟨1, 1, .w1c, 0, false⟩, ⟨31, 16, .st, 0, false⟩]⟩,
  -- R479 CHIP.STRAPS
  ⟨0x110, 1, [⟨7, 0, .ro, 0, false⟩, ⟨11, 8, .ro, 0, false⟩, ⟨13, 12, .ro, 0, false⟩,
    ⟨15, 14, .ro, 0, false⟩]⟩,
  -- R493 CHIP.FAULT
  ⟨0x118, 1, [⟨0, 0, .w1c, 0, true⟩, ⟨1, 1, .w1c, 0, true⟩, ⟨2, 2, .w1c, 0, true⟩, ⟨3, 3, .w1c, 0, true⟩,
    ⟨63, 32, .st, 0, true⟩]⟩,
  -- R493 CHIP.REPLACE
  ⟨0x120, 1, [⟨0, 0, .st, 0, true⟩, ⟨1, 1, .st, 0, true⟩, ⟨2, 2, .st, 0, true⟩, ⟨3, 3, .st, 0, true⟩,
    ⟨4, 4, .st, 0, true⟩, ⟨5, 5, .st, 0, true⟩, ⟨6, 6, .st, 0, true⟩, ⟨7, 7, .st, 0, true⟩]⟩,
  -- R527 CHIP.PWR
  ⟨0x128, 1, [⟨2, 0, .ro, 0, false⟩, ⟨5, 3, .ro, 0, false⟩, ⟨6, 6, .ro, 0, false⟩, ⟨7, 7, .ro, 0, false⟩,
    ⟨10, 8, .ro, 0, false⟩, ⟨11, 11, .ro, 0, false⟩, ⟨14, 12, .ro, 0, false⟩,
    ⟨31, 16, .ro, 0, false⟩, ⟨63, 32, .ro, 0, false⟩]⟩,
  -- R527 CHIP.PWR_REF
  ⟨0x130, 5, [⟨31, 0, .rc, 0, false⟩, ⟨63, 32, .rc, 0, false⟩]⟩,
  -- R573 CHIP.IRQ_CFG
  ⟨0x158, 1, [⟨7, 0, .rw, 255, false⟩, ⟨8, 8, .rw, 0, false⟩]⟩,
  -- R573 CHIP.GRADE
  ⟨0x160, 1, [⟨7, 0, .ro, 0, false⟩, ⟨15, 8, .ro, 0, false⟩, ⟨24, 16, .ro, 0, false⟩,
    ⟨26, 25, .ro, 0, false⟩]⟩]

/-- Block-specific rows of PCLK. -/
def pclkRows : List RRow := [
  -- R89 PCLK.PLL_STATUS
  ⟨0x100, 1, [⟨0, 0, .ro, 0, false⟩, ⟨1, 1, .w1c, 0, false⟩, ⟨2, 2, .ro, 0, false⟩, ⟨3, 3, .ro, 0, false⟩,
    ⟨63, 32, .st, 0, false⟩]⟩,
  -- R90 PCLK.THROTTLE
  ⟨0x108, 1, [⟨7, 0, .ro, 0, false⟩, ⟨15, 8, .rw, 0, false⟩, ⟨16, 16, .ro, 0, false⟩,
    ⟨17, 17, .w1c, 0, false⟩]⟩,
  -- R91 PCLK.THROTTLE_TICK
  ⟨0x110, 1, [⟨63, 0, .rw, 0, false⟩]⟩]

/-- Block-specific rows of HOST. -/
def hostRows : List RRow := [
  -- R449 HOST.CPL_BASE
  ⟨0x100, 1, [⟨63, 0, .rw, 0, false⟩]⟩,
  -- R449 HOST.CPL_CFG
  ⟨0x108, 1, [⟨3, 0, .rw, 6, false⟩, ⟨15, 8, .rw, 255, false⟩, ⟨16, 16, .rw, 0, false⟩]⟩,
  -- R449 HOST.CPL_HEAD
  ⟨0x110, 1, [⟨31, 0, .ro, 0, false⟩, ⟨32, 32, .ro, 1, false⟩]⟩,
  -- R449 HOST.CPL_TAIL
  ⟨0x118, 1, [⟨31, 0, .rw, 0, false⟩]⟩,
  -- R449 HOST.MWIN
  ⟨0x120, 2, [⟨43, 0, .rw, 0, false⟩, ⟨63, 63, .rw, 0, false⟩]⟩,
  -- R449 HOST.SLOTS
  ⟨0x130, 1, [⟨7, 0, .ro, 0, false⟩]⟩,
  -- R449 HOST.STAT
  ⟨0x138, 1, [⟨23, 0, .rc, 0, false⟩, ⟨39, 24, .rc, 0, false⟩, ⟨63, 40, .rc, 0, false⟩]⟩,
  -- R449 HOST.PATCH
  ⟨0x140, 1, [⟨31, 0, .ro, 0, false⟩, ⟨37, 32, .ro, 0, false⟩, ⟨38, 38, .st, 0, false⟩]⟩]

/-- Block-specific rows of JOB. -/
def jobRows : List RRow := [
  -- R466 JOB.STATE
  ⟨0x100, 1, [⟨2, 0, .ro, 0, false⟩, ⟨3, 3, .ro, 0, false⟩]⟩,
  -- R466 JOB.ID
  ⟨0x108, 1, [⟨63, 0, .ro, 0, false⟩]⟩,
  -- R466 JOB.START
  ⟨0x110, 1, [⟨63, 0, .ro, 0, false⟩]⟩,
  -- R466 JOB.GUARD
  ⟨0x118, 1, [⟨31, 0, .rw, 1050064, true⟩]⟩,
  -- R466 JOB.READY0
  ⟨0x120, 1, [⟨63, 0, .ro, 0, false⟩]⟩,
  -- R466 JOB.READY1
  ⟨0x128, 1, [⟨63, 0, .ro, 0, false⟩]⟩,
  -- R466 JOB.STAT
  ⟨0x130, 1, [⟨15, 0, .rc, 0, false⟩, ⟨31, 16, .rc, 0, false⟩, ⟨47, 32, .rc, 0, false⟩,
    ⟨63, 48, .rc, 0, false⟩]⟩]

/-- Block-specific rows of DLOG. -/
def dlogRows : List RRow := [
  -- R426 DLOG.HEAD
  ⟨0x100, 1, [⟨19, 0, .ro, 0, false⟩, ⟨63, 20, .ro, 0, false⟩]⟩,
  -- R426 DLOG.TRACE
  ⟨0x108, 1, [⟨47, 0, .rw, 0, false⟩, ⟨48, 48, .rw, 0, false⟩]⟩,
  -- R426 DLOG.SHADOW
  ⟨0x110, 1, [⟨1, 0, .ro, 0, false⟩, ⟨2, 2, .ro, 0, false⟩, ⟨3, 3, .ro, 0, false⟩, ⟨7, 4, .ro, 0, false⟩]⟩,
  -- R426 DLOG.SHADOW_CNT
  ⟨0x118, 1, [⟨31, 0, .ro, 0, false⟩, ⟨47, 32, .rc, 0, false⟩, ⟨63, 48, .rc, 0, false⟩]⟩,
  -- R426 DLOG.SHADOW_CFG
  ⟨0x120, 1, [⟨31, 0, .rw, 1000, true⟩]⟩,
  -- R426 DLOG.STAT
  ⟨0x128, 1, [⟨15, 0, .rc, 0, false⟩, ⟨31, 16, .rc, 0, false⟩, ⟨47, 32, .rc, 0, false⟩]⟩]

/-- Block-specific rows of FAB. -/
def fabRows : List RRow := [
  -- R326 FAB.RT_INDEX
  ⟨0x100, 1, [⟨13, 0, .rw, 0, true⟩]⟩,
  -- R326 FAB.RT_DATA
  ⟨0x108, 1, [⟨63, 0, .rw, 0, true⟩]⟩,
  -- R326 FAB.POS
  ⟨0x110, 1, [⟨7, 0, .ro, 0, false⟩, ⟨11, 8, .ro, 0, false⟩, ⟨13, 12, .ro, 0, false⟩,
    ⟨18, 16, .ro, 0, false⟩, ⟨21, 19, .ro, 0, false⟩]⟩,
  -- R326 FAB.STAT
  ⟨0x118, 1, [⟨31, 0, .rc, 0, false⟩, ⟨47, 32, .rc, 0, false⟩, ⟨63, 48, .rc, 0, false⟩]⟩]

/-- Block-specific rows of SEC. -/
def secRows : List RRow := [
  -- R553 SEC.STATUS
  ⟨0x100, 1, [⟨0, 0, .ro, 0, false⟩, ⟨7, 4, .ro, 0, false⟩, ⟨15, 8, .ro, 0, false⟩,
    ⟨21, 16, .ro, 0, false⟩]⟩]

/-- Block-specific rows of SAMP. -/
def sampRows : List RRow := [
  -- R180 SAMP.STAT
  ⟨0x100, 1, [⟨31, 0, .rc, 0, false⟩, ⟨47, 32, .rc, 0, false⟩, ⟨63, 48, .rc, 0, false⟩]⟩,
  -- R180 SAMP.QUEUE
  ⟨0x108, 1, [⟨4, 0, .ro, 0, false⟩, ⟨5, 5, .ro, 0, false⟩]⟩]

/-- Block-specific rows of DREDGE. -/
def dredgeRows : List RRow := [
  -- R232 DREDGE.CFG
  ⟨0x100, 1, [⟨0, 0, .rw, 1, true⟩, ⟨31, 8, .rw, 6500, true⟩]⟩,
  -- R232 DREDGE.POS
  ⟨0x108, 1, [⟨6, 0, .ro, 0, false⟩, ⟨19, 8, .ro, 0, false⟩, ⟨22, 20, .ro, 0, false⟩,
    ⟨63, 32, .st, 0, false⟩]⟩,
  -- R232 DREDGE.STAT
  ⟨0x110, 1, [⟨15, 0, .rc, 0, false⟩, ⟨31, 16, .rc, 0, false⟩, ⟨47, 32, .rc, 0, false⟩,
    ⟨63, 48, .rc, 0, false⟩]⟩]

/-- Block-specific rows of MARK. -/
def markRows : List RRow := [
  -- R539 MARK.CFG
  ⟨0x100, 1, [⟨0, 0, .rw, 0, false⟩, ⟨1, 1, .rw, 0, false⟩, ⟨2, 2, .w1s, 0, false⟩, ⟨4, 3, .rw, 0, false⟩,
    ⟨31, 8, .rw, 0, false⟩, ⟨39, 32, .rw, 0, false⟩, ⟨40, 40, .rw, 0, false⟩]⟩,
  -- R539 MARK.STAT
  ⟨0x108, 1, [⟨11, 0, .ro, 0, false⟩, ⟨12, 12, .ro, 0, false⟩, ⟨13, 13, .ro, 0, false⟩,
    ⟨47, 32, .rc, 0, false⟩]⟩,
  -- R539 MARK.RD_INDEX
  ⟨0x110, 1, [⟨11, 0, .rw, 0, false⟩]⟩,
  -- R539 MARK.RD_DATA
  ⟨0x118, 4, [⟨63, 0, .ro, 0, false⟩]⟩]

/-- Block-specific rows of FEN. -/
def fenRows : List RRow := [
  -- R60 FEN.MAP
  ⟨0x100, 1, [⟨7, 0, .ro, 0, false⟩, ⟨8, 8, .ro, 0, false⟩, ⟨9, 9, .ro, 0, false⟩, ⟨10, 10, .ro, 0, false⟩,
    ⟨11, 11, .st, 0, true⟩]⟩,
  -- R61 FEN.SLIP
  ⟨0x108, 1, [⟨47, 0, .ro, 0, false⟩, ⟨62, 48, .ro, 0, false⟩]⟩,
  -- R62 FEN.SKIP
  ⟨0x110, 1, [⟨31, 0, .rc, 0, false⟩, ⟨47, 32, .rc, 0, false⟩]⟩,
  -- R86 FEN.CLK_LAG
  ⟨0x118, 1, [⟨31, 0, .ro, 0, false⟩, ⟨47, 32, .ro, 0, false⟩, ⟨48, 48, .ro, 0, false⟩,
    ⟨49, 49, .ro, 0, false⟩]⟩,
  -- R87 FEN.CLK_STAT
  ⟨0x120, 1, [⟨23, 0, .ro, 0, false⟩, ⟨47, 24, .rc, 0, false⟩, ⟨48, 48, .ro, 0, false⟩,
    ⟨49, 49, .ro, 0, false⟩]⟩,
  -- R88 FEN.DROOP_CFG
  ⟨0x128, 1, [⟨7, 0, .rw, 40, true⟩, ⟨11, 8, .rw, 5, true⟩]⟩,
  -- R178 FEN.CMD_STAT
  ⟨0x130, 1, [⟨15, 0, .rc, 0, false⟩, ⟨31, 16, .rc, 0, false⟩, ⟨47, 32, .rc, 0, false⟩]⟩,
  -- R179 FEN.QUEUE
  ⟨0x138, 1, [⟨6, 0, .ro, 0, false⟩, ⟨14, 8, .ro, 0, false⟩, ⟨23, 16, .ro, 0, false⟩,
    ⟨30, 24, .ro, 0, false⟩]⟩,
  -- R203 FEN.PROC_PC
  ⟨0x140, 1, [⟨19, 0, .ro, 0, false⟩, ⟨22, 20, .ro, 0, false⟩, ⟨25, 23, .ro, 0, false⟩]⟩,
  -- R204 FEN.PROC_STAT
  ⟨0x158, 1, [⟨15, 0, .rc, 0, false⟩, ⟨31, 16, .rc, 0, false⟩, ⟨47, 32, .rc, 0, false⟩,
    ⟨55, 48, .rc, 0, false⟩, ⟨63, 56, .rc, 0, false⟩]⟩,
  -- R205 FEN.ICACHE
  ⟨0x160, 1, [⟨31, 0, .rc, 0, false⟩, ⟨47, 32, .rc, 0, false⟩, ⟨50, 48, .st, 0, true⟩,
    ⟨51, 51, .st, 0, true⟩, ⟨52, 52, .ro, 0, false⟩]⟩,
  -- R231 FEN.SLAB_CFG
  ⟨0x168, 1, [⟨15, 0, .rw, 1024, true⟩]⟩,
  -- R231 FEN.SLAB_PORT
  ⟨0x170, 1, [⟨15, 0, .rc, 0, false⟩, ⟨31, 16, .rc, 0, false⟩, ⟨47, 32, .rc, 0, false⟩,
    ⟨63, 48, .rc, 0, false⟩]⟩,
  -- R231 FEN.SLAB_PB
  ⟨0x178, 1, [⟨0, 0, .w1c, 0, false⟩, ⟨1, 1, .w1c, 0, false⟩, ⟨31, 8, .ro, 0, false⟩]⟩,
  -- R231 FEN.SLAB_ECC
  ⟨0x180, 1, [⟨23, 0, .rc, 0, false⟩, ⟨39, 24, .rc, 0, false⟩, ⟨51, 40, .ro, 0, false⟩,
    ⟨63, 52, .ro, 0, false⟩]⟩,
  -- R231 FEN.SLAB_REPAIR
  ⟨0x188, 1, [⟨6, 0, .ro, 0, false⟩, ⟨7, 7, .ro, 0, false⟩, ⟨19, 8, .ro, 0, false⟩,
    ⟨20, 20, .ro, 0, false⟩]⟩,
  -- R231 FEN.SLAB_RMAP
  ⟨0x200, 64, [⟨11, 0, .st, 0, true⟩, ⟨12, 12, .st, 0, true⟩, ⟨13, 13, .st, 0, true⟩]⟩,
  -- R260 FEN.SLUICE
  ⟨0x190, 1, [⟨5, 0, .ro, 0, false⟩, ⟨13, 8, .ro, 0, false⟩, ⟨21, 16, .ro, 0, false⟩,
    ⟨29, 24, .ro, 0, false⟩]⟩,
  -- R260 FEN.SLUICE_STAT
  ⟨0x198, 1, [⟨23, 0, .rc, 0, false⟩, ⟨39, 24, .rc, 0, false⟩, ⟨55, 40, .rc, 0, false⟩,
    ⟨63, 56, .rc, 0, false⟩]⟩,
  -- R325 FEN.MESH
  ⟨0x1A0, 1, [⟨15, 0, .rc, 0, false⟩, ⟨31, 16, .rc, 0, false⟩, ⟨47, 32, .rc, 0, false⟩]⟩,
  -- R203 FEN.PROC_EP
  ⟨0x148, 1, [⟨63, 0, .ro, 0, false⟩]⟩,
  -- R203 FEN.PROC_CT
  ⟨0x150, 1, [⟨63, 0, .ro, 0, false⟩]⟩]

/-- Block-specific rows of ISSYN. -/
def issynRows : List RRow := [
  -- R294 ISSYN.CTRL
  ⟨0x100, 1, [⟨0, 0, .rw, 1, true⟩, ⟨1, 1, .w1s, 0, true⟩, ⟨2, 2, .w1s, 0, true⟩, ⟨3, 3, .rw, 0, true⟩,
    ⟨11, 8, .rw, 3, true⟩, ⟨15, 12, .rw, 2, true⟩, ⟨31, 16, .rw, 1000, true⟩]⟩,
  -- R294 ISSYN.STATUS
  ⟨0x108, 1, [⟨2, 0, .ro, 0, false⟩, ⟨3, 3, .ro, 0, false⟩, ⟨4, 4, .st, 0, false⟩, ⟨5, 5, .ro, 0, false⟩,
    ⟨6, 6, .ro, 0, false⟩, ⟨7, 7, .ro, 0, false⟩, ⟨10, 8, .ro, 0, false⟩]⟩,
  -- R294 ISSYN.PART
  ⟨0x110, 1, [⟨7, 0, .rw, 0, true⟩, ⟨8, 8, .rw, 1, true⟩]⟩,
  -- R295 ISSYN.LANEMAP
  ⟨0x118, 1, [⟨31, 0, .ro, 1985229328, false⟩, ⟨63, 32, .ro, 1985229328, false⟩]⟩,
  -- R295 ISSYN.LANE_CFG
  ⟨0x120, 1, [⟨15, 0, .rw, 4096, true⟩, ⟨24, 16, .ro, 0, true⟩, ⟨33, 25, .ro, 0, true⟩]⟩,
  -- R295 ISSYN.TIMING
  ⟨0x128, 1, [⟨31, 0, .ro, 0, false⟩, ⟨63, 32, .ro, 0, false⟩]⟩,
  -- R295 ISSYN.LATENCY
  ⟨0x130, 1, [⟨15, 0, .ro, 0, false⟩, ⟨31, 16, .ro, 0, false⟩, ⟨63, 32, .ro, 0, false⟩]⟩,
  -- R296 ISSYN.PARTNER
  ⟨0x138, 1, [⟨13, 0, .ro, 0, false⟩, ⟨17, 14, .ro, 0, false⟩, ⟨25, 18, .ro, 0, false⟩,
    ⟨57, 26, .ro, 0, false⟩, ⟨58, 58, .ro, 0, false⟩]⟩,
  -- R296 ISSYN.SEQ
  ⟨0x140, 1, [⟨11, 0, .ro, 0, false⟩, ⟨23, 12, .ro, 0, false⟩, ⟨34, 24, .ro, 0, false⟩,
    ⟨46, 35, .ro, 0, false⟩, ⟨57, 47, .ro, 0, false⟩]⟩,
  -- R296 ISSYN.RX_IDX
  ⟨0x150, 1, [⟨63, 0, .ro, 0, false⟩]⟩,
  -- R296 ISSYN.ERR
  ⟨0x158, 1, [⟨15, 0, .rc, 0, false⟩, ⟨31, 16, .rc, 0, false⟩, ⟨39, 32, .rc, 0, false⟩,
    ⟨47, 40, .rc, 0, false⟩, ⟨55, 48, .rc, 0, false⟩, ⟨63, 56, .rc, 0, false⟩]⟩,
  -- R296 ISSYN.FEC
  ⟨0x160, 1, [⟨31, 0, .rc, 0, false⟩, ⟨47, 32, .rc, 0, false⟩]⟩,
  -- R296 ISSYN.TX_IDX
  ⟨0x148, 1, [⟨63, 0, .ro, 0, false⟩]⟩]

/-- Block-specific rows of SDRAM. -/
def sdramRows : List RRow := [
  -- R261 SDRAM.CFG
  ⟨0x100, 1, [⟨7, 0, .rw, 8, true⟩]⟩,
  -- R261 SDRAM.THERM
  ⟨0x108, 1, [⟨7, 0, .ro, 0, false⟩, ⟨10, 8, .ro, 0, false⟩, ⟨13, 11, .ro, 7, false⟩,
    ⟨14, 14, .ro, 0, false⟩, ⟨15, 15, .ro, 0, false⟩]⟩,
  -- R262 SDRAM.ECC
  ⟨0x110, 1, [⟨23, 0, .rc, 0, false⟩, ⟨39, 24, .rc, 0, false⟩]⟩,
  -- R262 SDRAM.ERR_ADDR
  ⟨0x118, 1, [⟨35, 0, .ro, 0, false⟩]⟩,
  -- R262 SDRAM.PPR
  ⟨0x120, 1, [⟨4, 0, .ro, 0, false⟩, ⟨5, 5, .st, 0, false⟩, ⟨21, 8, .st, 0, false⟩]⟩,
  -- R262 SDRAM.STAT
  ⟨0x128, 1, [⟨31, 0, .rc, 0, false⟩, ⟨47, 32, .rc, 0, false⟩, ⟨63, 48, .rc, 0, false⟩]⟩]

/-- Block-specific rows of PEAT. -/
def peatRows : List RRow := [
  -- R263 PEAT.MOD
  ⟨0x100, 4, [⟨9, 0, .ro, 0, false⟩, ⟨10, 10, .ro, 0, false⟩]⟩,
  -- R263 PEAT.ECC
  ⟨0x120, 1, [⟨23, 0, .rc, 0, false⟩, ⟨39, 24, .rc, 0, false⟩]⟩]

/-- Block-specific rows of BELL. -/
def bellRows : List RRow := [
  -- R119 BELL.CTRL
  ⟨0x100, 1, [⟨0, 0, .rw, 0, false⟩, ⟨1, 1, .rw, 0, false⟩, ⟨2, 2, .ro, 0, false⟩]⟩,
  -- R119 BELL.TB0_NOW
  ⟨0x108, 1, [⟨63, 0, .ro, 0, false⟩]⟩,
  -- R119 BELL.TB0_RATE
  ⟨0x110, 1, [⟨31, 0, .rw, 0, true⟩]⟩,
  -- R119 BELL.TB0_ADJ
  ⟨0x118, 1, [⟨63, 0, .wo, 0, true⟩]⟩,
  -- R119 BELL.HANDOVER_TICK
  ⟨0x128, 1, [⟨63, 0, .ro, 0, false⟩]⟩,
  -- R119 BELL.TB1_COUNT
  ⟨0x140, 1, [⟨63, 0, .ro, 0, false⟩]⟩,
  -- R119 BELL.TB2_COUNT
  ⟨0x180, 1, [⟨63, 0, .ro, 0, false⟩]⟩,
  -- R119 BELL.TB1_FRAC
  ⟨0x148, 1, [⟨15, 0, .ro, 0, false⟩]⟩,
  -- R119 BELL.TB2_FRAC
  ⟨0x188, 1, [⟨15, 0, .ro, 0, false⟩]⟩,
  -- R119 BELL.TB1_SERVE
  ⟨0x158, 1, [⟨15, 0, .rw, 0, true⟩]⟩,
  -- R119 BELL.TB2_SERVE
  ⟨0x198, 1, [⟨15, 0, .rw, 0, true⟩]⟩,
  -- R119 BELL.TB1_OFFSET
  ⟨0x168, 1, [⟨63, 0, .ro, 0, false⟩]⟩,
  -- R119 BELL.TB2_OFFSET
  ⟨0x1A8, 1, [⟨63, 0, .ro, 0, false⟩]⟩,
  -- R119 BELL.TB1_PATH
  ⟨0x170, 1, [⟨31, 0, .ro, 0, false⟩]⟩,
  -- R119 BELL.TB2_PATH
  ⟨0x1B0, 1, [⟨31, 0, .ro, 0, false⟩]⟩,
  -- R119 BELL.TB1_TRIM
  ⟨0x178, 1, [⟨31, 0, .ro, 0, false⟩]⟩,
  -- R119 BELL.TB2_TRIM
  ⟨0x1B8, 1, [⟨31, 0, .ro, 0, false⟩]⟩,
  -- R119 BELL.JUMP
  ⟨0x120, 1, [⟨15, 0, .rw, 500, true⟩, ⟨31, 16, .rw, 20, true⟩, ⟨35, 32, .rw, 4, true⟩]⟩,
  -- R119 BELL.HANDOVER_STAT
  ⟨0x130, 1, [⟨0, 0, .ro, 0, false⟩, ⟨1, 1, .w1c, 0, false⟩, ⟨2, 2, .w1c, 0, false⟩]⟩,
  -- R119 BELL.TB1_CFG
  ⟨0x150, 1, [⟨4, 0, .rw, 31, true⟩, ⟨5, 5, .ro, 0, true⟩, ⟨10, 6, .rw, 20, true⟩, ⟨14, 11, .rw, 2, true⟩,
    ⟨18, 15, .rw, 6, true⟩]⟩,
  -- R119 BELL.TB2_CFG
  ⟨0x190, 1, [⟨4, 0, .rw, 31, true⟩, ⟨5, 5, .rw, 1, true⟩, ⟨10, 6, .rw, 20, true⟩, ⟨14, 11, .rw, 2, true⟩,
    ⟨18, 15, .rw, 6, true⟩]⟩,
  -- R119 BELL.TB1_STATE
  ⟨0x160, 1, [⟨2, 0, .ro, 0, false⟩, ⟨3, 3, .ro, 0, false⟩, ⟨4, 4, .ro, 0, false⟩,
    ⟨15, 8, .ro, 255, false⟩]⟩,
  -- R119 BELL.TB2_STATE
  ⟨0x1A0, 1, [⟨2, 0, .ro, 0, false⟩, ⟨3, 3, .ro, 0, false⟩, ⟨4, 4, .ro, 0, false⟩,
    ⟨15, 8, .ro, 255, false⟩]⟩,
  -- R119 BELL.TB1_COUNTS
  ⟨0x1C0, 1, [⟨15, 0, .rc, 0, false⟩, ⟨31, 16, .rc, 0, false⟩, ⟨47, 32, .rc, 0, false⟩,
    ⟨63, 48, .rc, 0, false⟩]⟩,
  -- R119 BELL.TB2_COUNTS
  ⟨0x1C8, 1, [⟨15, 0, .rc, 0, false⟩, ⟨31, 16, .rc, 0, false⟩, ⟨47, 32, .rc, 0, false⟩,
    ⟨63, 48, .rc, 0, false⟩]⟩]

/-- Block-specific rows of ROLL. -/
def rollRows : List RRow := [
  -- R354 ROLL.CTRL
  ⟨0x100, 1, [⟨0, 0, .rw, 0, false⟩, ⟨15, 8, .rw, 255, false⟩]⟩,
  -- R354 ROLL.EGRESS_BASE
  ⟨0x108, 1, [⟨63, 0, .rw, 0, false⟩]⟩,
  -- R354 ROLL.EGRESS_CFG
  ⟨0x110, 1, [⟨4, 0, .rw, 10, false⟩]⟩,
  -- R354 ROLL.EGRESS_HEAD
  ⟨0x118, 1, [⟨31, 0, .ro, 0, false⟩, ⟨32, 32, .ro, 1, false⟩]⟩,
  -- R354 ROLL.EGRESS_TAIL
  ⟨0x120, 1, [⟨31, 0, .rw, 0, false⟩]⟩,
  -- R354 ROLL.OCC
  ⟨0x128, 1, [⟨14, 0, .ro, 0, false⟩, ⟨26, 16, .ro, 0, false⟩, ⟨46, 32, .ro, 0, false⟩]⟩,
  -- R354 ROLL.STAT
  ⟨0x130, 1, [⟨15, 0, .rc, 0, false⟩, ⟨31, 16, .rc, 0, false⟩, ⟨47, 32, .rc, 0, false⟩,
    ⟨63, 48, .rc, 0, false⟩]⟩,
  -- R354 ROLL.ADAPTER_STAT
  ⟨0x138, 1, [⟨15, 0, .rc, 0, false⟩, ⟨31, 16, .rc, 0, false⟩, ⟨47, 32, .rc, 0, false⟩]⟩,
  -- R374 ROLL.SPEC_CFG
  ⟨0x140, 1, [⟨15, 0, .rw, 8192, false⟩, ⟨31, 16, .rw, 32768, false⟩, ⟨35, 32, .rw, 3, false⟩,
    ⟨38, 36, .rw, 3, false⟩]⟩,
  -- R374 ROLL.SPEC_STAT
  ⟨0x148, 1, [⟨23, 0, .rc, 0, false⟩, ⟨47, 24, .rc, 0, false⟩, ⟨63, 48, .rc, 0, false⟩]⟩]

/-- Block-specific rows of WGT. -/
def wgtRows : List RRow := [
  -- R401 WGT.SET
  ⟨0x100, 4, [⟨2, 0, .ro, 0, false⟩, ⟨3, 3, .ro, 0, false⟩, ⟨7, 4, .ro, 0, false⟩, ⟨63, 32, .ro, 0, false⟩]⟩,
  -- R401 WGT.PROG
  ⟨0x120, 4, [⟨31, 0, .ro, 0, false⟩, ⟨63, 32, .ro, 0, false⟩]⟩,
  -- R401 WGT.MISSING
  ⟨0x140, 1, [⟨31, 0, .ro, 0, false⟩, ⟨63, 32, .ro, 0, false⟩]⟩,
  -- R401 WGT.WPT
  ⟨0x148, 1, [⟨0, 0, .ro, 0, false⟩, ⟨1, 1, .ro, 0, false⟩, ⟨3, 2, .ro, 0, false⟩]⟩,
  -- R401 WGT.SWITCH_TICK
  ⟨0x150, 1, [⟨63, 0, .ro, 0, false⟩]⟩,
  -- R401 WGT.ERR
  ⟨0x158, 1, [⟨15, 0, .rc, 0, false⟩, ⟨31, 16, .rc, 0, false⟩, ⟨47, 32, .rc, 0, false⟩,
    ⟨63, 48, .rc, 0, false⟩]⟩,
  -- R401 WGT.STAGE
  ⟨0x160, 1, [⟨40, 0, .ro, 0, false⟩]⟩,
  -- R401 WGT.KEY
  ⟨0x200, 64, [⟨31, 0, .ro, 0, false⟩, ⟨32, 32, .ro, 0, false⟩, ⟨33, 33, .ro, 0, false⟩]⟩]

/-- Block-specific rows of CARE. -/
def careRows : List RRow := [
  -- R508 CARE.STATUS
  ⟨0x100, 1, [⟨0, 0, .ro, 0, false⟩, ⟨1, 1, .ro, 0, false⟩, ⟨2, 2, .ro, 0, false⟩, ⟨4, 3, .ro, 0, false⟩,
    ⟨5, 5, .ro, 0, false⟩, ⟨6, 6, .ro, 0, false⟩, ⟨22, 16, .ro, 0, false⟩]⟩,
  -- R508 CARE.FW_VER
  ⟨0x108, 1, [⟨31, 0, .ro, 0, false⟩, ⟨63, 32, .ro, 0, false⟩]⟩,
  -- R508 CARE.THERM_CFG
  ⟨0x110, 1, [⟨7, 0, .rw, 95, true⟩, ⟨15, 8, .rw, 100, true⟩, ⟨23, 16, .rw, 90, true⟩]⟩,
  -- R508 CARE.STAT
  ⟨0x118, 1, [⟨15, 0, .rc, 0, false⟩, ⟨31, 16, .rc, 0, false⟩, ⟨47, 32, .rc, 0, false⟩,
    ⟨63, 48, .st, 0, false⟩]⟩]

/-- Block-specific rows of BRSM. -/
def brsmRows : List RRow := [
  -- R519 BRSM.STATUS
  ⟨0x100, 1, [⟨15, 0, .ro, 0, false⟩, ⟨16, 16, .ro, 1, false⟩]⟩,
  -- R519 BRSM.TB3
  ⟨0x108, 1, [⟨63, 0, .ro, 0, false⟩]⟩,
  -- R519 BRSM.MEC
  ⟨0x110, 1, [⟨31, 0, .ro, 0, false⟩]⟩,
  -- R519 BRSM.SEQ
  ⟨0x118, 1, [⟨63, 0, .ro, 0, false⟩]⟩,
  -- R519 BRSM.ENERGY
  ⟨0x120, 1, [⟨63, 0, .ro, 0, false⟩]⟩,
  -- R519 BRSM.POWER
  ⟨0x128, 1, [⟨31, 0, .ro, 0, false⟩]⟩,
  -- R519 BRSM.SELECT
  ⟨0x130, 1, [⟨63, 0, .rw, 0, true⟩]⟩]

/-- The rows of a block type. -/
def Blk.rows : Blk → List RRow
  | .chip => chipRows
  | .pclk => pclkRows
  | .host => hostRows
  | .job => jobRows
  | .dlog => dlogRows
  | .fab => fabRows
  | .sec => secRows
  | .samp => sampRows
  | .dredge => dredgeRows
  | .mark => markRows
  | .fen => fenRows
  | .issyn => issynRows
  | .sdram => sdramRows
  | .peat => peatRows
  | .bell => bellRows
  | .roll => rollRows
  | .wgt => wgtRows
  | .care => careRows
  | .brsm => brsmRows

/-- The row that holds an offset of a normal page, header rows included. -/
def Blk.row? (b : Blk) (off : Nat) : Option RRow :=
  (hdrRows ++ b.rows).find? fun r => decide (r.off ≤ off ∧ off < r.off + 8 * r.n)

/-- Reset value of a row's registers, fuse, flash and strap fields at 0 (they are read live). -/
def RRow.reset (r : RRow) : W64 :=
  r.fields.foldl (fun w f => setBits w f.hi f.lo f.reset) 0#64

/-- Reset value of the register at an offset of a page. -/
def Blk.resetVal (b : Blk) (off : Nat) : W64 :=
  match b.row? off with
  | some r => r.reset
  | none => 0#64

namespace F

/-- R60 `FEN.MAP`.LOGICAL -/
def fenMapLogical : Fld := ⟨.fen, 0x100, 7, 0⟩
/-- R60 `FEN.MAP`.MAPPED -/
def fenMapMapped : Fld := ⟨.fen, 0x100, 8, 8⟩
/-- R60 `FEN.MAP`.SPARE -/
def fenMapSpare : Fld := ⟨.fen, 0x100, 9, 9⟩
/-- R60 `FEN.MAP`.FUSED -/
def fenMapFused : Fld := ⟨.fen, 0x100, 10, 10⟩
/-- R60 `FEN.MAP`.FAILED -/
def fenMapFailed : Fld := ⟨.fen, 0x100, 11, 11⟩
/-- R61 `FEN.SLIP`.STALL_TICKS -/
def fenSlipStallTicks : Fld := ⟨.fen, 0x108, 47, 0⟩
/-- R61 `FEN.SLIP`.MAX_LAG -/
def fenSlipMaxLag : Fld := ⟨.fen, 0x108, 62, 48⟩
/-- R62 `FEN.SKIP`.UNMAPPED -/
def fenSkipUnmapped : Fld := ⟨.fen, 0x110, 31, 0⟩
/-- R62 `FEN.SKIP`.HOLE_FILL -/
def fenSkipHoleFill : Fld := ⟨.fen, 0x110, 47, 32⟩
/-- R86 `FEN.CLK_LAG`.LAG_352 -/
def fenClkLagLag352 : Fld := ⟨.fen, 0x118, 31, 0⟩
/-- R86 `FEN.CLK_LAG`.LAG_16 -/
def fenClkLagLag16 : Fld := ⟨.fen, 0x118, 47, 32⟩
/-- R86 `FEN.CLK_LAG`.CATCHUP -/
def fenClkLagCatchup : Fld := ⟨.fen, 0x118, 48, 48⟩
/-- R86 `FEN.CLK_LAG`.HELD -/
def fenClkLagHeld : Fld := ⟨.fen, 0x118, 49, 49⟩
/-- R87 `FEN.CLK_STAT`.STRETCH_LAG -/
def fenClkStatStretchLag : Fld := ⟨.fen, 0x120, 23, 0⟩
/-- R87 `FEN.CLK_STAT`.STRETCH_EVENTS -/
def fenClkStatStretchEvents : Fld := ⟨.fen, 0x120, 47, 24⟩
/-- R87 `FEN.CLK_STAT`.SLIP_HIGH_ACT -/
def fenClkStatSlipHighAct : Fld := ⟨.fen, 0x120, 48, 48⟩
/-- R87 `FEN.CLK_STAT`.DROOP_HIGH_ACT -/
def fenClkStatDroopHighAct : Fld := ⟨.fen, 0x120, 49, 49⟩
/-- R88 `FEN.DROOP_CFG`.THRESHOLD_MV -/
def fenDroopCfgThresholdMv : Fld := ⟨.fen, 0x128, 7, 0⟩
/-- R88 `FEN.DROOP_CFG`.STEP_MV -/
def fenDroopCfgStepMv : Fld := ⟨.fen, 0x128, 11, 8⟩
/-- R89 `PCLK.PLL_STATUS`.LOCK -/
def pclkPllStatusLock : Fld := ⟨.pclk, 0x100, 0, 0⟩
/-- R89 `PCLK.PLL_STATUS`.REF_LOSS -/
def pclkPllStatusRefLoss : Fld := ⟨.pclk, 0x100, 1, 1⟩
/-- R89 `PCLK.PLL_STATUS`.HOLDOVER -/
def pclkPllStatusHoldover : Fld := ⟨.pclk, 0x100, 2, 2⟩
/-- R89 `PCLK.PLL_STATUS`.REF_PRESENT -/
def pclkPllStatusRefPresent : Fld := ⟨.pclk, 0x100, 3, 3⟩
/-- R89 `PCLK.PLL_STATUS`.REF_LOSS_COUNT -/
def pclkPllStatusRefLossCount : Fld := ⟨.pclk, 0x100, 63, 32⟩
/-- R90 `PCLK.THROTTLE`.RATIO_NOW -/
def pclkThrottleRatioNow : Fld := ⟨.pclk, 0x108, 7, 0⟩
/-- R90 `PCLK.THROTTLE`.RATIO_NEXT -/
def pclkThrottleRatioNext : Fld := ⟨.pclk, 0x108, 15, 8⟩
/-- R90 `PCLK.THROTTLE`.PENDING -/
def pclkThrottlePending : Fld := ⟨.pclk, 0x108, 16, 16⟩
/-- R90 `PCLK.THROTTLE`.REJECTED -/
def pclkThrottleRejected : Fld := ⟨.pclk, 0x108, 17, 17⟩
/-- R91 `PCLK.THROTTLE_TICK`.APPLY_TICK -/
def pclkThrottleTickApplyTick : Fld := ⟨.pclk, 0x110, 63, 0⟩
/-- R119 `BELL.CTRL`.TB0_MODE -/
def bellCtrlTb0Mode : Fld := ⟨.bell, 0x100, 0, 0⟩
/-- R119 `BELL.CTRL`.BELL_OUT_EN -/
def bellCtrlBellOutEn : Fld := ⟨.bell, 0x100, 1, 1⟩
/-- R119 `BELL.CTRL`.DRIVE -/
def bellCtrlDrive : Fld := ⟨.bell, 0x100, 2, 2⟩
/-- R119 `BELL.TB0_NOW`.TB0_NOW -/
def bellTb0Now : Fld := ⟨.bell, 0x108, 63, 0⟩
/-- R119 `BELL.TB0_RATE`.TB0_RATE -/
def bellTb0Rate : Fld := ⟨.bell, 0x110, 31, 0⟩
/-- R119 `BELL.TB0_ADJ`.TB0_ADJ -/
def bellTb0Adj : Fld := ⟨.bell, 0x118, 63, 0⟩
/-- R119 `BELL.HANDOVER_TICK`.HANDOVER_TICK -/
def bellHandoverTick : Fld := ⟨.bell, 0x128, 63, 0⟩
/-- R119 `BELL.TBn_COUNT`.TB1_COUNT -/
def bellTb1Count : Fld := ⟨.bell, 0x140, 63, 0⟩
/-- R119 `BELL.TBn_COUNT`.TB2_COUNT -/
def bellTb2Count : Fld := ⟨.bell, 0x180, 63, 0⟩
/-- R119 `BELL.TBn_FRAC`.TB1_FRAC -/
def bellTb1Frac : Fld := ⟨.bell, 0x148, 15, 0⟩
/-- R119 `BELL.TBn_FRAC`.TB2_FRAC -/
def bellTb2Frac : Fld := ⟨.bell, 0x188, 15, 0⟩
/-- R119 `BELL.TBn_SERVE`.TB1_SERVE -/
def bellTb1Serve : Fld := ⟨.bell, 0x158, 15, 0⟩
/-- R119 `BELL.TBn_SERVE`.TB2_SERVE -/
def bellTb2Serve : Fld := ⟨.bell, 0x198, 15, 0⟩
/-- R119 `BELL.TBn_OFFSET`.TB1_OFFSET -/
def bellTb1Offset : Fld := ⟨.bell, 0x168, 63, 0⟩
/-- R119 `BELL.TBn_OFFSET`.TB2_OFFSET -/
def bellTb2Offset : Fld := ⟨.bell, 0x1A8, 63, 0⟩
/-- R119 `BELL.TBn_PATH`.TB1_PATH -/
def bellTb1Path : Fld := ⟨.bell, 0x170, 31, 0⟩
/-- R119 `BELL.TBn_PATH`.TB2_PATH -/
def bellTb2Path : Fld := ⟨.bell, 0x1B0, 31, 0⟩
/-- R119 `BELL.TBn_TRIM`.TB1_TRIM -/
def bellTb1Trim : Fld := ⟨.bell, 0x178, 31, 0⟩
/-- R119 `BELL.TBn_TRIM`.TB2_TRIM -/
def bellTb2Trim : Fld := ⟨.bell, 0x1B8, 31, 0⟩
/-- R119 `BELL.JUMP`.JUMP_NS -/
def bellJumpJumpNs : Fld := ⟨.bell, 0x120, 15, 0⟩
/-- R119 `BELL.JUMP`.LOCK_NS -/
def bellJumpLockNs : Fld := ⟨.bell, 0x120, 31, 16⟩
/-- R119 `BELL.JUMP`.MISS_LIMIT -/
def bellJumpMissLimit : Fld := ⟨.bell, 0x120, 35, 32⟩
/-- R119 `BELL.HANDOVER_STAT`.ARMED -/
def bellHandoverStatArmed : Fld := ⟨.bell, 0x130, 0, 0⟩
/-- R119 `BELL.HANDOVER_STAT`.DONE -/
def bellHandoverStatDone : Fld := ⟨.bell, 0x130, 1, 1⟩
/-- R119 `BELL.HANDOVER_STAT`.REFUSED -/
def bellHandoverStatRefused : Fld := ⟨.bell, 0x130, 2, 2⟩
/-- R119 `BELL.TBn_CFG`.MASTER_PORT -/
def bellTb1CfgMasterPort : Fld := ⟨.bell, 0x150, 4, 0⟩
/-- R119 `BELL.TBn_CFG`.MASTER_BASE -/
def bellTb1CfgMasterBase : Fld := ⟨.bell, 0x150, 5, 5⟩
/-- R119 `BELL.TBn_CFG`.INTERVAL_LOG2 -/
def bellTb1CfgIntervalLog2 : Fld := ⟨.bell, 0x150, 10, 6⟩
/-- R119 `BELL.TBn_CFG`.KP_SHIFT -/
def bellTb1CfgKpShift : Fld := ⟨.bell, 0x150, 14, 11⟩
/-- R119 `BELL.TBn_CFG`.KI_SHIFT -/
def bellTb1CfgKiShift : Fld := ⟨.bell, 0x150, 18, 15⟩
/-- R119 `BELL.TBn_CFG`.MASTER_PORT -/
def bellTb2CfgMasterPort : Fld := ⟨.bell, 0x190, 4, 0⟩
/-- R119 `BELL.TBn_CFG`.MASTER_BASE -/
def bellTb2CfgMasterBase : Fld := ⟨.bell, 0x190, 5, 5⟩
/-- R119 `BELL.TBn_CFG`.INTERVAL_LOG2 -/
def bellTb2CfgIntervalLog2 : Fld := ⟨.bell, 0x190, 10, 6⟩
/-- R119 `BELL.TBn_CFG`.KP_SHIFT -/
def bellTb2CfgKpShift : Fld := ⟨.bell, 0x190, 14, 11⟩
/-- R119 `BELL.TBn_CFG`.KI_SHIFT -/
def bellTb2CfgKiShift : Fld := ⟨.bell, 0x190, 18, 15⟩
/-- R119 `BELL.TBn_STATE`.STATE -/
def bellTb1StateState : Fld := ⟨.bell, 0x160, 2, 0⟩
/-- R119 `BELL.TBn_STATE`.PHASE_STEPPED -/
def bellTb1StatePhaseStepped : Fld := ⟨.bell, 0x160, 3, 3⟩
/-- R119 `BELL.TBn_STATE`.EVER_LOCKED -/
def bellTb1StateEverLocked : Fld := ⟨.bell, 0x160, 4, 4⟩
/-- R119 `BELL.TBn_STATE`.STEPS_REMOVED -/
def bellTb1StateStepsRemoved : Fld := ⟨.bell, 0x160, 15, 8⟩
/-- R119 `BELL.TBn_STATE`.STATE -/
def bellTb2StateState : Fld := ⟨.bell, 0x1A0, 2, 0⟩
/-- R119 `BELL.TBn_STATE`.PHASE_STEPPED -/
def bellTb2StatePhaseStepped : Fld := ⟨.bell, 0x1A0, 3, 3⟩
/-- R119 `BELL.TBn_STATE`.EVER_LOCKED -/
def bellTb2StateEverLocked : Fld := ⟨.bell, 0x1A0, 4, 4⟩
/-- R119 `BELL.TBn_STATE`.STEPS_REMOVED -/
def bellTb2StateStepsRemoved : Fld := ⟨.bell, 0x1A0, 15, 8⟩
/-- R119 `BELL.TBn_COUNTS`.JUMPS_REFUSED -/
def bellTb1CountsJumpsRefused : Fld := ⟨.bell, 0x1C0, 15, 0⟩
/-- R119 `BELL.TBn_COUNTS`.EXCH_VOID -/
def bellTb1CountsExchVoid : Fld := ⟨.bell, 0x1C0, 31, 16⟩
/-- R119 `BELL.TBn_COUNTS`.RATIO_MISMATCH -/
def bellTb1CountsRatioMismatch : Fld := ⟨.bell, 0x1C0, 47, 32⟩
/-- R119 `BELL.TBn_COUNTS`.MASTER_LOST -/
def bellTb1CountsMasterLost : Fld := ⟨.bell, 0x1C0, 63, 48⟩
/-- R119 `BELL.TBn_COUNTS`.JUMPS_REFUSED -/
def bellTb2CountsJumpsRefused : Fld := ⟨.bell, 0x1C8, 15, 0⟩
/-- R119 `BELL.TBn_COUNTS`.EXCH_VOID -/
def bellTb2CountsExchVoid : Fld := ⟨.bell, 0x1C8, 31, 16⟩
/-- R119 `BELL.TBn_COUNTS`.RATIO_MISMATCH -/
def bellTb2CountsRatioMismatch : Fld := ⟨.bell, 0x1C8, 47, 32⟩
/-- R119 `BELL.TBn_COUNTS`.MASTER_LOST -/
def bellTb2CountsMasterLost : Fld := ⟨.bell, 0x1C8, 63, 48⟩
/-- R178 `FEN.CMD_STAT`.ILLEGAL -/
def fenCmdStatIllegal : Fld := ⟨.fen, 0x130, 15, 0⟩
/-- R178 `FEN.CMD_STAT`.SQUASHED -/
def fenCmdStatSquashed : Fld := ⟨.fen, 0x130, 31, 16⟩
/-- R178 `FEN.CMD_STAT`.EPOCH_DROP -/
def fenCmdStatEpochDrop : Fld := ⟨.fen, 0x130, 47, 32⟩
/-- R179 `FEN.QUEUE`.TE_OCC -/
def fenQueueTeOcc : Fld := ⟨.fen, 0x138, 6, 0⟩
/-- R179 `FEN.QUEUE`.VE_OCC -/
def fenQueueVeOcc : Fld := ⟨.fen, 0x138, 14, 8⟩
/-- R179 `FEN.QUEUE`.SM_OCC -/
def fenQueueSmOcc : Fld := ⟨.fen, 0x138, 23, 16⟩
/-- R179 `FEN.QUEUE`.LX_OCC -/
def fenQueueLxOcc : Fld := ⟨.fen, 0x138, 30, 24⟩
/-- R180 `SAMP.STAT`.DRAWS -/
def sampStatDraws : Fld := ⟨.samp, 0x100, 31, 0⟩
/-- R180 `SAMP.STAT`.NAN_DRAWS -/
def sampStatNanDraws : Fld := ⟨.samp, 0x100, 47, 32⟩
/-- R180 `SAMP.STAT`.MASKED_DRAWS -/
def sampStatMaskedDraws : Fld := ⟨.samp, 0x100, 63, 48⟩
/-- R180 `SAMP.QUEUE`.OCC -/
def sampQueueOcc : Fld := ⟨.samp, 0x108, 4, 0⟩
/-- R180 `SAMP.QUEUE`.BUSY -/
def sampQueueBusy : Fld := ⟨.samp, 0x108, 5, 5⟩
/-- R203 `FEN.PROC_PC`.PC -/
def fenProcPcPc : Fld := ⟨.fen, 0x140, 19, 0⟩
/-- R203 `FEN.PROC_PC`.STATE -/
def fenProcPcState : Fld := ⟨.fen, 0x140, 22, 20⟩
/-- R203 `FEN.PROC_PC`.LDEPTH -/
def fenProcPcLdepth : Fld := ⟨.fen, 0x140, 25, 23⟩
/-- R204 `FEN.PROC_STAT`.ILLEGAL -/
def fenProcStatIllegal : Fld := ⟨.fen, 0x158, 15, 0⟩
/-- R204 `FEN.PROC_STAT`.LATE_PUSH -/
def fenProcStatLatePush : Fld := ⟨.fen, 0x158, 31, 16⟩
/-- R204 `FEN.PROC_STAT`.COVER_HOLD -/
def fenProcStatCoverHold : Fld := ⟨.fen, 0x158, 47, 32⟩
/-- R204 `FEN.PROC_STAT`.PC_RANGE -/
def fenProcStatPcRange : Fld := ⟨.fen, 0x158, 55, 48⟩
/-- R204 `FEN.PROC_STAT`.POISON -/
def fenProcStatPoison : Fld := ⟨.fen, 0x158, 63, 56⟩
/-- R205 `FEN.ICACHE`.MISSES -/
def fenIcacheMisses : Fld := ⟨.fen, 0x160, 31, 0⟩
/-- R205 `FEN.ICACHE`.PARITY -/
def fenIcacheParity : Fld := ⟨.fen, 0x160, 47, 32⟩
/-- R205 `FEN.ICACHE`.RETIRED_WAY -/
def fenIcacheRetiredWay : Fld := ⟨.fen, 0x160, 50, 48⟩
/-- R205 `FEN.ICACHE`.RETIRE -/
def fenIcacheRetire : Fld := ⟨.fen, 0x160, 51, 51⟩
/-- R205 `FEN.ICACHE`.SPARE_IN_USE -/
def fenIcacheSpareInUse : Fld := ⟨.fen, 0x160, 52, 52⟩
/-- R231 `FEN.SLAB_CFG`.PB_MAX_WAIT -/
def fenSlabCfgPbMaxWait : Fld := ⟨.fen, 0x168, 15, 0⟩
/-- R231 `FEN.SLAB_PORT`.PA_INSERT -/
def fenSlabPortPaInsert : Fld := ⟨.fen, 0x170, 15, 0⟩
/-- R231 `FEN.SLAB_PORT`.PB_FORCED -/
def fenSlabPortPbForced : Fld := ⟨.fen, 0x170, 31, 16⟩
/-- R231 `FEN.SLAB_PORT`.PB_DISPLACED -/
def fenSlabPortPbDisplaced : Fld := ⟨.fen, 0x170, 47, 32⟩
/-- R231 `FEN.SLAB_PORT`.PB_BUSY -/
def fenSlabPortPbBusy : Fld := ⟨.fen, 0x170, 63, 48⟩
/-- R231 `FEN.SLAB_PB`.HOST_BUSY -/
def fenSlabPbHostBusy : Fld := ⟨.fen, 0x178, 0, 0⟩
/-- R231 `FEN.SLAB_PB`.HOST_POISON -/
def fenSlabPbHostPoison : Fld := ⟨.fen, 0x178, 1, 1⟩
/-- R231 `FEN.SLAB_PB`.HOST_BUSY_ADDR -/
def fenSlabPbHostBusyAddr : Fld := ⟨.fen, 0x178, 31, 8⟩
/-- R231 `FEN.SLAB_ECC`.CE -/
def fenSlabEccCe : Fld := ⟨.fen, 0x180, 23, 0⟩
/-- R231 `FEN.SLAB_ECC`.UE -/
def fenSlabEccUe : Fld := ⟨.fen, 0x180, 39, 24⟩
/-- R231 `FEN.SLAB_ECC`.LAST_CE_ROW -/
def fenSlabEccLastCeRow : Fld := ⟨.fen, 0x180, 51, 40⟩
/-- R231 `FEN.SLAB_ECC`.LAST_UE_ROW -/
def fenSlabEccLastUeRow : Fld := ⟨.fen, 0x180, 63, 52⟩
/-- R231 `FEN.SLAB_REPAIR`.SPARES_USED -/
def fenSlabRepairSparesUsed : Fld := ⟨.fen, 0x188, 6, 0⟩
/-- R231 `FEN.SLAB_REPAIR`.SPARES_OUT -/
def fenSlabRepairSparesOut : Fld := ⟨.fen, 0x188, 7, 7⟩
/-- R231 `FEN.SLAB_REPAIR`.PRIORITY_ROW -/
def fenSlabRepairPriorityRow : Fld := ⟨.fen, 0x188, 19, 8⟩
/-- R231 `FEN.SLAB_REPAIR`.PRIORITY_VALID -/
def fenSlabRepairPriorityValid : Fld := ⟨.fen, 0x188, 20, 20⟩
/-- R231 `FEN.SLAB_RMAP[s]`.ROW -/
def fenSlabRmapRow : Fld := ⟨.fen, 0x200, 11, 0⟩
/-- R231 `FEN.SLAB_RMAP[s]`.VALID -/
def fenSlabRmapValid : Fld := ⟨.fen, 0x200, 12, 12⟩
/-- R231 `FEN.SLAB_RMAP[s]`.RETIRED -/
def fenSlabRmapRetired : Fld := ⟨.fen, 0x200, 13, 13⟩
/-- R232 `DREDGE.CFG`.ENABLE -/
def dredgeCfgEnable : Fld := ⟨.dredge, 0x100, 0, 0⟩
/-- R232 `DREDGE.CFG`.INTERVAL -/
def dredgeCfgInterval : Fld := ⟨.dredge, 0x100, 31, 8⟩
/-- R232 `DREDGE.POS`.FEN -/
def dredgePosFen : Fld := ⟨.dredge, 0x108, 6, 0⟩
/-- R232 `DREDGE.POS`.REGION -/
def dredgePosRegion : Fld := ⟨.dredge, 0x108, 19, 8⟩
/-- R232 `DREDGE.POS`.PHASE -/
def dredgePosPhase : Fld := ⟨.dredge, 0x108, 22, 20⟩
/-- R232 `DREDGE.POS`.PASSES -/
def dredgePosPasses : Fld := ⟨.dredge, 0x108, 63, 32⟩
/-- R232 `DREDGE.STAT`.ROWS_FAILED -/
def dredgeStatRowsFailed : Fld := ⟨.dredge, 0x110, 15, 0⟩
/-- R232 `DREDGE.STAT`.REPAIRS -/
def dredgeStatRepairs : Fld := ⟨.dredge, 0x110, 31, 16⟩
/-- R232 `DREDGE.STAT`.SPARE_FAILED -/
def dredgeStatSpareFailed : Fld := ⟨.dredge, 0x110, 47, 32⟩
/-- R232 `DREDGE.STAT`.UNREPAIRED -/
def dredgeStatUnrepaired : Fld := ⟨.dredge, 0x110, 63, 48⟩
/-- R260 `FEN.SLUICE`.OCC0 -/
def fenSluiceOcc0 : Fld := ⟨.fen, 0x190, 5, 0⟩
/-- R260 `FEN.SLUICE`.OCC1 -/
def fenSluiceOcc1 : Fld := ⟨.fen, 0x190, 13, 8⟩
/-- R260 `FEN.SLUICE`.OCC2 -/
def fenSluiceOcc2 : Fld := ⟨.fen, 0x190, 21, 16⟩
/-- R260 `FEN.SLUICE`.OCC3 -/
def fenSluiceOcc3 : Fld := ⟨.fen, 0x190, 29, 24⟩
/-- R260 `FEN.SLUICE_STAT`.LATE -/
def fenSluiceStatLate : Fld := ⟨.fen, 0x198, 23, 0⟩
/-- R260 `FEN.SLUICE_STAT`.POISON -/
def fenSluiceStatPoison : Fld := ⟨.fen, 0x198, 39, 24⟩
/-- R260 `FEN.SLUICE_STAT`.DISCARDED -/
def fenSluiceStatDiscarded : Fld := ⟨.fen, 0x198, 55, 40⟩
/-- R260 `FEN.SLUICE_STAT`.UNMAPPED -/
def fenSluiceStatUnmapped : Fld := ⟨.fen, 0x198, 63, 56⟩
/-- R261 `SDRAM.CFG`.PPR_CE_LIMIT -/
def sdramCfgPprCeLimit : Fld := ⟨.sdram, 0x100, 7, 0⟩
/-- R261 `SDRAM.THERM`.TEMP_C -/
def sdramThermTempC : Fld := ⟨.sdram, 0x108, 7, 0⟩
/-- R261 `SDRAM.THERM`.BAND -/
def sdramThermBand : Fld := ⟨.sdram, 0x108, 10, 8⟩
/-- R261 `SDRAM.THERM`.COVER -/
def sdramThermCover : Fld := ⟨.sdram, 0x108, 13, 11⟩
/-- R261 `SDRAM.THERM`.REF_MODE -/
def sdramThermRefMode : Fld := ⟨.sdram, 0x108, 14, 14⟩
/-- R261 `SDRAM.THERM`.DEFICIT -/
def sdramThermDeficit : Fld := ⟨.sdram, 0x108, 15, 15⟩
/-- R262 `SDRAM.ECC`.CE -/
def sdramEccCe : Fld := ⟨.sdram, 0x110, 23, 0⟩
/-- R262 `SDRAM.ECC`.UE -/
def sdramEccUe : Fld := ⟨.sdram, 0x110, 39, 24⟩
/-- R262 `SDRAM.ERR_ADDR`.OFFSET -/
def sdramErrAddrOffset : Fld := ⟨.sdram, 0x118, 35, 0⟩
/-- R262 `SDRAM.PPR`.PENDING -/
def sdramPprPending : Fld := ⟨.sdram, 0x120, 4, 0⟩
/-- R262 `SDRAM.PPR`.SPARES_OUT -/
def sdramPprSparesOut : Fld := ⟨.sdram, 0x120, 5, 5⟩
/-- R262 `SDRAM.PPR`.DONE -/
def sdramPprDone : Fld := ⟨.sdram, 0x120, 21, 8⟩
/-- R262 `SDRAM.STAT`.WIN_HOLD -/
def sdramStatWinHold : Fld := ⟨.sdram, 0x128, 31, 0⟩
/-- R262 `SDRAM.STAT`.RACE -/
def sdramStatRace : Fld := ⟨.sdram, 0x128, 47, 32⟩
/-- R262 `SDRAM.STAT`.DEFICIT_STEPS -/
def sdramStatDeficitSteps : Fld := ⟨.sdram, 0x128, 63, 48⟩
/-- R263 `PEAT.MOD[c]`.CAP_GIB -/
def peatModCapGib : Fld := ⟨.peat, 0x100, 9, 0⟩
/-- R263 `PEAT.MOD[c]`.PRESENT -/
def peatModPresent : Fld := ⟨.peat, 0x100, 10, 10⟩
/-- R263 `PEAT.ECC`.CE -/
def peatEccCe : Fld := ⟨.peat, 0x120, 23, 0⟩
/-- R263 `PEAT.ECC`.UE -/
def peatEccUe : Fld := ⟨.peat, 0x120, 39, 24⟩
/-- R294 `ISSYN.CTRL`.ENABLE -/
def issynCtrlEnable : Fld := ⟨.issyn, 0x100, 0, 0⟩
/-- R294 `ISSYN.CTRL`.TRAIN -/
def issynCtrlTrain : Fld := ⟨.issyn, 0x100, 1, 1⟩
/-- R294 `ISSYN.CTRL`.LANE_RETRY -/
def issynCtrlLaneRetry : Fld := ⟨.issyn, 0x100, 2, 2⟩
/-- R294 `ISSYN.CTRL`.MEDIUM -/
def issynCtrlMedium : Fld := ⟨.issyn, 0x100, 3, 3⟩
/-- R294 `ISSYN.CTRL`.REPLAY_LIMIT -/
def issynCtrlReplayLimit : Fld := ⟨.issyn, 0x100, 11, 8⟩
/-- R294 `ISSYN.CTRL`.RETRAIN_LIMIT -/
def issynCtrlRetrainLimit : Fld := ⟨.issyn, 0x100, 15, 12⟩
/-- R294 `ISSYN.CTRL`.RETRY_MS -/
def issynCtrlRetryMs : Fld := ⟨.issyn, 0x100, 31, 16⟩
/-- R294 `ISSYN.STATUS`.STATE -/
def issynStatusState : Fld := ⟨.issyn, 0x108, 2, 0⟩
/-- R294 `ISSYN.STATUS`.SPARE_USED -/
def issynStatusSpareUsed : Fld := ⟨.issyn, 0x108, 3, 3⟩
/-- R294 `ISSYN.STATUS`.NARROW -/
def issynStatusNarrow : Fld := ⟨.issyn, 0x108, 4, 4⟩
/-- R294 `ISSYN.STATUS`.PARTNER_CHANGED -/
def issynStatusPartnerChanged : Fld := ⟨.issyn, 0x108, 5, 5⟩
/-- R294 `ISSYN.STATUS`.FOREIGN -/
def issynStatusForeign : Fld := ⟨.issyn, 0x108, 6, 6⟩
/-- R294 `ISSYN.STATUS`.BEHIND -/
def issynStatusBehind : Fld := ⟨.issyn, 0x108, 7, 7⟩
/-- R294 `ISSYN.STATUS`.DOWN_CAUSE -/
def issynStatusDownCause : Fld := ⟨.issyn, 0x108, 10, 8⟩
/-- R294 `ISSYN.PART`.PART_ID -/
def issynPartPartId : Fld := ⟨.issyn, 0x110, 7, 0⟩
/-- R294 `ISSYN.PART`.FENCE -/
def issynPartFence : Fld := ⟨.issyn, 0x110, 8, 8⟩
/-- R295 `ISSYN.LANEMAP`.TX_MAP -/
def issynLanemapTxMap : Fld := ⟨.issyn, 0x118, 31, 0⟩
/-- R295 `ISSYN.LANEMAP`.RX_MAP -/
def issynLanemapRxMap : Fld := ⟨.issyn, 0x118, 63, 32⟩
/-- R295 `ISSYN.LANE_CFG`.SER_LIMIT -/
def issynLaneCfgSerLimit : Fld := ⟨.issyn, 0x120, 15, 0⟩
/-- R295 `ISSYN.LANE_CFG`.RX_FAILED -/
def issynLaneCfgRxFailed : Fld := ⟨.issyn, 0x120, 24, 16⟩
/-- R295 `ISSYN.LANE_CFG`.TX_FAILED -/
def issynLaneCfgTxFailed : Fld := ⟨.issyn, 0x120, 33, 25⟩
/-- R295 `ISSYN.TIMING`.TX_CORR -/
def issynTimingTxCorr : Fld := ⟨.issyn, 0x128, 31, 0⟩
/-- R295 `ISSYN.TIMING`.RX_CORR -/
def issynTimingRxCorr : Fld := ⟨.issyn, 0x128, 63, 32⟩
/-- R295 `ISSYN.LATENCY`.LAT_TICKS -/
def issynLatencyLatTicks : Fld := ⟨.issyn, 0x130, 15, 0⟩
/-- R295 `ISSYN.LATENCY`.LOOP_TICKS -/
def issynLatencyLoopTicks : Fld := ⟨.issyn, 0x130, 31, 16⟩
/-- R295 `ISSYN.LATENCY`.PATH -/
def issynLatencyPath : Fld := ⟨.issyn, 0x130, 63, 32⟩
/-- R296 `ISSYN.PARTNER`.ADDR -/
def issynPartnerAddr : Fld := ⟨.issyn, 0x138, 13, 0⟩
/-- R296 `ISSYN.PARTNER`.PORT -/
def issynPartnerPort : Fld := ⟨.issyn, 0x138, 17, 14⟩
/-- R296 `ISSYN.PARTNER`.PART_ID -/
def issynPartnerPartId : Fld := ⟨.issyn, 0x138, 25, 18⟩
/-- R296 `ISSYN.PARTNER`.NONCE -/
def issynPartnerNonce : Fld := ⟨.issyn, 0x138, 57, 26⟩
/-- R296 `ISSYN.PARTNER`.VALID -/
def issynPartnerValid : Fld := ⟨.issyn, 0x138, 58, 58⟩
/-- R296 `ISSYN.SEQ`.TX_NEXT -/
def issynSeqTxNext : Fld := ⟨.issyn, 0x140, 11, 0⟩
/-- R296 `ISSYN.SEQ`.OLDEST -/
def issynSeqOldest : Fld := ⟨.issyn, 0x140, 23, 12⟩
/-- R296 `ISSYN.SEQ`.UNACKED -/
def issynSeqUnacked : Fld := ⟨.issyn, 0x140, 34, 24⟩
/-- R296 `ISSYN.SEQ`.RX_NEXT -/
def issynSeqRxNext : Fld := ⟨.issyn, 0x140, 46, 35⟩
/-- R296 `ISSYN.SEQ`.RX_HELD -/
def issynSeqRxHeld : Fld := ⟨.issyn, 0x140, 57, 47⟩
/-- R296 `ISSYN.RX_IDX`.ORDINAL -/
def issynRxIdxOrdinal : Fld := ⟨.issyn, 0x150, 63, 0⟩
/-- R296 `ISSYN.ERR`.CRC_ERR -/
def issynErrCrcErr : Fld := ⟨.issyn, 0x158, 15, 0⟩
/-- R296 `ISSYN.ERR`.REPLAYS -/
def issynErrReplays : Fld := ⟨.issyn, 0x158, 31, 16⟩
/-- R296 `ISSYN.ERR`.RETRAINS -/
def issynErrRetrains : Fld := ⟨.issyn, 0x158, 39, 32⟩
/-- R296 `ISSYN.ERR`.BAD_FLIT -/
def issynErrBadFlit : Fld := ⟨.issyn, 0x158, 47, 40⟩
/-- R296 `ISSYN.ERR`.FOREIGN_DROP -/
def issynErrForeignDrop : Fld := ⟨.issyn, 0x158, 55, 48⟩
/-- R296 `ISSYN.ERR`.RX_FULL_DROP -/
def issynErrRxFullDrop : Fld := ⟨.issyn, 0x158, 63, 56⟩
/-- R296 `ISSYN.FEC`.CORRECTED -/
def issynFecCorrected : Fld := ⟨.issyn, 0x160, 31, 0⟩
/-- R296 `ISSYN.FEC`.UNCORRECTABLE -/
def issynFecUncorrectable : Fld := ⟨.issyn, 0x160, 47, 32⟩
/-- R325 `FEN.MESH`.DEFER -/
def fenMeshDefer : Fld := ⟨.fen, 0x1A0, 15, 0⟩
/-- R325 `FEN.MESH`.CREDIT_WAIT -/
def fenMeshCreditWait : Fld := ⟨.fen, 0x1A0, 31, 16⟩
/-- R325 `FEN.MESH`.CRC_RETRY -/
def fenMeshCrcRetry : Fld := ⟨.fen, 0x1A0, 47, 32⟩
/-- R326 `FAB.RT_INDEX`.RANK -/
def fabRtIndexRank : Fld := ⟨.fab, 0x100, 13, 0⟩
/-- R326 `FAB.RT_DATA`.ENTRY -/
def fabRtDataEntry : Fld := ⟨.fab, 0x108, 63, 0⟩
/-- R326 `FAB.POS`.RACK -/
def fabPosRack : Fld := ⟨.fab, 0x110, 7, 0⟩
/-- R326 `FAB.POS`.BOARD -/
def fabPosBoard : Fld := ⟨.fab, 0x110, 11, 8⟩
/-- R326 `FAB.POS`.POS -/
def fabPos : Fld := ⟨.fab, 0x110, 13, 12⟩
/-- R326 `FAB.POS`.X -/
def fabPosX : Fld := ⟨.fab, 0x110, 18, 16⟩
/-- R326 `FAB.POS`.Y -/
def fabPosY : Fld := ⟨.fab, 0x110, 21, 19⟩
/-- R326 `FAB.STAT`.TRANSIT -/
def fabStatTransit : Fld := ⟨.fab, 0x118, 31, 0⟩
/-- R326 `FAB.STAT`.NO_ROUTE -/
def fabStatNoRoute : Fld := ⟨.fab, 0x118, 47, 32⟩
/-- R326 `FAB.STAT`.MGMT_DROP -/
def fabStatMgmtDrop : Fld := ⟨.fab, 0x118, 63, 48⟩
/-- R354 `ROLL.CTRL`.EGRESS_EN -/
def rollCtrlEgressEn : Fld := ⟨.roll, 0x100, 0, 0⟩
/-- R354 `ROLL.CTRL`.ADAPTER_VEC -/
def rollCtrlAdapterVec : Fld := ⟨.roll, 0x100, 15, 8⟩
/-- R354 `ROLL.EGRESS_BASE`.EGRESS_BASE -/
def rollEgressBase : Fld := ⟨.roll, 0x108, 63, 0⟩
/-- R354 `ROLL.EGRESS_CFG`.EGRESS_CFG -/
def rollEgressCfg : Fld := ⟨.roll, 0x110, 4, 0⟩
/-- R354 `ROLL.EGRESS_HEAD`.EGRESS_HEAD -/
def rollEgressHead : Fld := ⟨.roll, 0x118, 31, 0⟩
/-- R354 `ROLL.EGRESS_HEAD`.PHASE -/
def rollEgressHeadPhase : Fld := ⟨.roll, 0x118, 32, 32⟩
/-- R354 `ROLL.EGRESS_TAIL`.EGRESS_TAIL -/
def rollEgressTail : Fld := ⟨.roll, 0x120, 31, 0⟩
/-- R354 `ROLL.OCC`.QUEUED -/
def rollOccQueued : Fld := ⟨.roll, 0x128, 14, 0⟩
/-- R354 `ROLL.OCC`.ACTIVE -/
def rollOccActive : Fld := ⟨.roll, 0x128, 26, 16⟩
/-- R354 `ROLL.OCC`.BACKLOG -/
def rollOccBacklog : Fld := ⟨.roll, 0x128, 46, 32⟩
/-- R354 `ROLL.STAT`.REJECTED -/
def rollStatRejected : Fld := ⟨.roll, 0x130, 15, 0⟩
/-- R354 `ROLL.STAT`.FAILED -/
def rollStatFailed : Fld := ⟨.roll, 0x130, 31, 16⟩
/-- R354 `ROLL.STAT`.TTFT_MISS -/
def rollStatTtftMiss : Fld := ⟨.roll, 0x130, 47, 32⟩
/-- R354 `ROLL.STAT`.STRAY -/
def rollStatStray : Fld := ⟨.roll, 0x130, 63, 48⟩
/-- R354 `ROLL.ADAPTER_STAT`.PUTS -/
def rollAdapterStatPuts : Fld := ⟨.roll, 0x138, 15, 0⟩
/-- R354 `ROLL.ADAPTER_STAT`.RELEASES -/
def rollAdapterStatReleases : Fld := ⟨.roll, 0x138, 31, 16⟩
/-- R354 `ROLL.ADAPTER_STAT`.SWITCHES -/
def rollAdapterStatSwitches : Fld := ⟨.roll, 0x138, 47, 32⟩
/-- R374 `ROLL.SPEC_CFG`.GAIN_MIN -/
def rollSpecCfgGainMin : Fld := ⟨.roll, 0x140, 15, 0⟩
/-- R374 `ROLL.SPEC_CFG`.EST_INIT -/
def rollSpecCfgEstInit : Fld := ⟨.roll, 0x140, 31, 16⟩
/-- R374 `ROLL.SPEC_CFG`.SPEC_DEPTH_INIT -/
def rollSpecCfgSpecDepthInit : Fld := ⟨.roll, 0x140, 35, 32⟩
/-- R374 `ROLL.SPEC_CFG`.EST_SHIFT -/
def rollSpecCfgEstShift : Fld := ⟨.roll, 0x140, 38, 36⟩
/-- R374 `ROLL.SPEC_STAT`.RUNS -/
def rollSpecStatRuns : Fld := ⟨.roll, 0x148, 23, 0⟩
/-- R374 `ROLL.SPEC_STAT`.ACCEPTED -/
def rollSpecStatAccepted : Fld := ⟨.roll, 0x148, 47, 24⟩
/-- R374 `ROLL.SPEC_STAT`.EXTRA -/
def rollSpecStatExtra : Fld := ⟨.roll, 0x148, 63, 48⟩
/-- R401 `WGT.SET[n]`.STATE -/
def wgtSetState : Fld := ⟨.wgt, 0x100, 2, 0⟩
/-- R401 `WGT.SET[n]`.FORWARDED -/
def wgtSetForwarded : Fld := ⟨.wgt, 0x100, 3, 3⟩
/-- R401 `WGT.SET[n]`.CAUSE -/
def wgtSetCause : Fld := ⟨.wgt, 0x100, 7, 4⟩
/-- R401 `WGT.SET[n]`.LOAD_ID -/
def wgtSetLoadId : Fld := ⟨.wgt, 0x100, 63, 32⟩
/-- R401 `WGT.PROG[n]`.KEPT_DONE -/
def wgtProgKeptDone : Fld := ⟨.wgt, 0x120, 31, 0⟩
/-- R401 `WGT.PROG[n]`.SHARD_ACKED -/
def wgtProgShardAcked : Fld := ⟨.wgt, 0x120, 63, 32⟩
/-- R401 `WGT.MISSING`.SHARD -/
def wgtMissingShard : Fld := ⟨.wgt, 0x140, 31, 0⟩
/-- R401 `WGT.MISSING`.CHUNK -/
def wgtMissingChunk : Fld := ⟨.wgt, 0x140, 63, 32⟩
/-- R401 `WGT.WPT`.SIDE -/
def wgtWptSide : Fld := ⟨.wgt, 0x148, 0, 0⟩
/-- R401 `WGT.WPT`.PENDING -/
def wgtWptPending : Fld := ⟨.wgt, 0x148, 1, 1⟩
/-- R401 `WGT.WPT`.PENDING_SET -/
def wgtWptPendingSet : Fld := ⟨.wgt, 0x148, 3, 2⟩
/-- R401 `WGT.SWITCH_TICK`.APPLY_TICK -/
def wgtSwitchTickApplyTick : Fld := ⟨.wgt, 0x150, 63, 0⟩
/-- R401 `WGT.ERR`.TAG_FAIL -/
def wgtErrTagFail : Fld := ⟨.wgt, 0x158, 15, 0⟩
/-- R401 `WGT.ERR`.INCOMPLETE -/
def wgtErrIncomplete : Fld := ⟨.wgt, 0x158, 31, 16⟩
/-- R401 `WGT.ERR`.HASH_FAIL -/
def wgtErrHashFail : Fld := ⟨.wgt, 0x158, 47, 32⟩
/-- R401 `WGT.ERR`.RESENDS -/
def wgtErrResends : Fld := ⟨.wgt, 0x158, 63, 48⟩
/-- R401 `WGT.STAGE`.HELD -/
def wgtStageHeld : Fld := ⟨.wgt, 0x160, 40, 0⟩
/-- R401 `WGT.KEY[k]`.KEY_ID -/
def wgtKeyKeyId : Fld := ⟨.wgt, 0x200, 31, 0⟩
/-- R401 `WGT.KEY[k]`.VALID -/
def wgtKeyValid : Fld := ⟨.wgt, 0x200, 32, 32⟩
/-- R401 `WGT.KEY[k]`.BUSY -/
def wgtKeyBusy : Fld := ⟨.wgt, 0x200, 33, 33⟩
/-- R426 `DLOG.HEAD`.INDEX -/
def dlogHeadIndex : Fld := ⟨.dlog, 0x100, 19, 0⟩
/-- R426 `DLOG.HEAD`.WRAPS -/
def dlogHeadWraps : Fld := ⟨.dlog, 0x100, 63, 20⟩
/-- R426 `DLOG.TRACE`.STEP -/
def dlogTraceStep : Fld := ⟨.dlog, 0x108, 47, 0⟩
/-- R426 `DLOG.TRACE`.ARMED -/
def dlogTraceArmed : Fld := ⟨.dlog, 0x108, 48, 48⟩
/-- R426 `DLOG.SHADOW`.ROLE -/
def dlogShadowRole : Fld := ⟨.dlog, 0x110, 1, 0⟩
/-- R426 `DLOG.SHADOW`.PROMOTABLE -/
def dlogShadowPromotable : Fld := ⟨.dlog, 0x110, 2, 2⟩
/-- R426 `DLOG.SHADOW`.BROKEN -/
def dlogShadowBroken : Fld := ⟨.dlog, 0x110, 3, 3⟩
/-- R426 `DLOG.SHADOW`.PORT -/
def dlogShadowPort : Fld := ⟨.dlog, 0x110, 7, 4⟩
/-- R426 `DLOG.SHADOW_CNT`.CLEAN -/
def dlogShadowCntClean : Fld := ⟨.dlog, 0x118, 31, 0⟩
/-- R426 `DLOG.SHADOW_CNT`.MISMATCH -/
def dlogShadowCntMismatch : Fld := ⟨.dlog, 0x118, 47, 32⟩
/-- R426 `DLOG.SHADOW_CNT`.LATE -/
def dlogShadowCntLate : Fld := ⟨.dlog, 0x118, 63, 48⟩
/-- R426 `DLOG.SHADOW_CFG`.CLEAN_TARGET -/
def dlogShadowCfgCleanTarget : Fld := ⟨.dlog, 0x120, 31, 0⟩
/-- R426 `DLOG.STAT`.INCOMPLETE -/
def dlogStatIncomplete : Fld := ⟨.dlog, 0x128, 15, 0⟩
/-- R426 `DLOG.STAT`.DEFECTIVE -/
def dlogStatDefective : Fld := ⟨.dlog, 0x128, 31, 16⟩
/-- R426 `DLOG.STAT`.TRACE_DROP -/
def dlogStatTraceDrop : Fld := ⟨.dlog, 0x128, 47, 32⟩
/-- R449 `HOST.CPL_BASE`.BASE -/
def hostCplBaseBase : Fld := ⟨.host, 0x100, 63, 0⟩
/-- R449 `HOST.CPL_CFG`.SIZE_LOG2 -/
def hostCplCfgSizeLog2 : Fld := ⟨.host, 0x108, 3, 0⟩
/-- R449 `HOST.CPL_CFG`.CPL_VEC -/
def hostCplCfgCplVec : Fld := ⟨.host, 0x108, 15, 8⟩
/-- R449 `HOST.CPL_CFG`.EN -/
def hostCplCfgEn : Fld := ⟨.host, 0x108, 16, 16⟩
/-- R449 `HOST.CPL_HEAD`.INDEX -/
def hostCplHeadIndex : Fld := ⟨.host, 0x110, 31, 0⟩
/-- R449 `HOST.CPL_HEAD`.PHASE -/
def hostCplHeadPhase : Fld := ⟨.host, 0x110, 32, 32⟩
/-- R449 `HOST.CPL_TAIL`.INDEX -/
def hostCplTailIndex : Fld := ⟨.host, 0x118, 31, 0⟩
/-- R449 `HOST.MWIN[w]`.BASE -/
def hostMwinBase : Fld := ⟨.host, 0x120, 43, 0⟩
/-- R449 `HOST.MWIN[w]`.CLASS -/
def hostMwinClass : Fld := ⟨.host, 0x120, 63, 63⟩
/-- R449 `HOST.SLOTS`.BUSY -/
def hostSlotsBusy : Fld := ⟨.host, 0x130, 7, 0⟩
/-- R449 `HOST.STAT`.TAKEN -/
def hostStatTaken : Fld := ⟨.host, 0x138, 23, 0⟩
/-- R449 `HOST.STAT`.REFUSED -/
def hostStatRefused : Fld := ⟨.host, 0x138, 39, 24⟩
/-- R449 `HOST.STAT`.UR -/
def hostStatUr : Fld := ⟨.host, 0x138, 63, 40⟩
/-- R449 `HOST.PATCH`.LEVEL -/
def hostPatchLevel : Fld := ⟨.host, 0x140, 31, 0⟩
/-- R449 `HOST.PATCH`.COUNT -/
def hostPatchCount : Fld := ⟨.host, 0x140, 37, 32⟩
/-- R449 `HOST.PATCH`.REJECTED -/
def hostPatchRejected : Fld := ⟨.host, 0x140, 38, 38⟩
/-- R466 `JOB.STATE`.STATE -/
def jobState : Fld := ⟨.job, 0x100, 2, 0⟩
/-- R466 `JOB.STATE`.TB1_RUN -/
def jobStateTb1Run : Fld := ⟨.job, 0x100, 3, 3⟩
/-- R466 `JOB.ID`.JOB_ID -/
def jobIdJobId : Fld := ⟨.job, 0x108, 63, 0⟩
/-- R466 `JOB.START`.TICK -/
def jobStartTick : Fld := ⟨.job, 0x110, 63, 0⟩
/-- R466 `JOB.GUARD`.GUARD_TICKS -/
def jobGuardGuardTicks : Fld := ⟨.job, 0x118, 31, 0⟩
/-- R466 `JOB.READY0`.DIGEST_LO -/
def jobReady0DigestLo : Fld := ⟨.job, 0x120, 63, 0⟩
/-- R466 `JOB.READY1`.DIGEST_HI -/
def jobReady1DigestHi : Fld := ⟨.job, 0x128, 63, 0⟩
/-- R466 `JOB.STAT`.CANCELLED -/
def jobStatCancelled : Fld := ⟨.job, 0x130, 15, 0⟩
/-- R466 `JOB.STAT`.DUP_ARM -/
def jobStatDupArm : Fld := ⟨.job, 0x130, 31, 16⟩
/-- R466 `JOB.STAT`.ABORTS -/
def jobStatAborts : Fld := ⟨.job, 0x130, 47, 32⟩
/-- R466 `JOB.STAT`.FORWARDED -/
def jobStatForwarded : Fld := ⟨.job, 0x130, 63, 48⟩
/-- R479 `CHIP.STAGE`.STAGE -/
def chipStage : Fld := ⟨.chip, 0x100, 2, 0⟩
/-- R479 `CHIP.STAGE`.SERVICE -/
def chipStageService : Fld := ⟨.chip, 0x100, 4, 3⟩
/-- R479 `CHIP.STAGE`.S3_HELD -/
def chipStageS3Held : Fld := ⟨.chip, 0x100, 5, 5⟩
/-- R479 `CHIP.STAGE`.STACKS_FULL -/
def chipStageStacksFull : Fld := ⟨.chip, 0x100, 15, 8⟩
/-- R479 `CHIP.STAGE`.STAGE_MS -/
def chipStageStageMs : Fld := ⟨.chip, 0x100, 63, 32⟩
/-- R479 `CHIP.RESET`.LAST -/
def chipResetLast : Fld := ⟨.chip, 0x108, 0, 0⟩
/-- R479 `CHIP.RESET`.STRAP_CHANGED -/
def chipResetStrapChanged : Fld := ⟨.chip, 0x108, 1, 1⟩
/-- R479 `CHIP.RESET`.WARM_COUNT -/
def chipResetWarmCount : Fld := ⟨.chip, 0x108, 31, 16⟩
/-- R479 `CHIP.STRAPS`.RACK_ID -/
def chipStrapsRackId : Fld := ⟨.chip, 0x110, 7, 0⟩
/-- R479 `CHIP.STRAPS`.BOARD_ID -/
def chipStrapsBoardId : Fld := ⟨.chip, 0x110, 11, 8⟩
/-- R479 `CHIP.STRAPS`.POS_ID -/
def chipStrapsPosId : Fld := ⟨.chip, 0x110, 13, 12⟩
/-- R479 `CHIP.STRAPS`.BOOT_MODE -/
def chipStrapsBootMode : Fld := ⟨.chip, 0x110, 15, 14⟩
/-- R493 `CHIP.FAULT`.UE -/
def chipFaultUe : Fld := ⟨.chip, 0x118, 0, 0⟩
/-- R493 `CHIP.FAULT`.FEN_HARD -/
def chipFaultFenHard : Fld := ⟨.chip, 0x118, 1, 1⟩
/-- R493 `CHIP.FAULT`.STACK -/
def chipFaultStack : Fld := ⟨.chip, 0x118, 2, 2⟩
/-- R493 `CHIP.FAULT`.PEAT -/
def chipFaultPeat : Fld := ⟨.chip, 0x118, 3, 3⟩
/-- R493 `CHIP.FAULT`.UE_TOTAL -/
def chipFaultUeTotal : Fld := ⟨.chip, 0x118, 63, 32⟩
/-- R493 `CHIP.REPLACE`.FEN_ROW -/
def chipReplaceFenRow : Fld := ⟨.chip, 0x120, 0, 0⟩
/-- R493 `CHIP.REPLACE`.SLAB_ROWS -/
def chipReplaceSlabRows : Fld := ⟨.chip, 0x120, 1, 1⟩
/-- R493 `CHIP.REPLACE`.LANE -/
def chipReplaceLane : Fld := ⟨.chip, 0x120, 2, 2⟩
/-- R493 `CHIP.REPLACE`.PPR -/
def chipReplacePpr : Fld := ⟨.chip, 0x120, 3, 3⟩
/-- R493 `CHIP.REPLACE`.ICACHE -/
def chipReplaceIcache : Fld := ⟨.chip, 0x120, 4, 4⟩
/-- R493 `CHIP.REPLACE`.STACK -/
def chipReplaceStack : Fld := ⟨.chip, 0x120, 5, 5⟩
/-- R493 `CHIP.REPLACE`.PEAT -/
def chipReplacePeat : Fld := ⟨.chip, 0x120, 6, 6⟩
/-- R493 `CHIP.REPLACE`.FEN_HARD -/
def chipReplaceFenHard : Fld := ⟨.chip, 0x120, 7, 7⟩
/-- R508 `CARE.STATUS`.SLOT -/
def careStatusSlot : Fld := ⟨.care, 0x100, 0, 0⟩
/-- R508 `CARE.STATUS`.TRIAL -/
def careStatusTrial : Fld := ⟨.care, 0x100, 1, 1⟩
/-- R508 `CARE.STATUS`.RECOVERY -/
def careStatusRecovery : Fld := ⟨.care, 0x100, 2, 2⟩
/-- R508 `CARE.STATUS`.MG_UP -/
def careStatusMgUp : Fld := ⟨.care, 0x100, 4, 3⟩
/-- R508 `CARE.STATUS`.GUARD_OK -/
def careStatusGuardOk : Fld := ⟨.care, 0x100, 5, 5⟩
/-- R508 `CARE.STATUS`.UPDATE -/
def careStatusUpdate : Fld := ⟨.care, 0x100, 6, 6⟩
/-- R508 `CARE.STATUS`.FUSES -/
def careStatusFuses : Fld := ⟨.care, 0x100, 22, 16⟩
/-- R508 `CARE.FW_VER`.VER_A -/
def careFwVerVerA : Fld := ⟨.care, 0x108, 31, 0⟩
/-- R508 `CARE.FW_VER`.VER_B -/
def careFwVerVerB : Fld := ⟨.care, 0x108, 63, 32⟩
/-- R508 `CARE.THERM_CFG`.WARN_C -/
def careThermCfgWarnC : Fld := ⟨.care, 0x110, 7, 0⟩
/-- R508 `CARE.THERM_CFG`.THROTTLE_C -/
def careThermCfgThrottleC : Fld := ⟨.care, 0x110, 15, 8⟩
/-- R508 `CARE.THERM_CFG`.STACK_WARN_C -/
def careThermCfgStackWarnC : Fld := ⟨.care, 0x110, 23, 16⟩
/-- R508 `CARE.STAT`.MSG_DROPPED -/
def careStatMsgDropped : Fld := ⟨.care, 0x118, 15, 0⟩
/-- R508 `CARE.STAT`.RETRANSMITS -/
def careStatRetransmits : Fld := ⟨.care, 0x118, 31, 16⟩
/-- R508 `CARE.STAT`.LOG_LOST -/
def careStatLogLost : Fld := ⟨.care, 0x118, 47, 32⟩
/-- R508 `CARE.STAT`.RESTARTS -/
def careStatRestarts : Fld := ⟨.care, 0x118, 63, 48⟩
/-- R519 `BRSM.STATUS`.STATUS -/
def brsmStatus : Fld := ⟨.brsm, 0x100, 15, 0⟩
/-- R519 `BRSM.STATUS`.STALE -/
def brsmStatusStale : Fld := ⟨.brsm, 0x100, 16, 16⟩
/-- R519 `BRSM.TB3`.TB3 -/
def brsmTb3 : Fld := ⟨.brsm, 0x108, 63, 0⟩
/-- R519 `BRSM.MEC`.MEC -/
def brsmMec : Fld := ⟨.brsm, 0x110, 31, 0⟩
/-- R519 `BRSM.SEQ`.SEQ -/
def brsmSeq : Fld := ⟨.brsm, 0x118, 63, 0⟩
/-- R519 `BRSM.ENERGY`.E_TOTAL -/
def brsmEnergyETotal : Fld := ⟨.brsm, 0x120, 63, 0⟩
/-- R519 `BRSM.POWER`.MW -/
def brsmPowerMw : Fld := ⟨.brsm, 0x128, 31, 0⟩
/-- R519 `BRSM.SELECT`.SEQ -/
def brsmSelectSeq : Fld := ⟨.brsm, 0x130, 63, 0⟩
/-- R527 `CHIP.PWR`.STATE -/
def chipPwrState : Fld := ⟨.chip, 0x128, 2, 0⟩
/-- R527 `CHIP.PWR`.TARGET -/
def chipPwrTarget : Fld := ⟨.chip, 0x128, 5, 3⟩
/-- R527 `CHIP.PWR`.COMMITTED -/
def chipPwrCommitted : Fld := ⟨.chip, 0x128, 6, 6⟩
/-- R527 `CHIP.PWR`.WAKE_HELD -/
def chipPwrWakeHeld : Fld := ⟨.chip, 0x128, 7, 7⟩
/-- R527 `CHIP.PWR`.LAST_REFUSER -/
def chipPwrLastRefuser : Fld := ⟨.chip, 0x128, 10, 8⟩
/-- R527 `CHIP.PWR`.LAST_ABORT -/
def chipPwrLastAbort : Fld := ⟨.chip, 0x128, 11, 11⟩
/-- R527 `CHIP.PWR`.LAST_TARGET -/
def chipPwrLastTarget : Fld := ⟨.chip, 0x128, 14, 12⟩
/-- R527 `CHIP.PWR`.LAST_DETAIL -/
def chipPwrLastDetail : Fld := ⟨.chip, 0x128, 31, 16⟩
/-- R527 `CHIP.PWR`.LAST_TB0 -/
def chipPwrLastTb0 : Fld := ⟨.chip, 0x128, 63, 32⟩
/-- R527 `CHIP.PWR_REF[r]`.REFUSED -/
def chipPwrRefRefused : Fld := ⟨.chip, 0x130, 31, 0⟩
/-- R527 `CHIP.PWR_REF[r]`.ABORTED -/
def chipPwrRefAborted : Fld := ⟨.chip, 0x130, 63, 32⟩
/-- R539 `MARK.CFG`.EN -/
def markCfgEn : Fld := ⟨.mark, 0x100, 0, 0⟩
/-- R539 `MARK.CFG`.STOP_FULL -/
def markCfgStopFull : Fld := ⟨.mark, 0x100, 1, 1⟩
/-- R539 `MARK.CFG`.RESET -/
def markCfgReset : Fld := ⟨.mark, 0x100, 2, 2⟩
/-- R539 `MARK.CFG`.SOURCE -/
def markCfgSource : Fld := ⟨.mark, 0x100, 4, 3⟩
/-- R539 `MARK.CFG`.INTERVAL -/
def markCfgInterval : Fld := ⟨.mark, 0x100, 31, 8⟩
/-- R539 `MARK.CFG`.FEN -/
def markCfgFen : Fld := ⟨.mark, 0x100, 39, 32⟩
/-- R539 `MARK.CFG`.ONE_FEN -/
def markCfgOneFen : Fld := ⟨.mark, 0x100, 40, 40⟩
/-- R539 `MARK.STAT`.WR_INDEX -/
def markStatWrIndex : Fld := ⟨.mark, 0x108, 11, 0⟩
/-- R539 `MARK.STAT`.FULL -/
def markStatFull : Fld := ⟨.mark, 0x108, 12, 12⟩
/-- R539 `MARK.STAT`.WRAPPED -/
def markStatWrapped : Fld := ⟨.mark, 0x108, 13, 13⟩
/-- R539 `MARK.STAT`.DROPPED -/
def markStatDropped : Fld := ⟨.mark, 0x108, 47, 32⟩
/-- R539 `MARK.RD_INDEX`.INDEX -/
def markRdIndexIndex : Fld := ⟨.mark, 0x110, 11, 0⟩
/-- R539 `MARK.RD_DATA[i]`.DATA -/
def markRdDataData : Fld := ⟨.mark, 0x118, 63, 0⟩
/-- R553 `SEC.STATUS`.ID_VALID -/
def secStatusIdValid : Fld := ⟨.sec, 0x100, 0, 0⟩
/-- R553 `SEC.STATUS`.SESSIONS -/
def secStatusSessions : Fld := ⟨.sec, 0x100, 7, 4⟩
/-- R553 `SEC.STATUS`.REVOKED -/
def secStatusRevoked : Fld := ⟨.sec, 0x100, 15, 8⟩
/-- R553 `SEC.STATUS`.PATCH_FUSES -/
def secStatusPatchFuses : Fld := ⟨.sec, 0x100, 21, 16⟩
/-- R573 `CHIP.IRQ_CFG`.HOST_VEC -/
def chipIrqCfgHostVec : Fld := ⟨.chip, 0x158, 7, 0⟩
/-- R573 `CHIP.IRQ_CFG`.HOST_EN -/
def chipIrqCfgHostEn : Fld := ⟨.chip, 0x158, 8, 8⟩
/-- R573 `CHIP.GRADE`.MESH_W -/
def chipGradeMeshW : Fld := ⟨.chip, 0x160, 7, 0⟩
/-- R573 `CHIP.GRADE`.STACKS -/
def chipGradeStacks : Fld := ⟨.chip, 0x160, 15, 8⟩
/-- R573 `CHIP.GRADE`.ACTIVE_FENS -/
def chipGradeActiveFens : Fld := ⟨.chip, 0x160, 24, 16⟩
/-- R573 `CHIP.GRADE`.GRADE -/
def chipGrade : Fld := ⟨.chip, 0x160, 26, 25⟩
/-- R203 `FEN.PROC_EP`.PROC_EP -/
def fenProcEp : Fld := ⟨.fen, 0x148, 63, 0⟩
/-- R203 `FEN.PROC_CT`.PROC_CT -/
def fenProcCt : Fld := ⟨.fen, 0x150, 63, 0⟩
/-- R296 `ISSYN.TX_IDX`.TX_IDX -/
def issynTxIdx : Fld := ⟨.issyn, 0x148, 63, 0⟩

end F

end Sys2Proof.Machine
end

