-- ==== Sys2Proof/Machine/State.lean ====
section
/-! DEFINITION. The state of the block: the queue of waiting commands, the Bursar, and the package; its value right
after a cold reset; and the reasons a command could stop. -/
namespace Sys2Proof.Machine

open Sys2Proof

/-- Reasons a command stops the block. No meaning raises one: the manual gives every command of the table an effect,
and a command whose condition does not hold leaves the state as it is (safe: the type is empty). -/
inductive Fault where
deriving DecidableEq, Repr

/-- Reasons a command has no meaning in this model. -/
inductive Refusal where
  /-- raised by the dispatch for a row not modelled yet; no row is left so (safe: the block stops) -/
  | notModelled (mnemonic : String)
deriving DecidableEq, Repr

/-- The package: every unit but the Bursar. Units that come in numbers are keyed lists; one that is not listed is in
its state after a cold reset. -/
structure Pkg where
  part : Part
  /-- register fields that have no home of their own, by BAR0 offset of the normal page; unlisted ones hold their
  reset values -/
  regs : AMap W64
  bell : Bell
  fens : AMap Fen
  samps : AMap Samp
  dredges : AMap Dredge
  dram : Dram
  mesh : List MFlit
  ports : AMap Port
  rank : RankTable
  roll : Roll
  dig : Dig
  wgt : Wgt
  host : HostIf
  job : Job
  care : Care
  power : Power
  marks : AMap Mark
  perfPend : List PerfPend
  spdm : Spdm
  /-- the 4,096-entry hardware event queue and the events discarded since (R500) -/
  evq : List Ev
  evLost : Nat
  /-- BRSM.RECORD, and the free-running ns of the last good mirror copy (R519) -/
  brsmRec : List Byte
  mirrorAt : Nat
  /-- the stack in full-rate training (R473) -/
  training : Option Nat
  /-- an IRQ_SUM summary bit is 1, by block index (R565) -/
  irqSum : List Nat
  /-- internal interrupts the Caretaker has received, by block index, oldest first (R82, R565) -/
  careIrq : List Nat
  /-- registers that hardware has written in the present tick, by BAR0 offset: contents as the tick began, and what has been
  set in their fields since (R15) -/
  fresh : AMap (W64 × W64)
  /-- how many free values have been taken -/
  free : Nat
deriving DecidableEq, Repr

/-- The state of the block: commands that wait, first in first out; the Bursar (R510); the package. -/
structure State where
  pending : List Instr
  bursar : Bursar
  pkg : Pkg
deriving DecidableEq, Repr

/-! Units after a cold reset. -/

def FenClk.init : FenClk :=
  { lag := 0, stretchLag := 0, pend := 0, stretched := 0, heldNow := false, catchup := 0, suppress := 0 }

/-- An operand buffer that no TE.LDA or TE.LDB has filled. DESIGN CHOICE (log entry 116): its format is FP8 E4M3. -/
def Tile.init : Tile := { fmt := .e4m3, bytes := [], poison := false }
/-- An empty staging entry (R276). -/
def StagEnt.init : StagEnt :=
  { payTag := false, hdrTag := false, null := false, vc := 0, dest := 0, space := 0, addr := 0, poison := false,
    payload := [], readyAt := 0 }
def Bank.init : Bank := { acc := [], poison := false }
def Te.init : Te :=
  { a0 := .init, a1 := .init, b0 := .init, b1 := .init, acc0 := .init, acc1 := .init }
def VReg.init : VReg := { lanes := [], poison := false }
def VAcc.init : VAcc := { acc := .zero, poison := false }
def Ve.init : Ve := { v := [], a := [] }
def Desc.init : Desc := { base := 0#64, str01 := 0#64, str2 := 0#64, cnt := 0#64, idx := 0#64 }
def ICache.init : ICache :=
  { lines := [], lru := [], pins := [], retired := [], spareInUse := false, want := [], bad := [] }
def ProcCsr.init : ProcCsr :=
  { entry := 0#64, resume := 0#64, startTick := 0#64, stepTicks := 0#64, selfFen := 0#64, selfRank := 0#64,
    dramBase := 0#64, peatBase := 0#64, adapterBase := 0#64 }
def Proctor.init : Proctor :=
  { g := [], pc := 0, tb := 0#64, ep := 0#64, ct := 0#64, loops := [], desc := [], csr := .init, st := .idle,
    ready := 0, waitB := none, held := none, unpushed := [], code := [], initPc := 0, icache := .init }
def Slab.init : Slab :=
  { mem := [], raw := [], stuck := [], pb := [], resp := [], lastGrant := .scrub, scrubQ := [] }

/-- A fen after a cold reset (R469, R476). -/
def Fen.init : Fen :=
  { clk := .init, proc := .init, te := .init, ve := .init, slab := .init, slu := [], qTe := [], qVe := [], qSm := [],
    qLx := [], lastStart := [], flights := [], pa := 0, wrote := [], zeroTill := 0, zeroing := false, hard := false,
    localOut := 0, localVc := 0, localSide := 0, deferStep := 0 }

def Samp.init : Samp := { queue := [], lastStart := 0, run := none, mem := [], bad := [] }

/-- Dredge after a cold reset: region 0 of the die's first clocked fen (R230, R476). -/
def Dredge.init : Dredge :=
  { nextFen := 0, nextRegion := 0, fen := 0, region := 0, phase := 0, row := 0, restoreTo := 0, done := 0, save := [],
    redirect := [], failed := false, lastStart := 0, started := false }

def Stack.init : Stack :=
  { up := true, banks := [], refresh := [], ceCount := [], repairList := [], sparesUsed := [], selfRefresh := false }
def Dram.init : Dram := { stackList := [], mem := [], raw := [], peat := [], peatBad := [], queue := [], returns := [], out := [], nextEnt := 0 }

/-- A port after a cold reset: ENABLE is 1, so the port waits in DOWN for its first training (R286, R294). -/
def Port.init : Port :=
  { state := .off, since := 0, sinceNs := 0, stag := [], ordTx := 0, nextSeq := 0, replay := [], replayRun := 0, ordRx := 0,
    rx := [], gaps := [], nakDue := [], lastSlot := 0, pendBell := [], pendLane := [], pendIdent := 0, pendMgmt := [],
    pendPing := [], wire := [], retrainFails := 0, paths := [], pings := [], partner := none, lastIdent := none,
    changes := [], retest := [], transit := [], lastData := none, nonce := 0 }

/-- A tick base after a cold reset (R112). -/
def TBase.init : TBase :=
  { count := 0, frac := 0, trim := 0, integ := 0, state := .free, phaseStepped := false, everLocked := false,
    steps := 255, gm := 0, prevO := 0, lockN := 0, acqN := 0, offset := 0, path := 0, lastUse := 0, slave := none,
    masters := [] }
def Bell.init : Bell :=
  { raw := 0, off0 := 0, anchor := 0, tb1 := .init, tb2 := .init, handoverTick := none, throttle := none }

def REntry.init : REntry :=
  { state := 0, cls := 0, noAdapter := false, specEn := false, adChanged := false, ttftMiss := false, atRisk := false,
    cancel := false, cause := 0, msix := 0, slot := 0xFFFF, hostTag := 0, adapter := 0, gen := 0, seed := 0, sampling := [],
    promptAddr := 0, promptLen := 0, maxNew := 0, committed := 0, prov := 0, kvPages := 0, stops := [], ttft := 0,
    tbt := 0, arrival := 0, deadline := 0, firstTick := 0, lastTick := 0, firstNs := 0, lastNs := 0, estTbt := 0,
    tbtMiss := 0, tokensOut := 0, acceptNo := 0, depth := 0, runDepth := 0, accEst := 0, runs := 0, proposed := 0,
    accepted := 0, posted := false }
def BSlot.init : BSlot := { state := 0, entry := 0, drain := 0, new := false, adChanged := false }
def AdSlot.init : AdSlot := { st := 0, gen := 0, addr := 0, len := 0, ref := 0 }
def AdEnt.init : AdEnt := { retired := false, s0 := .init, s1 := .init }
def Roll.init : Roll :=
  { entries := [], upset := [], promised := [], slots := [], recs := [], inbound := [], adapters := [], copies := [],
    changes := [], backlog := [], lastSeq := [], acceptNo := 0, intake := [], script := [], lastStep := 0, batch := 0 }
def DigStep.init : DigStep :=
  { plain := [], slotted := [], mask := [], defect := none, incomplete := false, poison := false, poisonSlots := [],
    points := 0, traces := [], hasSlotted := [] }
def Dig.init : Dig :=
  { open_ := [], steps := [], prov := [], role := 0, port := 0, beginStep := 0, pendingRole := 0, tutor := [],
    own := [], valid := [], traceUsed := 0, halted := false,
    reports := [] }
def WSet.init : WSet :=
  { state := 0, loadId := 0, wrank := 0, manifest := [], up := 0, down := 0, dramDest := 0, peatDest := 0,
    stageAddr := 0, stageBytes := 0, held := [], store := [], checked := [], acked := [], fails := [], out := [],
    lastAuth := 0, forwarded := false, cause := 0, cmd := 0 }
def Wgt.init : Wgt :=
  { sets := [], keys := [], asm_ := [], ready := [], frames := [], frameSeq := [], sideA := [], sideB := [], side := 0,
    pending := none }
def HostIf.init : HostIf :=
  { mem := [], slotMem := [], lastSeq := [], nextNo := 0, taken := [], running := [], cplQ := [], careCpl := [],
    msix := [], msixTab := [], resp := [], linkGen := 0, linkWidth := 0, d3hot := false, patchLevel := 0,
    patchCount := 0 }
def Job.init : Job :=
  { state := 0, image := none, cur := none, next := none, start := 0, ready := [], disarmReq := false, arming := none,
    starts := [] }
def FwSlot.init : FwSlot := { image := [], factory := true, version := 1, rollback := 0, trial := false }
def Flash.init : Flash :=
  { slotA := .init, slotB := { FwSlot.init with version := 0, factory := false }, prefer := 0, log := [], failed := [],
    rmap := [], ways := [], replace := 0, bundle := [], cert := none }
def Care.init : Care :=
  { flash := .init, log := [], nextSeq := 0, pageSince := 0, cmdQ := [], tags := [], unacked := [], out := [],
    nextTag := 0, lastMsg := 0, everMsg := false, sensors := [], snapshot := [], lastSnap := 0,
    droopSince := [], coolSince := none, lastReq := none, asked := false, trialStart := 0,
    trialRestarts := 0, rejected := false, outQ := [] }
def Mark.init : Mark := { countdown := 0, sample := 0, written := 0, recs := [], open_ := [], lastRec := none }
def Conn.init : Conn := { version := 0, phase := 0, vca := [], certs := [], meas := [] }
def Spdm.init : Spdm := { conns := [], sessions := [], resp := [], certOk := false, cdi := [] }

/-- Power after the power-good edge: RUN, every enable driven and every power-good high (R520, R586). -/
def Power.init : Power :=
  { state := 0, target := 0, committed := false, wakeHeld := false, cmd := none, en := 15, pg := 15, rising := true,
    wakeAfter := false, latchTrip := none, latchPg := none,
    latchSeq := none, tripPin := false, vaux := true }

/-- The part and board position the model starts from: TCH-MD256-384-L-B0, spare column 8 in every row, eight 256 GiB
modules, position 0, no fuse blown. DESIGN CHOICE (log entry 2): fuses differ from part to part. -/
def Part.init : Part :=
  { grade := 0, b0 := true, serial := 0, spare := [], fused := [], modules := [], rackId := 0, boardId := 0,
    posId := 0, bootMode := 0, fwFuses := 0, patchFuses := 0, revoked := 0, keyHash := [], uds := [], certHash := [] }

/-- The package right after a cold reset on that part. -/
def Pkg.init : Pkg :=
  { part := .init, regs := [], bell := .init, fens := [], samps := [], dredges := [], dram := .init, mesh := [],
    ports := [], rank := [], roll := .init, dig := .init, wgt := .init, host := .init, job := .init, care := .init,
    power := .init, marks := [], perfPend := [], spdm := .init, evq := [], evLost := 0, brsmRec := [], mirrorAt := 0,
    training := none, irqSum := [], careIrq := [], fresh := [], free := 0 }

/-- A Bursar as manufactured: counters and records empty, no calibration slot used, sealed (R514, R515, R518). -/
def Bursar.init : Bursar :=
  { powered := true, tb3 := 0, ticks := 0, mec := 0, ring := [], nextSeq := 0, prev := List.replicate 32 0#8,
    parts := [], total := 0, since := 0, part := 256, energy := 0, tagInvalid := false, overRange := false, sense := false,
    binAt := 0, bin := 0, binPart := none, binOver := false, residue := 0, faults := [], sealOpen := false,
    calData := List.replicate 96 0#8, staged := List.replicate 96 0#8, calFuses := [], select := 0, mw := 0 }

/-- The block right after reset: a package at the power-good edge of a cold reset (R468), a Bursar as manufactured,
no command waiting. -/
def State.reset : State := { pending := [], bursar := .init, pkg := .init }

end Sys2Proof.Machine
end

