-- ==== Sys2Proof/Machine/Regs.lean ====
section
/-! DEFINITION. Access to the units and register fields of the package, TB0 and the tick counts, the common error log
(R492), interrupt summary and MSI-X (R565), performance counters (R529 to R532). Every other file reads and writes
registers through these operations. -/
namespace Sys2Proof.Machine

open Sys2Proof

/-- Every enable is driven and every power-good is high; otherwise the package is dark (R520, R586 to R588). -/
def Pkg.on (p : Pkg) : Bool := decide (p.power.en = 15) && decide (p.power.pg = 15)
/-- What reaches a dark package has no effect. -/
def Pkg.run (f : Pkg → Pkg) (p : Pkg) : Pkg := if p.on then f p else p
/-- A command that acts on the package alone; the Bursar and the queue are out of its reach (R510). -/
def onPkg (f : Pkg → Pkg) (s : State) : Host.Outcome State Fault Refusal := .next { s with pkg := s.pkg.run f }

/-! Units. -/

def Pkg.fen (p : Pkg) (i : Nat) : Fen := p.fens.getD i .init
def Pkg.setFen (p : Pkg) (i : Nat) (f : Fen) : Pkg := { p with fens := AMap.set Fen.init p.fens i f }
def Pkg.updFen (p : Pkg) (i : Nat) (g : Fen → Fen) : Pkg := p.setFen i (g (p.fen i))
def Pkg.samp (p : Pkg) (d : Nat) : Samp := p.samps.getD d .init
def Pkg.setSamp (p : Pkg) (d : Nat) (x : Samp) : Pkg := { p with samps := AMap.set Samp.init p.samps d x }
def Pkg.dredge (p : Pkg) (d : Nat) : Dredge := p.dredges.getD d .init
def Pkg.setDredge (p : Pkg) (d : Nat) (x : Dredge) : Pkg :=
  { p with dredges := AMap.set Dredge.init p.dredges d x }
def Pkg.port (p : Pkg) (i : Nat) : Port := p.ports.getD i .init
def Pkg.setPort (p : Pkg) (i : Nat) (x : Port) : Pkg := { p with ports := AMap.set Port.init p.ports i x }
def Pkg.updPort (p : Pkg) (i : Nat) (g : Port → Port) : Pkg := p.setPort i (g (p.port i))
def Pkg.stack (p : Pkg) (i : Nat) : Stack := p.dram.stackList.getD i .init
def Pkg.setStack (p : Pkg) (i : Nat) (x : Stack) : Pkg :=
  { p with dram := { p.dram with stackList := AMap.set Stack.init p.dram.stackList i x } }
def Pkg.mark (p : Pkg) (d : Nat) : Mark := p.marks.getD d .init
def Pkg.setMark (p : Pkg) (d : Nat) (x : Mark) : Pkg := { p with marks := AMap.set Mark.init p.marks d x }

/-! Register storage. -/

/-- The stored register at an offset of a block's normal page; an unlisted one holds its reset value. -/
def Pkg.reg (p : Pkg) (b : Blk) (i off : Nat) : W64 := p.regs.getD (b.base i + off) (b.resetVal off)
def Pkg.setReg (p : Pkg) (b : Blk) (i off : Nat) (w : W64) : Pkg :=
  { p with regs := AMap.set (b.resetVal off) p.regs (b.base i + off) w }

/-- A register as the present tick began, and what hardware has set in it since (R15). -/
def Pkg.freshOf (p : Pkg) (b : Blk) (i off : Nat) : W64 × W64 := (p.fresh.find? (b.base i + off)).getD (p.reg b i off, 0#64)
/-- Hardware sets bits [hi:lo] of a register, or adds to them, in the present tick. -/
def Pkg.noteSet (p : Pkg) (b : Blk) (i off hi lo v : Nat) : Pkg :=
  let x := p.freshOf b i off
  { p with fresh := AMap.put p.fresh (b.base i + off) (x.1, setBits x.2 hi lo v) }
def Pkg.noteAdd (p : Pkg) (b : Blk) (i off hi lo n : Nat) : Pkg :=
  p.noteSet b i off hi lo (satAdd (hi + 1 - lo) (bits (p.freshOf b i off).2 hi lo) n)

/-- A field of instance `i`, and its write by hardware. -/
def Pkg.fget (p : Pkg) (f : Fld) (i : Nat) : Nat := bits (p.reg f.blk i f.off) f.hi f.lo
def Pkg.fset (p : Pkg) (f : Fld) (i v : Nat) : Pkg :=
  (p.noteSet f.blk i f.off f.hi f.lo v).setReg f.blk i f.off (setBits (p.reg f.blk i f.off) f.hi f.lo v)
def Pkg.fon (p : Pkg) (f : Fld) (i : Nat) : Bool := decide (p.fget f i = 1)

/-- A saturating count in a field. -/
def Pkg.fadd (p : Pkg) (f : Fld) (i n : Nat) : Pkg :=
  if n = 0 then p
  else (p.noteAdd f.blk i f.off f.hi f.lo n).setReg f.blk i f.off
    (setBits (p.reg f.blk i f.off) f.hi f.lo (satAdd (f.hi + 1 - f.lo) (p.fget f i) n))

/-! Fen map (R25 to R29, R60). -/

/-- Mesh width W of the grade (R27). -/
def Pkg.meshW (p : Pkg) : Nat := if p.part.grade = 0 then 16 else if p.part.grade = 1 then 14 else 12

/-- Stack `s` is fitted (R21). -/
def Pkg.fitted (p : Pkg) (s : Nat) : Bool := decide (s < 8) && (decide (p.part.grade ≠ 2) || (s != 5 && s != 7))

/-- Number of fitted stacks (R1). -/
def Pkg.stackCount (p : Pkg) : Nat := if p.part.grade = 2 then 6 else 8

/-- Columns of a die row fused off (R26); a part lists them, and a grade that fuses none has none. -/
def Pkg.fusedCols (p : Pkg) (row : Nat) : List Nat := p.part.fused.getD row []

/-- A physical fen is fused off: it never receives a clock (R26). -/
def Pkg.fused (p : Pkg) (i : Nat) : Bool := (p.fusedCols (i / 9)).contains (i % 9)

/-- A physical fen is its row's spare (R26). -/
def Pkg.spareFen (p : Pkg) (i : Nat) : Bool := decide (p.part.spare.getD (i / 9) 8 = i % 9)

/-- A fen marked failed (R60). -/
def Pkg.failedFen (p : Pkg) (i : Nat) : Bool := p.fon F.fenMapFailed i

/-- A usable fen: neither fused nor marked failed (R29). -/
def Pkg.usable (p : Pkg) (i : Nat) : Bool := decide (i < 288) && !p.fused i && !p.failedFen i

/-- The fen's clock runs: not fused, and not gated by a power state (R520). -/
def Pkg.clocked (p : Pkg) (i : Nat) : Bool := !p.fused i && decide (p.power.state = 0)

/-- Physical fen that holds a logical fen, by FEN.MAP (R60). -/
def Pkg.physOf (p : Pkg) (l : Nat) : Option Nat :=
  (List.range 288).find? fun i =>
    (p.regs.find? (Blk.base .fen i + 0x100)).isSome && p.fon F.fenMapMapped i && decide (p.fget F.fenMapLogical i = l)

/-- Logical fen that a physical fen holds (R60). -/
def Pkg.logOf (p : Pkg) (i : Nat) : Option Nat :=
  if p.fon F.fenMapMapped i then some (p.fget F.fenMapLogical i) else none

/-- Die row (die * 8 + row) and column within the row of a logical fen (R27). -/
def Pkg.rowOf (p : Pkg) (l : Nat) : Nat × Nat :=
  let w := p.meshW
  let r := l / w
  let c := l % w
  let d := (if r < 8 then 0 else 2) + (if c < w / 2 then 0 else 1)
  (d * 8 + r % 8, c % (w / 2))

/-- The physical fen of a logical fen under R29, on the fens usable now. -/
def Pkg.mapFen (p : Pkg) (l : Nat) : Option Nat :=
  let (row, k) := p.rowOf l
  if l < 16 * p.meshW then
    (((List.range 9).map (fun c => row * 9 + c)).filter p.usable)[k]?
  else none

/-! Time. -/

/-- Whether the package runs at the reduced-service rate (R472). -/
def Pkg.reduced (p : Pkg) : Bool := decide (p.fget F.chipStageService 0 ≤ 1)

/-- Throttle ratio in force (R79). -/
def Pkg.ratio (p : Pkg) : Nat := p.fget F.pclkThrottleRatioNow 0

/-- Tick period as a fraction of ns: 20/21 ns at the nominal rate (R9, R79, R472). -/
def Pkg.periodNum (p : Pkg) : Nat := 20 * (64 + p.ratio) * (if p.reduced then 2 else 1)
def periodDen : Nat := 21 * 64

/-- TB0 in 2^-32 ns under R95, R96. -/
def Pkg.tb0Raw (p : Pkg) : Int :=
  if p.fon F.bellCtrlTb0Mode 0 then (p.bell.raw : Int)
  else
    let d : Int := (p.bell.raw : Int) - (p.bell.anchor : Int)
    let rate := sx 32 (p.fget F.bellTb0Rate 0)
    (p.bell.raw : Int) + p.bell.off0 + (d * rate) / (2 ^ 40 : Nat)

/-- The TB0 reading in ns, 64 bits (R94, R119). -/
def Pkg.tb0 (p : Pkg) : Nat := wrapNat 64 (p.tb0Raw / ((2 ^ 32 : Nat) : Int))

/-- TB0 in ms, for intervals that chapters state in ms. -/
def nsPerMs : Nat := 1000000

/-- The reference bell count: the driving base's (R63, R97). -/
def Pkg.drive (p : Pkg) : Bool := p.fon F.bellCtrlDrive 0
def Pkg.refCount (p : Pkg) : Nat := if p.drive then p.bell.tb2.count else p.bell.tb1.count

/-- TB1 count. -/
def Pkg.tb1 (p : Pkg) : Nat := p.bell.tb1.count

/-- Local bell count of a fen: the reference count less the lag, rounded up to ticks (R65, R66). -/
def Pkg.local_ (p : Pkg) (i : Nat) : Nat := p.refCount - cdiv (p.fen i).clk.lag 352

/-- A plan runs on TB1 (JOB.STATE.TB1_RUN, R451). -/
def Pkg.tb1Run (p : Pkg) : Bool := p.fon F.jobStateTb1Run 0

/-- A plan runs on this package, on TB1 or as a pupil on TB2. -/
def Pkg.planRuns (p : Pkg) : Bool := p.tb1Run || p.drive
/-- The plan whose state JOB.STATE reports (R451): the next plan until the handover; a pupil's stays in state 4 as it runs
(R422). -/
def Pkg.statePlan (p : Pkg) : Option PlanInst :=
  if 6 ≤ p.job.state || (p.drive && p.job.next.isNone) then p.job.cur else p.job.next

/-- The contract of the running plan is LC2 (R44, R45). -/
def Pkg.lc2 (p : Pkg) : Bool :=
  match p.job.cur with
  | some c => decide (c.img.contract = 2)
  | none => false

/-- A plan is armed on TB2, or runs on it (R110, R452). -/
def Pkg.armedTb2 (p : Pkg) : Bool :=
  p.drive || (match p.job.next with | some n => n.arm.isSome | none => false)

/-- Physical address of this package from the straps in force (R311). -/
def Pkg.phys (p : Pkg) : Nat :=
  p.fget F.chipStrapsRackId 0 * 64 + p.fget F.chipStrapsBoardId 0 * 4 + p.fget F.chipStrapsPosId 0

/-! Interrupts. -/

/-- The Caretaker is interrupted for a block (R82, R565). -/
def Pkg.careInt (p : Pkg) (b : Blk) (i : Nat) : Pkg := { p with careIrq := p.careIrq ++ [b.base i / 0x4000] }

/-- A free value: one that the manual leaves open (see Config). -/
def Pkg.tick (p : Pkg) : Pkg := { p with free := p.free + 1 }

/-- Raise an MSI-X vector; 0xFF names none, and there are 64 (R343, R439, R565). -/
def Pkg.raise (p : Pkg) (v : Nat) : Pkg :=
  if 64 ≤ v then p else { p with host := { p.host with msix := p.host.msix ++ [v] } }

/-- Recompute a block's summary bit after a change of INT_RAW or INT_EN (R564, R565). -/
def Pkg.irqUpdate (p : Pkg) (b : Blk) (i : Nat) : Pkg :=
  let idx := b.base i / 0x4000
  let pend := decide ((p.reg b i 0x020 &&& p.reg b i 0x028) ≠ 0#64)
  let had := p.irqSum.contains idx
  if pend && !had then
    let p := { p with irqSum := idx :: p.irqSum, careIrq := p.careIrq ++ [idx] }
    if bit (p.reg b i 0x010) 0 && p.fon F.chipIrqCfgHostEn 0 then p.raise (p.fget F.chipIrqCfgHostVec 0) else p
  else if !pend && had then { p with irqSum := p.irqSum.filter (fun x => x ≠ idx) }
  else p

/-- Set a bit of INT_RAW. -/
def Pkg.intRaw (p : Pkg) (b : Blk) (i k : Nat) : Pkg :=
  ((p.noteSet b i 0x020 k k 1).setReg b i 0x020 (p.reg b i 0x020 ||| BitVec.ofNat 64 (2 ^ k))).irqUpdate b i

/-! Performance counters. -/

/-- Attribution of an event (R532): privilege bit 12 plan, 13 host, 14 Caretaker; master bit 15 Proctor, 16 engine,
17 host, 18 Dredge, 19 Caretaker; address. -/
structure Attr where
  priv : Nat
  master : Nat
  addr : Nat
deriving DecidableEq, Repr

/-- The filters of R532 on a control word. -/
def perfPass (ctl : W64) (code : Nat) (a : Option Attr) : Bool :=
  decide (bits ctl 11 0 = code) && decide (code ≠ 0) && bit ctl 20 &&
  match a with
  | none => !bit ctl 23
  | some a =>
    bit ctl a.priv && bit ctl a.master &&
    (!bit ctl 23 ||
      (let g := a.addr >>> bits ctl 29 24
       decide (bits ctl 45 30 ≤ g) && decide (g ≤ bits ctl 61 46)))

/-- Counter n adds what the event and the chain bring (R530, R531); `carry`: counter n - 1 wrapped. -/
def Pkg.perfAt (b : Blk) (i code add : Nat) (a : Option Attr) (s : Pkg × Bool) (n : Nat) : Pkg × Bool :=
  let p := s.1
  let ctl := p.reg b i (0x0C0 + 8 * n)
  let chained := decide (n ≠ 0) && bit (p.reg b i (0x0C0 + 8 * (n - 1))) 21 && bit ctl 20
  let k := if chained then b2n s.2 else if perfPass ctl code a then add else 0
  if k = 0 then (p, false)
  else
    let c := bits (p.reg b i (0x080 + 8 * n)) 47 0 + k
    let p := p.setReg b i (0x080 + 8 * n) (BitVec.ofNat 64 (c % 2 ^ 48))
    if c < 2 ^ 48 then (p, false)
    else
      let p := p.setReg b i (0x0C0 + 8 * n) (ctl ||| BitVec.ofNat 64 (2 ^ 62))
      (if bit ctl 22 then p.intRaw b i (16 + n) else p, true)

/-- Some counter control of the page has been written. -/
def Pkg.hasPerf (p : Pkg) (b : Blk) (i : Nat) : Bool :=
  (List.range 8).any fun n => (p.regs.find? (b.base i + 0x0C0 + 8 * n)).isSome

/-- An event occurs `add` times at a block (R530); CTRL.PERF_FREEZE stops the page's counters (R563). -/
def Pkg.perf (p : Pkg) (b : Blk) (i code add : Nat) (a : Option Attr) : Pkg :=
  if add = 0 || !p.hasPerf b i || bit (p.reg b i 0x010) 1 then p
  else ((List.range 8).foldl (Pkg.perfAt b i code add a) (p, false)).1

/-- Attribution of a plan's engines and of its Proctor (R532). -/
def engine (addr : Nat) : Option Attr := some ⟨12, 16, addr⟩
def proctorAttr (addr : Nat) : Option Attr := some ⟨12, 15, addr⟩

/-! The common error log. -/

/-- Enter an event into the hardware queue of R500. -/
def Pkg.queueEv (p : Pkg) (e : Ev) : Pkg :=
  if 4096 ≤ p.evq.length then { p with evLost := p.evLost + 1 }.fadd F.careStatLogLost 0 1
  else { p with evq := p.evq ++ [{ e with lost := decide (p.evLost ≠ 0) }], evLost := 0 }

/-- Log an event at a block (R492, R500): ERR_COUNT, ERR_FIRST, ERR_LAST, INT_RAW.ANY and the event's own bit. -/
def Pkg.log (p : Pkg) (b : Blk) (i code time info : Nat) (intBit : Option Nat) : Pkg :=
  let w : W64 := BitVec.ofNat 64 (code % 2 ^ 12 + info % 2 ^ 20 * 2 ^ 12 + time % 2 ^ 32 * 2 ^ 32)
  let c := bits (p.reg b i 0x038) 31 0
  let p := if bits (p.freshOf b i 0x038).2 31 0 = 0 then p.noteSet b i 0x040 63 0 w.toNat else p
  let p := (p.noteAdd b i 0x038 31 0 1).setReg b i 0x038 (BitVec.ofNat 64 (satAdd 32 c 1))
  let p := if c = 0 then p.setReg b i 0x040 w else p
  let p := p.setReg b i 0x048 w
  let p := p.intRaw b i 0
  let p := match intBit with | some k => p.intRaw b i k | none => p
  let p := p.perf b i 0x002 1 none
  p.queueEv { time := time, block := b.base i / 0x4000, code := code, info := info % 2 ^ 20, irq := intBit.isSome, lost := false }

/-- Log at a fen with its local tick, and with the TB1 count (R264). -/
def Pkg.logFen1 (p : Pkg) (f code info : Nat) (k : Option Nat) : Pkg := p.log .fen f code p.tb1 info k
/-- Log at a fen with its local tick. -/
def Pkg.logFen (p : Pkg) (f code info : Nat) (k : Option Nat) : Pkg := p.log .fen f code (p.local_ f) info k
/-- Log with the TB0 reading, and with the TB1 count. -/
def Pkg.log0 (p : Pkg) (b : Blk) (i code info : Nat) (k : Option Nat) : Pkg := p.log b i code p.tb0 info k
def Pkg.log1 (p : Pkg) (b : Blk) (i code info : Nat) (k : Option Nat) : Pkg := p.log b i code p.tb1 info k

/-- Set a cause bit of CHIP.FAULT (R485, R493, R494). -/
def Pkg.fault (p : Pkg) (f : Fld) : Pkg :=
  if p.fon f 0 then p else (p.fset f 0 1).intRaw .chip 0 8

/-- An uncorrectable error was logged (R493). -/
def Pkg.ue (p : Pkg) : Pkg := (p.fault F.chipFaultUe).fadd F.chipFaultUeTotal 0 1

/-- Set bit `n` of CHIP.REPLACE, logging a new bit (R490, R493). -/
def Pkg.replace (p : Pkg) (n : Nat) : Pkg :=
  let w := p.reg .chip 0 0x120
  if bit w n then p
  else (p.setReg .chip 0 0x120 (w ||| BitVec.ofNat 64 (2 ^ n))).log0 .chip 0 0x0113 n (some 9)

/-- Usable fens of a die row; fewer than W/2 of them is the replacement condition FEN_ROW (R489). -/
def Pkg.rowUsable (p : Pkg) (row : Nat) : Nat :=
  (((List.range 9).map (fun c => row * 9 + c)).filter p.usable).length

/-- Mark a fen failed (R60), with the condition of R489. -/
def Pkg.markFailed (p : Pkg) (i : Nat) : Pkg :=
  let p := p.fset F.fenMapFailed i 1
  if p.rowUsable (i / 9) < p.meshW / 2 then p.replace 0 else p

/-- FAULT_N and REPLACE_N are asserted (R485, R490). -/
def Pkg.faultN (p : Pkg) : Bool := decide (nbits (p.reg .chip 0 0x118).toNat 3 0 ≠ 0)
def Pkg.replaceN (p : Pkg) : Bool := decide ((p.reg .chip 0 0x120).toNat ≠ 0)

end Sys2Proof.Machine
end

