-- ==== Sys2Proof/Machine/Clock.lean ====
section
/-! DEFINITION. Fen clocks and the package clock: droop, slip, hard failure of a fen, reference loss, throttle
(chapter 03, R486, R487). -/
namespace Sys2Proof.Machine

open Sys2Proof

/-- The engines, queues, sluices and Proctor of a fen emptied; its slab, cache and clock stay (R469, R487). -/
def Fen.emptied (f : Fen) : Fen :=
  { f with te := .init, ve := .init, slu := [], qTe := [], qVe := [], qSm := [], qLx := [], lastStart := [],
           flights := [], pa := 0, wrote := [], zeroTill := 0, zeroing := false, localOut := 0,
           proc := { f.proc with st := .idle, held := none, waitB := none, loops := [], unpushed := [] } }

/-- FEN_HARD (R486, R487, R489): logged with INFO 0 for a link and 1 for a clock; the Caretaker marks the fen failed;
under a plan the fen loses its state and starts no further command. -/
def Pkg.fenHard (p : Pkg) (i info : Nat) : Pkg :=
  let p := p.logFen i 0x0110 info (some 10)
  let p := p.fault F.chipFaultFenHard
  let p := p.replace 7
  let p := p.markFailed i
  if p.planRuns then p.updFen i fun f => { f.emptied with hard := true } else p

/-- FEN_CLOCK_UNLOCK (R486). A fused fen has no clock to lose. -/
def fenClockUnlock (f : Nat) (p : Pkg) : Pkg := if p.fused f then p else p.fenHard f 1
def execFenClockUnlock (f : Fin 288) (s : State) : Host.Outcome State Fault Refusal := onPkg (fenClockUnlock f) s

/-- Threshold in mV (R88). -/
def Pkg.droopThreshold (p : Pkg) (f : Nat) : Nat := max 0x10 (p.fget F.fenDroopCfgThresholdMv f)
/-- Sixteenths of stretch for a droop beyond the threshold (R68, R88). -/
def Pkg.droopK (p : Pkg) (f mv : Nat) : Nat :=
  let st := max 1 (p.fget F.fenDroopCfgStepMv f)
  min 8 (1 + (mv - p.droopThreshold f) / st)

/-- The stretch that the present period has so far, taken into the lag or not. -/
def FenClk.stretch (c : FenClk) : Nat := max c.stretched c.pend

/-- At a reference edge the stretch decided since the last one enters the lag; a stretched period recovers none
(R66, R68). -/
def FenClk.takeStretch (c : FenClk) : FenClk :=
  if c.pend = 0 then c
  else { c with lag := c.lag + (c.stretch - c.stretched), stretchLag := c.stretchLag + (c.stretch - c.stretched),
                stretched := c.stretch, pend := 0, catchup := 0 }

/-- DROOP_STRETCH (R66, R68, R87): the current period is stretched by k sixteenths; the lag is taken at its end. A further
droop in the same period stretches it to the larger k (DEDUCED, log entry 121): the period counts once. -/
def droopStretch (f mv : Nat) (p : Pkg) : Pkg :=
  if p.fused f || decide (mv ≤ p.droopThreshold f) then p
  else
    let k := p.droopK f mv
    let had := (p.fen f).clk.stretch
    let p := p.updFen f fun x => { x with clk := { x.clk with pend := max x.clk.stretch (22 * k) } }
    let p := p.fadd F.fenClkStatStretchEvents f (b2n (decide (had = 0)))
    let p := p.perf .fen f 0x102 (b2n (decide (had = 0))) none
    p.perf .fen f 0x103 (k - had / 22) none
def execDroopStretch (f : Fin 288) (mv : Nat) (s : State) : Host.Outcome State Fault Refusal :=
  onPkg (droopStretch f mv) s

/-- SLIP_HIGH (R76). -/
def slipHigh (f : Nat) (p : Pkg) : Pkg :=
  if 22528 < (p.fen f).clk.lag && !p.fon F.fenClkStatSlipHighAct f then
    (p.logFen f 0x0040 0 (some 8)).fset F.fenClkStatSlipHighAct f 1
  else p
def execSlipHigh (f : Fin 288) (s : State) : Host.Outcome State Fault Refusal := onPkg (slipHigh f) s

/-- DROOP_HIGH (R77). -/
def droopHigh (f : Nat) (p : Pkg) : Pkg :=
  if 1408 < (p.fen f).clk.stretchLag && !p.fon F.fenClkStatDroopHighAct f then
    let p := (p.logFen f 0x0041 0 (some 9)).fset F.fenClkStatDroopHighAct f 1
    { p with care := { p.care with droopSince := AMap.put p.care.droopSince f (p.bell.raw / 2 ^ 32) } }
  else p
def execDroopHigh (f : Fin 288) (s : State) : Host.Outcome State Fault Refusal := onPkg (droopHigh f) s

/-- DROOP_HIGH is re-armed: STRETCH_LAG is back at zero (R77). -/
def Pkg.rearmDroop (p : Pkg) (f : Nat) : Pkg :=
  let p := p.fset F.fenClkStatDroopHighAct f 0
  { p with care := { p.care with droopSince := AMap.erase p.care.droopSince f } }

/-- LAG_CLEARED (R76, R77). -/
def lagCleared (f : Nat) (p : Pkg) : Pkg :=
  if (p.fen f).clk.lag = 0 then (p.fset F.fenClkStatSlipHighAct f 0).rearmDroop f else p
def execLagCleared (f : Fin 288) (s : State) : Host.Outcome State Fault Refusal := onPkg (lagCleared f) s

/-- MAX_LAG (R61, R69). -/
def Pkg.noteLag (p : Pkg) (f : Nat) : Pkg :=
  let t := min 0x7FFF ((p.fen f).clk.lag / 352)
  if p.fget F.fenSlipMaxLag f < t then p.fset F.fenSlipMaxLag f t else p

/-- `n` ticks of interlock stall (R47, R61). -/
def Pkg.stall (p : Pkg) (f n : Nat) : Pkg := (p.fadd F.fenSlipStallTicks f n).perf .fen f 0x101 n none

/-! Reference loss. -/

/-- REF_LOSS (R82). DESIGN CHOICE (log entry 111): a loss declared while the PLL is in HOLDOVER already, as in the 10 ms of
R83, neither counts nor logs again. -/
def refLoss (p : Pkg) : Pkg :=
  if p.fon F.pclkPllStatusHoldover 0 then p
  else
    let p := p.fset F.pclkPllStatusRefLoss 0 1
    let p := p.fset F.pclkPllStatusHoldover 0 1
    let p := p.fset F.pclkPllStatusRefPresent 0 0
    let p := p.fadd F.pclkPllStatusRefLossCount 0 1
    let p := { p with bell := { p.bell with frozen := some (if p.drive then p.bell.tb2.trim else p.bell.tb1.trim) } }
    (p.log1 .pclk 0 0x0042 0 none).careInt .pclk 0
def execRefLoss (s : State) : Host.Outcome State Fault Refusal := onPkg refLoss s

/-- REF_RESTORED (R83): REF_LOSS stays set. -/
def refRestored (p : Pkg) : Pkg :=
  if p.fon F.pclkPllStatusHoldover 0 then
    let p := p.fset F.pclkPllStatusHoldover 0 0
    let p := p.fset F.pclkPllStatusRefPresent 0 1
    let p := { p with bell := { p.bell with frozen := none } }
    p.log1 .pclk 0 0x0043 0 none
  else p
def execRefRestored (s : State) : Host.Outcome State Fault Refusal := onPkg refRestored s

/-! Throttle (R79 to R81, R90 to R92). -/

/-- STEP_TICKS of the plan on TB1. -/
def Pkg.stepTicks (p : Pkg) : Nat := match p.job.cur with | some c => c.img.stepTicks | none => 0

/-- The apply tick lies on a step boundary of the plan on TB1 (R80). -/
def Pkg.onBoundary (p : Pkg) (t : Nat) : Bool :=
  let st := p.stepTicks
  decide (st ≠ 0) && decide (t % st = p.job.start % st)

/-- A write of PCLK.THROTTLE_TICK (R80, R422: a pupil's plan is timed by TB2): arms the change with the ratio as it stands, applies it at once without a
job and with tick 0, or is rejected and leaves an armed change as it was. -/
def throttleTickWrite (v : W64) (p : Pkg) : Pkg :=
  let t := v.toNat
  let r := p.fget F.pclkThrottleRatioNext 0
  let p := p.fset F.pclkThrottleTickApplyTick 0 t
  if p.planRuns then
    if r ≤ 64 && p.onBoundary t && decide (p.refCount + 1050000 ≤ t) then
      { p with bell := { p.bell with throttle := some (r, t) } }
    else (p.fset F.pclkThrottleRejected 0 1).log1 .pclk 0 0x0045 0 none
  else if r ≤ 64 && decide (t = 0) then
    ({ p with bell := { p.bell with throttle := none } }.fset F.pclkThrottleRatioNow 0 r).log1 .pclk 0 0x0044 0 none
  else (p.fset F.pclkThrottleRejected 0 1).log1 .pclk 0 0x0045 0 none
def execThrottleTickWrite (v : W64) (s : State) : Host.Outcome State Fault Refusal := onPkg (throttleTickWrite v) s

/-- THROTTLE_APPLIED (R80, R113): at the apply tick by the count that drives the plan. -/
def throttleApplied (p : Pkg) : Pkg :=
  match p.bell.throttle with
  | some (r, t) =>
    if t ≤ p.refCount then
      ({ p with bell := { p.bell with throttle := none } }.fset F.pclkThrottleRatioNow 0 r).log1 .pclk 0 0x0044 0 none
    else p
  | none => p
def execThrottleApplied (s : State) : Host.Outcome State Fault Refusal := onPkg throttleApplied s

/-- An armed change is cancelled when its plan ends or TB1 is handed over (R92). -/
def Pkg.cancelThrottle (p : Pkg) : Pkg :=
  match p.bell.throttle with
  | some _ => ({ p with bell := { p.bell with throttle := none } }).log1 .pclk 0 0x0046 0 none
  | none => p

end Sys2Proof.Machine
end

