-- ==== Sys2Proof/Machine/Bell.lean ====
section
/-! DEFINITION. The Bell: TB0 writes, the exchange and the servo, hold, master change, rebase (chapter 04). A base is
named by a Bool: false TB1, true TB2. -/
namespace Sys2Proof.Machine

open Sys2Proof

def Pkg.tb (p : Pkg) (b : Bool) : TBase := if b then p.bell.tb2 else p.bell.tb1
def Pkg.setTb (p : Pkg) (b : Bool) (x : TBase) : Pkg :=
  { p with bell := if b then { p.bell with tb2 := x } else { p.bell with tb1 := x } }

/-- Register fields of a base (R119). -/
def masterPortF (b : Bool) : Fld := if b then F.bellTb2CfgMasterPort else F.bellTb1CfgMasterPort
def masterBaseF (b : Bool) : Fld := if b then F.bellTb2CfgMasterBase else F.bellTb1CfgMasterBase
def intervalF (b : Bool) : Fld := if b then F.bellTb2CfgIntervalLog2 else F.bellTb1CfgIntervalLog2
def kpF (b : Bool) : Fld := if b then F.bellTb2CfgKpShift else F.bellTb1CfgKpShift
def kiF (b : Bool) : Fld := if b then F.bellTb2CfgKiShift else F.bellTb1CfgKiShift
def serveF (b : Bool) : Fld := if b then F.bellTb2Serve else F.bellTb1Serve
def jumpsF (b : Bool) : Fld := if b then F.bellTb2CountsJumpsRefused else F.bellTb1CountsJumpsRefused
def voidF (b : Bool) : Fld := if b then F.bellTb2CountsExchVoid else F.bellTb1CountsExchVoid
def mismatchF (b : Bool) : Fld := if b then F.bellTb2CountsRatioMismatch else F.bellTb1CountsRatioMismatch
def lostF (b : Bool) : Fld := if b then F.bellTb2CountsMasterLost else F.bellTb1CountsMasterLost

/-- The master of a base: an Issyn port, SELF or NONE (R119). -/
inductive Master where
  | port (n : Nat) | self | none
deriving DecidableEq, Repr
def Pkg.master (p : Pkg) (b : Bool) : Master :=
  let v := p.fget (masterPortF b) 0
  if v < 16 then .port v else if v = 16 then .self else .none

/-- SYNC interval exponent, clamped to 12 to 24 (R119). -/
def Pkg.interval (p : Pkg) (b : Bool) : Nat := min 24 (max 12 (p.fget (intervalF b) 0))

/-! TB0. -/

/-- A write of BELL.TB0_RATE (R96): re-anchors without a step; the Caretaker alone. -/
def tb0RateWrite (care : Bool) (v : W64) (p : Pkg) : Pkg :=
  if care then
    let d : Int := (p.bell.raw : Int) - (p.bell.anchor : Int)
    let acc := (d * sx 32 (p.fget F.bellTb0Rate 0)) / ((2 ^ 40 : Nat) : Int)
    let p := { p with bell := { p.bell with off0 := p.bell.off0 + acc, anchor := p.bell.raw } }
    p.fset F.bellTb0Rate 0 v.toNat
  else p
def execTb0RateWrite (care : Bool) (v : W64) (s : State) : Host.Outcome State Fault Refusal :=
  onPkg (tb0RateWrite care v) s

/-- A write of BELL.TB0_ADJ (R96): the signed ns are added to OFFSET. -/
def tb0AdjWrite (care : Bool) (v : W64) (p : Pkg) : Pkg :=
  if care then { p with bell := { p.bell with off0 := p.bell.off0 + sx 64 v.toNat * ((2 ^ 32 : Nat) : Int) } } else p
def execTb0AdjWrite (care : Bool) (v : W64) (s : State) : Host.Outcome State Fault Refusal :=
  onPkg (tb0AdjWrite care v) s

/-! Servo (R104). -/

def s64 (i : Int) : Int := sx 64 (wrapNat 64 i)
def trimMax : Int := 219902325
def clampTrim (i : Int) : Int := max (-trimMax) (min trimMax i)
/-- Arithmetic shift right (R18). -/
def asr (i : Int) (k : Nat) : Int := i / ((2 ^ k : Nat) : Int)

structure ServoCfg where
  interval : Nat
  kp : Nat
  ki : Nat
  jumpNs : Nat
  lockNs : Nat
  /-- tick period, ns, as a fraction -/
  pn : Nat
  pd : Nat

def Pkg.servoCfg (p : Pkg) (b : Bool) : ServoCfg :=
  { interval := p.interval b, kp := p.fget (kpF b) 0, ki := p.fget (kiF b) 0,
    jumpNs := max 1 (p.fget F.bellJumpJumpNs 0), lockNs := p.fget F.bellJumpLockNs 0,
    pn := p.periodNum, pd := periodDen }

/-- abs(o) * P / 65536 exceeds `ns`, compared without rounding. -/
def ServoCfg.beyond (c : ServoCfg) (o : Int) (ns : Nat) : Bool :=
  decide (ns * 65536 * c.pd < o.natAbs * c.pn)

/-- A base's count moved by `o` in 2^-16 tick. -/
def TBase.move (x : TBase) (o : Int) : TBase :=
  let t : Int := (x.count : Int) * ((2 ^ 40 : Nat) : Int) + (x.frac : Int) + o * ((2 ^ 24 : Nat) : Int)
  let n := wrapNat 104 t
  { x with count := n / 2 ^ 40, frac := n % 2 ^ 40 }

/-- The end of the servo update: integ, TRIM and prev_o in the state entered. -/
def servoEnd (c : ServoCfg) (x : TBase) (new : BState) (o e f : Int) : TBase :=
  let i1 := if new = .acquire then clampTrim (x.integ + f) else x.integ
  if new = .freqOnly then
    let i2 := clampTrim (i1 + asr f c.kp)
    { x with state := new, integ := i2, trim := i2, prevO := o }
  else
    let i2 := clampTrim (i1 + asr e c.ki)
    { x with state := new, integ := i2, trim := clampTrim (i2 + asr e c.kp), prevO := o }

/-- The update at an exchange the base uses, with the event it logs (R104): 0x50 and 0x51, 0x57 by code. -/
def servo (c : ServoCfg) (x : TBase) (o : Int) : TBase × List Nat :=
  let e := s64 (asr (o * ((2 ^ 24 : Nat) : Int)) c.interval)
  let f := s64 (asr ((o - x.prevO) * ((2 ^ 24 : Nat) : Int)) c.interval)
  let x := if x.state = .free then { x with state := .acquire, phaseStepped := false } else x
  if x.state = .acquire && !x.phaseStepped then
    ({ (x.move o) with phaseStepped := true, prevO := 0, lockN := 0, acqN := 0 }, [])
  else if (x.state = .locked || x.state = .freqOnly || x.state = .hold) && c.beyond o c.jumpNs then
    let ev := if x.state = .freqOnly then [] else [0x0050]
    if x.state = .freqOnly then (servoEnd c x .freqOnly o e f, ev)
    else ({ x with state := .freqOnly, prevO := o }, ev)
  else if x.state = .freqOnly then ({ x with state := .locked, prevO := o }, [])
  else if x.state = .hold then (servoEnd c x .locked o e f, [])
  else if x.state = .acquire then
    let x := { x with acqN := x.acqN + 1, lockN := if c.beyond o c.lockNs then 0 else x.lockN + 1 }
    let ev := if x.acqN = 4096 then [0x0057] else []
    if x.lockN = 8 then (servoEnd c { x with everLocked := true } .locked o e f, ev ++ [0x0051])
    else (servoEnd c x .acquire o e f, ev)
  else (servoEnd c x x.state o e f, [])

/-- Log the servo's events (R107, R120). -/
def Pkg.servoLog (p : Pkg) (b : Bool) (evs : List Nat) : Pkg :=
  evs.foldl (fun p c =>
    if c = 0x0050 then (p.log1 .bell 0 c 0 (some 8)).fadd (jumpsF b) 0 1 else p.log1 .bell 0 c 0 none) p

/-! The exchange (R99 to R103). -/

/-- N / P as a fraction (R99). -/
def Pkg.npNum (_ : Pkg) : Nat := 64
def Pkg.npDen (p : Pkg) : Nat := (64 + p.ratio) * (if p.reduced then 2 else 1)

/-- A correction in nominal ticks scaled to ticks of the period in force, rounded to nearest at 2^-16 (R99). -/
def Pkg.scaleCorr (p : Pkg) (c : Nat) : Nat := (2 * c * p.npNum + p.npDen) / (2 * p.npDen)

/-- Reading of a base at the link layer, in 2^-16 tick; `phase` is where in the tick the boundary passes. -/
def Pkg.reading (p : Pkg) (b : Bool) (phase : Nat) : Int :=
  let x := p.tb b
  (x.count : Int) * 65536 + (((x.frac / 2 ^ 24) : Nat) : Int) + ((phase % 65536 : Nat) : Int)

def Pkg.stampTx (p : Pkg) (port : Nat) (b : Bool) (phase : Nat) : Int :=
  p.reading b phase + ((p.scaleCorr (p.fget F.issynTimingTxCorr port) : Nat) : Int)
def Pkg.stampRx (p : Pkg) (port : Nat) (b : Bool) (phase : Nat) : Int :=
  p.reading b phase - ((p.scaleCorr (p.fget F.issynTimingRxCorr port) : Nat) : Int)

/-- STEPS_REMOVED and the grandmaster that a base announces (R101). -/
def Pkg.tbSteps (p : Pkg) (b : Bool) : Nat := if (p.tb b).state = .self then 0 else (p.tb b).steps
def Pkg.tbGm (p : Pkg) (b : Bool) : Nat := if (p.tb b).state = .self then p.phys else (p.tb b).gm

/-- SOURCE_VALID (R101). -/
def BState.valid (s : BState) : Bool := s = .locked || s = .hold || s = .self || s = .follow

/-- A Bell message payload in the layout of R101. -/
def Pkg.bellMsg (p : Pkg) (ty : Nat) (b : Bool) (id : Nat) (t : Int) : List Byte :=
  let n := wrapNat 80 t
  padTo 240 (leBytes 1 ty ++ leBytes 1 (1 + b2n b) ++ leBytes 1 p.ratio ++ leBytes 1 (b2n (p.tb b).state.valid) ++
    leBytes 2 id ++ leBytes 2 (p.tbSteps b) ++ leBytes 8 (p.tbGm b) ++ leBytes 8 (n / 65536) ++ leBytes 2 (n % 65536))

/-- Queue a Bell message at a port (R100). -/
def Pkg.queueBell (p : Pkg) (port : Nat) (m : List Byte) : Pkg :=
  p.updPort port fun x => { x with pendBell := x.pendBell ++ [m] }

/-- BELL_SYNC (R102): a SYNC falls due on a port that the base masters; an open exchange is void. DESIGN CHOICE (log entry
112): on a port newly given to the base the first SYNC is due at once. -/
def bellSync (b : Bool) (port : Nat) (p : Pkg) : Pkg :=
  let x := p.tb b
  let k := x.count / 2 ^ p.interval b
  let old := x.masters.find? port
  let due := match old with | some m => decide (m.due ≠ k) | none => true
  if bit (p.reg (serveF b).blk 0 (serveF b).off) port && due then
    let open_ := match old with | some m => !m.closed | none => false
    let id := match old with | some m => (m.id + 2) % 65536 | none => b2n b
    let p := if open_ then p.fadd (voidF b) 0 1 else p
    let mx : MasterX := { id := id, due := k, sent := false, t1 := 0, closed := false }
    let p := p.setTb b { x with masters := AMap.put x.masters port mx }
    p.queueBell port (p.bellMsg 1 b id 0)
  else p
def execBellSync (b : Bool) (p : Fin 16) (s : State) : Host.Outcome State Fault Refusal := onPkg (bellSync b p) s

/-- What sending a Bell message stamps (R99, R102): t1 at SYNC, with its FOLLOW_UP, and t3 at DELAY_REQ. -/
def Pkg.bellSent (p : Pkg) (port : Nat) (m : List Byte) : Pkg :=
  let ty := leAt m 0 1
  let b := decide (leAt m 1 1 = 2)
  let id := leAt m 4 2
  let x := p.tb b
  let t := p.stampTx port b 0
  if ty = 1 then
    match x.masters.find? port with
    | some mx =>
      if mx.id = id then
        let p := p.setTb b { x with masters := AMap.put x.masters port { mx with sent := true, t1 := t } }
        p.queueBell port (p.bellMsg 2 b id t)
      else p
    | none => p
  else if ty = 3 then
    match x.slave with
    | some sx => if sx.id = id then p.setTb b { x with slave := some { sx with t3 := t, gotT3 := true } } else p
    | none => p
  else p

/-- SYNC at a slave (R102, R103), for one base: stamped t2 on its master port from its master base, void elsewhere. -/
def Pkg.syncAt (port : Nat) (m : List Byte) (phase : Nat) (p : Pkg) (b : Bool) : Pkg :=
  let x := p.tb b
  if p.master b = .port port && decide (leAt m 1 1 = 1 + p.fget (masterBaseF b) 0) then
    let p := if x.slave.isSome then p.fadd (voidF b) 0 1 else p
    let sx : SlaveX :=
      { id := leAt m 4 2, port := port, t1 := 0, t2 := p.stampRx port b phase, t3 := 0, gotT1 := false,
        gotT3 := false, steps := leAt m 6 2, ratio := leAt m 2 1, valid := bit (BitVec.ofNat 8 (leAt m 3 1)) 0,
        base := leAt m 1 1, gm := leAt m 8 8 }
    p.setTb b { x with slave := some sx }
  else p.fadd (voidF b) 0 1
def Pkg.bellSyncRx (p : Pkg) (port : Nat) (m : List Byte) (phase : Nat) : Pkg :=
  [false, true].foldl (Pkg.syncAt port m phase) p

/-- A message belongs to the base's open exchange. -/
def SlaveX.matches_ (sx : SlaveX) (port : Nat) (m : List Byte) : Bool :=
  decide (sx.port = port) && decide (sx.id = leAt m 4 2) && decide (sx.base = leAt m 1 1)

/-- A stamp carried in a message, in 2^-16 tick. -/
def msgTime (m : List Byte) : Int := ((leAt m 16 8 * 65536 + leAt m 24 2 : Nat) : Int)

/-- FOLLOW_UP at a slave (R102): t1 taken, DELAY_REQ sent. -/
def Pkg.followAt (port : Nat) (m : List Byte) (p : Pkg) (b : Bool) : Pkg :=
  let x := p.tb b
  match x.slave with
  | some sx =>
    if sx.matches_ port m then
      let p := p.setTb b { x with slave := some { sx with t1 := msgTime m, gotT1 := true } }
      p.queueBell port (p.bellMsg 3 b sx.id 0)
    else p
  | none => p
def Pkg.bellFollowRx (p : Pkg) (port : Nat) (m : List Byte) : Pkg := [false, true].foldl (Pkg.followAt port m) p

/-- DELAY_REQ at a master (R102): t4 returned in DELAY_RESP. -/
def Pkg.delayReqAt (port : Nat) (m : List Byte) (phase : Nat) (p : Pkg) (b : Bool) : Pkg :=
  let x := p.tb b
  match x.masters.find? port with
  | some mx =>
    if mx.id = leAt m 4 2 && mx.sent && !mx.closed then
      let p := p.setTb b { x with masters := AMap.put x.masters port { mx with closed := true } }
      p.queueBell port (p.bellMsg 4 b mx.id (p.stampRx port b phase))
    else p
  | none => p
def Pkg.bellReqRx (p : Pkg) (port : Nat) (m : List Byte) (phase : Nat) : Pkg :=
  [false, true].foldl (Pkg.delayReqAt port m phase) p

/-- DELAY_RESP at a slave (R103, R104): the exchange is complete; it is used, mismatched or void. DESIGN CHOICE (log entry
113): of the four messages' RATIO and SOURCE_VALID those of DELAY_RESP, the last, decide. Entering LOCKED by any way sets
EVER_LOCKED (R119). -/
def Pkg.delayRespAt (port : Nat) (m : List Byte) (p : Pkg) (b : Bool) : Pkg :=
  let x := p.tb b
  match x.slave with
  | some sx =>
    if sx.matches_ port m then
      let x := { x with slave := none }
      if !(sx.gotT1 && sx.gotT3) || !bit (BitVec.ofNat 8 (leAt m 3 1)) 0 then (p.setTb b x).fadd (voidF b) 0 1
      else if leAt m 2 1 ≠ p.ratio then (p.setTb b x).fadd (mismatchF b) 0 1
      else if x.state = .self then p.setTb b x
      else
        let t4 := msgTime m
        let o := s64 (asr ((t4 - sx.t3) - (sx.t2 - sx.t1)) 1)
        let path := s64 (asr ((sx.t2 - sx.t1) + (t4 - sx.t3)) 1)
        let (y, evs) := servo (p.servoCfg b) { x with steps := leAt m 6 2 + 1, gm := leAt m 8 8 } o
        (p.setTb b { y with offset := o, path := path, lastUse := y.count,
                            everLocked := y.everLocked || decide (y.state = .locked) }).servoLog b evs
    else p
  | none => p
def Pkg.bellRespRx (p : Pkg) (port : Nat) (m : List Byte) : Pkg := [false, true].foldl (Pkg.delayRespAt port m) p

/-- A message of no known type, with a bad CRC or of a foreign partition voids the exchange it belongs to, at the slave or
at the master (R100, R101); a SYNC that is lost so opens none. -/
def Pkg.badAt (port : Nat) (m : List Byte) (p : Pkg) (b : Bool) : Pkg :=
  let x := p.tb b
  let named := decide (leAt m 1 1 = 1 + b2n b)
  let slave := match x.slave with | some sx => sx.matches_ port m | none => false
  let master := match x.masters.find? port with
    | some mx => decide (mx.id = leAt m 4 2) && named && !mx.closed
    | none => false
  if slave then (p.setTb b { x with slave := none }).fadd (voidF b) 0 1
  else if master then
    let ms := match x.masters.find? port with
      | some mx => AMap.put x.masters port { mx with closed := true }
      | none => x.masters
    (p.setTb b { x with masters := ms }).fadd (voidF b) 0 1
  else if leAt m 0 1 = 1 && p.master b = .port port && decide (leAt m 1 1 = 1 + p.fget (masterBaseF b) 0) then
    p.fadd (voidF b) 0 1
  else p
def Pkg.bellBad (p : Pkg) (port : Nat) (m : List Byte) : Pkg := [false, true].foldl (Pkg.badAt port m) p

/-- A received Bell message acts by its type (R101). -/
def Pkg.bellRx (p : Pkg) (port : Nat) (m : List Byte) (phase : Nat) : Pkg :=
  let ty := leAt m 0 1
  if ty = 1 then p.bellSyncRx port m phase
  else if ty = 2 then p.bellFollowRx port m
  else if ty = 3 then p.bellReqRx port m phase
  else if ty = 4 then p.bellRespRx port m
  else p.bellBad port m

/-! Hold, master change, rebase. -/

/-- The master port of a base is down (R108). -/
def Pkg.masterDown (p : Pkg) (b : Bool) : Bool :=
  match p.master b with
  | .port n => (p.port n).state = .down || (p.port n).state = .off
  | _ => false

/-- MISS_LIMIT intervals have passed without a usable exchange (R108, R119). -/
def Pkg.missed (p : Pkg) (b : Bool) : Bool :=
  decide (max 1 (p.fget F.bellJumpMissLimit 0) ≤ ((p.tb b).count - (p.tb b).lastUse) / 2 ^ p.interval b)

/-- TIME_MASTER_LOST (R108): TRIM is frozen at integ. -/
def timeMasterLost (b : Bool) (p : Pkg) : Pkg :=
  let x := p.tb b
  if (x.state = .acquire || x.state = .locked || x.state = .freqOnly) && (p.masterDown b || p.missed b) then
    ((p.setTb b { x with state := .hold, trim := x.integ, slave := none }).fadd (lostF b) 0 1).log1
      .bell 0 0x0052 0 (some 9)
  else p
def execTimeMasterLost (b : Bool) (s : State) : Host.Outcome State Fault Refusal := onPkg (timeMasterLost b) s

/-- A plan is armed or running on a base (R109, R110). -/
def Pkg.baseBusy (p : Pkg) (b : Bool) : Bool := if b then p.armedTb2 else p.tb1Run && !p.drive

/-- The base takes the master that its configuration now names (R105, R109). A base that has locked, or that a plan uses,
checks the new master's first exchange as in HOLD, whatever state it leaves; it makes no second ACQUIRE (R107, R111). -/
def Pkg.takeMaster (p : Pkg) (b : Bool) : Pkg :=
  let x := { p.tb b with slave := none }
  match p.master b with
  | .self => p.setTb b { x with state := .self, steps := 0, gm := p.phys, everSelf := true }
  | .none => p.setTb b { x with state := .free, steps := 255 }
  | .port _ =>
    if b && !p.baseBusy true then
      p.setTb b { x with state := .acquire, phaseStepped := false, lockN := 0, acqN := 0, lastUse := x.count }
    else if x.everLocked || p.baseBusy b then
      p.setTb b { x with state := if x.state = .locked || x.state = .follow then x.state else .hold, lastUse := x.count }
    else if x.state = .self then p.setTb b { x with state := .free, steps := 255 }
    else p.setTb b { x with lastUse := x.count }

/-- MASTER_CHANGE: a write of BELL.TBn_CFG (R109, R119); the Caretaker alone, TB1's MASTER_BASE is fixed. -/
def masterChange (b care : Bool) (v : W64) (p : Pkg) : Pkg :=
  if care then
    let old := (p.fget (masterPortF b) 0, p.fget (masterBaseF b) 0)
    let p := p.fset (masterPortF b) 0 (bits v 4 0)
    let p := if b then p.fset (masterBaseF b) 0 (bits v 5 5) else p
    let p := p.fset (intervalF b) 0 (bits v 10 6)
    let p := p.fset (kpF b) 0 (bits v 14 11)
    let p := p.fset (kiF b) 0 (bits v 18 15)
    if old = (p.fget (masterPortF b) 0, p.fget (masterBaseF b) 0) then p
    else
      let was := (p.tb b).everLocked
      let p := p.takeMaster b
      if was then p.log1 .bell 0 0x0053 0 none else p
  else p
def execMasterChange (b care : Bool) (v : W64) (s : State) : Host.Outcome State Fault Refusal :=
  onPkg (masterChange b care v) s

/-- TIME_REBASE on a base that no plan uses (R110): ADOPT, or SET with a count. -/
def Pkg.rebase (p : Pkg) (b : Bool) (setTo : Option Nat) : Pkg :=
  let x := p.tb b
  let x := match setTo with
    | some c => { x with count := c % 2 ^ 64, frac := 0, lastUse := c % 2 ^ 64 }
    | none => { x with state := .acquire, phaseStepped := false, lockN := 0, acqN := 0, lastUse := x.count }
  (p.setTb b x).log1 .bell 0 0x0054 0 none

/-- Exchanges in flight on a base, as slave and as master. -/
def TBase.inFlight (x : TBase) : Nat := b2n x.slave.isSome + (x.masters.filter fun m => !m.2.closed).length

/-- The Bell's part of a handover (R114): TB1 takes TB2's count, servo and configuration, TB2 follows, exchanges in
flight are void. DESIGN CHOICE (log entry 114): TB1 takes the whole base, its EVER_LOCKED, PHASE_STEPPED, STEPS_REMOVED,
OFFSET and PATH too, and a TB2 in FOLLOW leaves TB1 in FOLLOW. -/
def Pkg.bellHandover (p : Pkg) : Pkg :=
  let p := (p.fadd (voidF false) 0 p.bell.tb1.inFlight).fadd (voidF true) 0 p.bell.tb2.inFlight
  let x := { p.bell.tb2 with slave := none, masters := [] }
  let p := p.setReg .bell 0 0x150 (setBits (p.reg .bell 0 0x190) 5 5 0)
  let p := p.setReg .bell 0 0x158 (p.reg .bell 0 0x198)
  let p := { p with bell := { p.bell with tb1 := x, tb2 := { x with state := .follow }, handoverTick := none } }
  let p := p.fset F.bellCtrlDrive 0 0
  let p := p.fset F.bellHandoverStatDone 0 1
  p.log1 .bell 0 0x0055 0 none

/-- A refused handover (R115), INFO naming the cause. -/
def Pkg.bellRefuse (p : Pkg) (info : Nat) : Pkg :=
  let p := { p with bell := { p.bell with handoverTick := none } }
  (p.fset F.bellHandoverStatRefused 0 1).log1 .bell 0 0x0056 info (some 10)

/-- The coming reference edge is a step boundary at which a requested DISARM ends the plan. -/
def Pkg.planEnds (p : Pkg) : Bool :=
  p.job.disarmReq && (match p.job.cur with
    | some c => decide ((p.refCount + 1 - p.job.start) % max 1 c.img.stepTicks = 0)
    | none => false)

/-- Length of the reference period that now ends, in 2^-40 tick: one tick, or up to two when it is the last one before a
handover, which ends with TB2's count at HANDOVER_TICK (R114). -/
def Pkg.periodLen (p : Pkg) : Nat :=
  let v := p.bell.tb2.count * 2 ^ 40 + p.bell.tb2.frac
  match p.bell.handoverTick with
  | some t =>
    if p.job.state = 5 && (!p.planRuns || p.planEnds) && decide (v + 2 ^ 40 ≤ t * 2 ^ 40) && decide (t * 2 ^ 40 < v + 2 ^ 41) then
      t * 2 ^ 40 - v
    else 2 ^ 40
  | none => 2 ^ 40

/-- What a reference period of `len` adds to TB0's raw counter, in 2^-96 ns: the oscillator runs at the driving base's TRIM
against the reference, so that RAW gains 6.4 ns at each of its edges; without it the word frozen at the loss stands for it
(R82, R96). -/
def Pkg.rawStep (p : Pkg) (len : Nat) : Nat :=
  let trim : Int := p.bell.frozen.getD (if p.drive then p.bell.tb2.trim else p.bell.tb1.trim)
  let inc : Nat := 2 ^ 96 * p.periodNum * len / (periodDen * (((2 ^ 40 : Nat) : Int) + trim).toNat)
  if p.fon F.bellCtrlTb0Mode 0 then
    (((inc : Int) * (((2 ^ 40 : Nat) : Int) + sx 32 (p.fget F.bellTb0Rate 0))) / ((2 ^ 40 : Nat) : Int)).toNat
  else inc

/-- BELL_OUT (R581): tri-stated, or its level. -/
def Pkg.bellOut (p : Pkg) : Option Bool := if p.fon F.bellCtrlBellOutEn 0 then some (decide (0 < p.bell.out)) else none
/-- A step boundary of the driving base: the pin goes high for 64 reference periods. -/
def Pkg.bellPulse (p : Pkg) : Pkg :=
  if p.fon F.bellCtrlBellOutEn 0 then { p with bell := { p.bell with out := 64 } } else p

/-- One reference edge of the tick bases (R97, R114) and of TB0's raw counter (R96). -/
def Pkg.bellEdge (p : Pkg) : Pkg :=
  let len := p.periodLen
  let adv (x : TBase) (d : TBase) : TBase :=
    let n := wrapNat 104 ((x.count : Int) * ((2 ^ 40 : Nat) : Int) + (x.frac : Int) + ((2 ^ 40 : Nat) : Int) +
      (x.trim - d.trim))
    { x with count := n / 2 ^ 40, frac := n % 2 ^ 40 }
  let one (x : TBase) : TBase := { x with count := (x.count + 1) % 2 ^ 64 }
  let b := p.bell
  let (t1, t2) := if p.drive then (adv b.tb1 b.tb2, one b.tb2) else (one b.tb1, adv b.tb2 b.tb1)
  let t2 := if b.tb2.state = .follow then { t2 with count := t1.count, frac := t1.frac } else t2
  let t2 := if len = 2 ^ 40 then t2 else { t2 with count := b.handoverTick.getD 0, frac := 0 }
  let r := b.rawFrac + p.rawStep len
  { p with bell := { b with tb1 := t1, tb2 := t2, raw := b.raw + r / 2 ^ 64, rawFrac := r % 2 ^ 64, out := b.out - 1 } }

end Sys2Proof.Machine
end

