-- ==== Sys2Proof/Machine/Crypto.lean ====
section
/-! DEFINITION. AES-128 and AES-256, AES-CMAC (R410), AES-256-GCM (R380, R502), SHA-256 (R515), SHA-384 (R38, R541),
HMAC and HKDF with SHA-384 (R545, R596), as NIST and the IETF define them. -/
namespace Sys2Proof.Machine

open Sys2Proof

/-! AES. -/

/-- Product in GF(2^8) modulo x^8 + x^4 + x^3 + x + 1. -/
def gmulGo : Nat → Nat → Nat → Nat → Nat
  | 0, _, _, r => r
  | k + 1, a, b, r =>
    let r := if b % 2 = 1 then r ^^^ a else r
    let a2 := if 128 ≤ a then (2 * a) ^^^ 0x11B else 2 * a
    gmulGo k a2 (b / 2) r
def gmul (a b : Nat) : Nat := gmulGo 8 a b 0

/-- Inverse in GF(2^8): a^254. -/
def ginv (a : Nat) : Nat :=
  let a2 := gmul a a
  let a3 := gmul a2 a
  let a6 := gmul a3 a3
  let a12 := gmul a6 a6
  let a15 := gmul a12 a3
  let a30 := gmul a15 a15
  let a60 := gmul a30 a30
  let a120 := gmul a60 a60
  let a126 := gmul a120 a6
  let a127 := gmul a126 a
  gmul a127 a127

/-- The S-box entry of a byte. -/
def sboxOf (a : Nat) : Nat :=
  let b := ginv a
  let rot (k : Nat) : Nat := (b * 2 ^ k) % 256 + b / 2 ^ (8 - k)
  (b ^^^ rot 1 ^^^ rot 2 ^^^ rot 3 ^^^ rot 4 ^^^ 0x63) % 256

/-- The S-box as a table: the entry of byte `a` in bits 8a + 7 to 8a. -/
def sboxTable : Nat :=
  0x75B227EBE28012079A059618C323C7041531D871F1E5A534CCF73F362693FDB7C072A49CAFA2D4ADF04759FA7DC982CA76ABD7FE2B670130C56F6BF27B777C63 +
  0xD2F3FF1021DAB6BCF5389D928F40A351A89F3C507F02F94585334D43FBAAEFD0CF584C4A39BECB6A5BB1FC20ED00D153842FE329B3D63B52A05A6E1B1A2C8309 * 2 ^ 512 +
  0x08AE7A65EAF4566CA94ED58D6D37C8E779E4959162ACD3C25C2406490A3A32E0DB0B5EDE14B8EE4688902A22DC4F816073195D643D7EA7C41744975FEC130CCD * 2 ^ 1024 +
  0x16BB54B00F2D99416842E6BF0D89A18CDF2855CEE9871E9B948ED9691198F8E19E1DC186B95735610EF6034866B53E708A8BBD4B1F74DDE8C6B4A61C2E2578BA * 2 ^ 1536
def sub (a : Nat) : Nat := sboxTable / 2 ^ (8 * a) % 256

def xorB (a b : List Nat) : List Nat := List.zipWith (fun x y => x ^^^ y) a b

/-- Key expansion to words of four bytes, latest first. -/
def aesWords (nk : Nat) : Nat → Nat → List (List Nat) → List (List Nat)
  | 0, _, ws => ws
  | f + 1, rcon, ws =>
    let i := ws.length
    let t := ws.headD []
    let base := (ws.drop (nk - 1)).headD []
    if i % nk = 0 then
      let r := (t.drop 1 ++ t.take 1).map sub
      let r := xorB r [rcon, 0, 0, 0]
      aesWords nk f (gmul rcon 2) (xorB base r :: ws)
    else if 6 < nk ∧ i % nk = 4 then aesWords nk f rcon (xorB base (t.map sub) :: ws)
    else aesWords nk f rcon (xorB base t :: ws)

/-- Round keys of 16 bytes each. -/
def aesKeys (key : List Nat) : List (List Nat) :=
  let nk := key.length / 4
  let ws := (aesWords nk (4 * (nk + 7) - nk) 1 (chunksOf 4 key).reverse).reverse
  (chunksOf 4 ws).map List.flatten

def shiftRows (s : List Nat) : List Nat :=
  (List.range 16).map fun i => s.getD ((i + 4 * (i % 4)) % 16) 0
def mixCol (c : List Nat) : List Nat :=
  (List.range 4).map fun i =>
    let g (k : Nat) : Nat := c.getD ((i + k) % 4) 0
    gmul (g 0) 2 ^^^ gmul (g 1) 3 ^^^ g 2 ^^^ g 3
def aesRounds : List (List Nat) → List Nat → List Nat
  | [], s => s
  | [k], s => xorB (shiftRows (s.map sub)) k
  | k :: ks, s => aesRounds ks (xorB (((chunksOf 4 (shiftRows (s.map sub))).map mixCol).flatten) k)
/-- Encryption of one block under expanded keys. -/
def aesBlock (ks : List (List Nat)) (b : List Nat) : List Nat :=
  match ks with
  | [] => b
  | k :: r => aesRounds r (xorB b k)

def toNats (b : List Byte) : List Nat := b.map BitVec.toNat
def toBytes (b : List Nat) : List Byte := b.map (BitVec.ofNat 8)
def natBe (b : List Nat) : Nat := b.foldl (fun a x => a * 256 + x) 0

/-- AES-CMAC with a 16-byte tag (SP 800-38B). -/
def aesCmac (key msg : List Byte) : List Byte :=
  let ks := aesKeys (toNats key)
  let dbl (v : Nat) : Nat := (2 * v) % 2 ^ 128 ^^^ (if 2 ^ 127 ≤ v then 0x87 else 0)
  let k1 := dbl (natBe (aesBlock ks (List.replicate 16 0)))
  let k2 := dbl k1
  let n := cdiv msg.length 16
  let whole := decide (msg.length ≠ 0) && decide (msg.length % 16 = 0)
  let cut := (max n 1 - 1) * 16
  let last := msg.drop cut
  let lastN := if whole then natBe (toNats last) ^^^ k1
    else natBe (toNats (padTo 16 (last ++ [0x80#8]))) ^^^ k2
  let x := (chunksOf 16 (toNats (msg.take cut))).foldl (fun x b => aesBlock ks (xorB x b)) (List.replicate 16 0)
  toBytes (aesBlock ks (xorB x (toNats (beBytes 16 lastN))))

/-! AES-256-GCM (SP 800-38D) with a 12-byte nonce and a 16-byte tag. -/

/-- Product in GF(2^128) of GCM, on big-endian numbers. -/
def ghashMulGo : Nat → Nat → Nat → Nat → Nat
  | 0, _, _, z => z
  | k + 1, x, v, z =>
    let z := if x / 2 ^ k % 2 = 1 then z ^^^ v else z
    let v := if v % 2 = 1 then (v / 2) ^^^ (0xE1 * 2 ^ 120) else v / 2
    ghashMulGo k x v z
def ghashMul (x h : Nat) : Nat := ghashMulGo 128 x h 0

def ghash (h : Nat) (y : Nat) (bs : List Byte) : Nat :=
  (chunksOf 16 bs).foldl (fun y b => ghashMul (y ^^^ ofBe (padTo 16 b)) h) y

/-- Key stream applied to data from counter `c`. -/
def gctr (ks : List (List Nat)) (nonce : List Byte) : Nat → List (List Byte) → List (List Byte)
  | _, [] => []
  | c, b :: r =>
    let k := aesBlock ks (toNats (nonce ++ beBytes 4 (c % 2 ^ 32)))
    toBytes (xorB (toNats b) k) :: gctr ks nonce (c + 1) r

def gcmTag (ks : List (List Nat)) (nonce aad ct : List Byte) : List Byte :=
  let h := natBe (aesBlock ks (List.replicate 16 0))
  let y := ghash h (ghash h 0 aad) ct
  let y := ghash h y (beBytes 8 (8 * aad.length) ++ beBytes 8 (8 * ct.length))
  toBytes (xorB (toNats (beBytes 16 y)) (aesBlock ks (toNats (nonce ++ beBytes 4 1))))

/-- Authenticated encryption: ciphertext and tag. -/
def gcmSeal (key nonce aad pt : List Byte) : List Byte × List Byte :=
  let ks := aesKeys (toNats key)
  let ct := (gctr ks nonce 2 (chunksOf 16 pt)).flatten
  (ct, gcmTag ks nonce aad ct)

/-- Authenticated decryption: the plaintext when the tag is right. -/
def gcmOpen (key nonce aad ct tag : List Byte) : Option (List Byte) :=
  let ks := aesKeys (toNats key)
  if gcmTag ks nonce aad ct = tag then some (gctr ks nonce 2 (chunksOf 16 ct)).flatten else none

/-! SHA-2. -/

/-- The first `n` primes. -/
def isPrime (n : Nat) : Bool := decide (2 ≤ n) && (List.range 19).all fun i => decide (i + 2 ≥ n) || n % (i + 2) != 0
def primes80 : List Nat := ((List.range 410).filter isPrime).take 80

/-- Integer cube root, bit by bit. -/
def icbrtGo (x : Nat) : Nat → Nat → Nat
  | 0, r => r
  | k + 1, r => let t := r + 2 ^ k; icbrtGo x k (if t * t * t ≤ x then t else r)
/-- Fraction bits of cube roots and square roots: `w` of them. -/
def cbrtFrac (w p : Nat) : Nat := icbrtGo (p * 2 ^ (3 * w)) (w + 4) 0 % 2 ^ w
def sqrtFrac (w p : Nat) : Nat := isqrt (p * 2 ^ (2 * w)) % 2 ^ w

structure ShaPar where
  /-- word bits, rounds, rotations of Σ0, Σ1, σ0, σ1 (the third of σ is a shift) -/
  w : Nat
  rounds : Nat
  s0 : Nat × Nat × Nat
  s1 : Nat × Nat × Nat
  g0 : Nat × Nat × Nat
  g1 : Nat × Nat × Nat
def par256 : ShaPar := ⟨32, 64, (2, 13, 22), (6, 11, 25), (7, 18, 3), (17, 19, 10)⟩
def par512 : ShaPar := ⟨64, 80, (28, 34, 39), (14, 18, 41), (1, 8, 7), (19, 61, 6)⟩

def shaK256 : List Nat := (primes80.take 64).map (cbrtFrac 32)
def shaK512 : List Nat := primes80.map (cbrtFrac 64)
def shaH256 : List Nat := (primes80.take 8).map (sqrtFrac 32)
/-- Initial value of SHA-384: square roots of the ninth to sixteenth primes. -/
def shaH384 : List Nat := ((primes80.drop 8).take 8).map (sqrtFrac 64)

def rotr (w x k : Nat) : Nat := x / 2 ^ k + (x * 2 ^ (w - k)) % 2 ^ w
def sig3 (w : Nat) (r : Nat × Nat × Nat) (x : Nat) : Nat := rotr w x r.1 ^^^ rotr w x r.2.1 ^^^ rotr w x r.2.2
def sig2 (w : Nat) (r : Nat × Nat × Nat) (x : Nat) : Nat := rotr w x r.1 ^^^ rotr w x r.2.1 ^^^ x / 2 ^ r.2.2

/-- Message schedule, latest word first. -/
def shaSched (p : ShaPar) : Nat → List Nat → List Nat
  | 0, ws => ws
  | f + 1, ws =>
    let g (k : Nat) : Nat := ws.getD (k - 1) 0
    shaSched p f (((sig2 p.w p.g1 (g 2) + g 7 + sig2 p.w p.g0 (g 15) + g 16) % 2 ^ p.w) :: ws)

/-- Rounds over the schedule with the working variables a to h. -/
def shaRounds (p : ShaPar) : List (Nat × Nat) → List Nat → List Nat
  | [], v => v
  | (k, w) :: r, [a, b, c, d, e, f, g, h] =>
    let m := 2 ^ p.w
    let ch := (e &&& f) ^^^ ((m - 1 - e) &&& g)
    let mj := (a &&& b) ^^^ (a &&& c) ^^^ (b &&& c)
    let t1 := h + sig3 p.w p.s1 e + ch + k + w
    let t2 := sig3 p.w p.s0 a + mj
    shaRounds p r [(t1 + t2) % m, a, b, c, (d + t1) % m, e, f, g]
  | _, v => v

def shaBlock (p : ShaPar) (ks h : List Nat) (blk : List Byte) : List Nat :=
  let ws := ((chunksOf (p.w / 8) blk).map ofBe).reverse
  let sched := (shaSched p (p.rounds - 16) ws).reverse
  List.zipWith (fun x y => (x + y) % 2 ^ p.w) h (shaRounds p (ks.zip sched) h)

def sha (p : ShaPar) (ks h0 : List Nat) (msg : List Byte) : List Nat :=
  let blk := p.w * 2
  let len := p.w / 4
  let zeros := (2 * blk - (msg.length + 1 + len) % blk) % blk
  let m := msg ++ [0x80#8] ++ List.replicate zeros 0#8 ++ beBytes len (8 * msg.length)
  (chunksOf blk m).foldl (shaBlock p ks) h0

/-- SHA-256 of a byte string, 32 bytes. -/
def sha256 (msg : List Byte) : List Byte := ((sha par256 shaK256 shaH256 msg).map (beBytes 4)).flatten
/-- SHA-384 of a byte string, 48 bytes. -/
def sha384 (msg : List Byte) : List Byte := (((sha par512 shaK512 shaH384 msg).take 6).map (beBytes 8)).flatten

/-- HMAC-SHA-384. -/
def hmac384 (key msg : List Byte) : List Byte :=
  let k := padTo 128 (if 128 < key.length then sha384 key else key)
  sha384 (k.map (fun b => b ^^^ 0x5C#8) ++ sha384 (k.map (fun b => b ^^^ 0x36#8) ++ msg))

/-- HKDF-Expand with SHA-384. -/
def hkdfExpandGo (prk info : List Byte) : Nat → Nat → List Byte → List Byte
  | 0, _, _ => []
  | f + 1, i, t =>
    let t := hmac384 prk (t ++ info ++ [BitVec.ofNat 8 i])
    t ++ hkdfExpandGo prk info f (i + 1) t
def hkdfExpand (prk info : List Byte) (n : Nat) : List Byte :=
  (hkdfExpandGo prk info (cdiv n 48) 1 []).take n

end Sys2Proof.Machine
end

