-- ==== Sys2Proof/Config.lean ====
section
/-! DEFINITION. What the manual leaves open (free values) and the cryptographic primitives that stand outside it.
Every constant here is opaque: no proof can see a value of it. -/
namespace Sys2Proof.Config

/-- Free value number `n`: the word that poisoned or BUSY data is delivered as (R213, R482), the contents of TE and VE
storage that nothing defines, and every other value the manual leaves undefined. -/
opaque freeWord : Nat → W64

/-- Ticks of a JEDEC per-bank refresh while no plan runs (R252). -/
opaque jedecRefresh : Nat

/-- Free random numbers: NONCE of R274, SPDM nonces, key shares (R545). -/
opaque random : Nat → Nat

/-- RSA-3072 RSASSA-PSS with SHA-384 verifies: modulus, digest, signature (R541). -/
opaque rsaPssVerify : List Byte → List Byte → List Byte → Bool
/-- SLH-DSA-SHA2-192s verifies: public key, message digest, signature (R541). -/
opaque slhDsaVerify : List Byte → List Byte → List Byte → Bool
/-- ECDSA P-384 with SHA-384 signs: secret, digest (R541, R545). -/
opaque ecdsaSign : List Byte → List Byte → List Byte
/-- ML-DSA-65 signs: secret, digest (R541, R546). -/
opaque mlDsaSign : List Byte → List Byte → List Byte
/-- Derivation of a secret key from a seed and a label (R542, R543). -/
opaque deriveKey : List Byte → List Byte → List Byte
/-- The public key of a secret key (R542, R543). -/
opaque publicKey : List Byte → List Byte
/-- secp384r1 shared secret of a private scalar and a peer's point (R545). -/
opaque ecdh : List Byte → List Byte → List Byte
/-- DER encoding of the Alias certificate issued over a public key (R543, R544). -/
opaque aliasCert : List Byte → List Byte → List Byte
/-- The two Floerak certificates of the chain (R544). -/
opaque floerakRoot : List Byte
opaque floerakCa : List Byte
/-- What a CAPABILITIES response says of CTExponent, DataTransferSize and MaxSPDMmsgSize, and the heartbeat period of a
KEY_EXCHANGE_RSP. -/
opaque spdmCtExponent : Nat
opaque spdmTransferSize : Nat
opaque spdmMaxMessage : Nat
opaque spdmHeartbeatPeriod : Nat
/-- Event codes that the fault manager selects in its session (R502). -/
opaque selectedEvent : Nat → Bool
/-- Revocation bits that a Caretaker image declares in its payload (R552). -/
opaque declaredRevocations : List Byte → Nat
/-- Version of the Roll core's ROM (R445). -/
opaque romVersion : Nat
/-- The Caretaker image a slot was manufactured with, by version. -/
opaque factoryImage : Nat → List Byte
/-- The DeviceID certificate stored at manufacture (R544). -/
opaque deviceCert : List Byte
/-- Mask ROM contents of the Caretaker and the Roll core, as hashed for measurement 1 and the CDI (R543, R546). -/
opaque maskRom : List Byte

/-- ns that TB3 counts in the n-th idle step (R510: a crystal of the Bursar's own). -/
opaque tb3Step : Nat → Nat
/-- Full scale of a sense channel: µV and mA (R512). -/
opaque senseRange : Nat → Nat × Nat
/-- Version of the Bursar's ROM (R517). -/
opaque bursarRom : Nat

/-- The logical fen for which the timetable of the running plan routes the flit of ordinal `x` of port `q`; 256 or more
where none waits for it. Which fen waits for an Issyn delivery is known to the plan's timetable alone (R47). -/
opaque linkConsumer (q x : Nat) : Nat

/-- A flit that the running plan has logical fen `g` inject, by an SM.SEND its Proctor has not pushed, and that the router
or slab of logical fen `l` needs in tick `t`: the plan tick of its injection; none where there is no such flit. Which
commands a Proctor has still to push is known to the plan alone (R46, R74, R200, R487). -/
opaque planFlit (g l t : Nat) : Option Nat
/-- What the running plan has the fen of a hole inject in a tick: kind and number of the destination as R166 names them,
address, virtual channel (R58). -/
opaque holeSends (l t : Nat) : List (Nat × Nat × Nat × Nat)

end Sys2Proof.Config
end

