-- ==== Sys2Proof/Machine/Flags.lean ====
section
/-! DEFINITION. Checks and codes: SEC-DED (R219, R220), CRC-8, CRC-16 and CRC-64 (R513, R305, R271). -/
namespace Sys2Proof.Machine

open Sys2Proof

/-! SEC-DED (72,64). -/

/-- Number of set bits. -/
def popcount : Nat → Nat → Nat
  | 0, _ => 0
  | k + 1, v => v % 2 + popcount k (v / 2)

/-- The column of each data bit (R219): bytes of weight 3 ascending, then bytes of weight 5 ascending. -/
def eccCols : List Nat :=
  ((List.range 256).filter fun b => popcount 8 b = 3) ++
  ((List.range 256).filter fun b => popcount 8 b = 5).take 8

/-- Check bits of a data word: the XOR of the columns of its set bits. -/
def eccCheckGo (d : Nat) : List Nat → Nat
  | [] => 0
  | c :: r => (if d % 2 = 1 then c else 0) ^^^ eccCheckGo (d / 2) r
def eccCheck (d : Nat) : Nat := eccCheckGo d eccCols

/-- The stored codeword of a data word (R219) and of a poisoned word (R220). -/
def eccEncode (d : Nat) : BitVec 72 := BitVec.ofNat 72 (d % 2 ^ 64 + eccCheck (d % 2 ^ 64) * 2 ^ 64)
def eccPoison : BitVec 72 := BitVec.ofNat 72 (0xFF * 2 ^ 64)

/-- Decoding (R219). -/
inductive EccRead where
  | ok (d : Nat)
  | corrected (d : Nat)
  | bad
deriving DecidableEq, Repr

def eccDecode (w : BitVec 72) : EccRead :=
  let d := w.toNat % 2 ^ 64
  let s := eccCheck d ^^^ (w.toNat / 2 ^ 64)
  if s = 0 then .ok d
  else if popcount 8 s = 1 then .corrected d
  else match findPos (fun c => c = s) eccCols with
    | some i => .corrected (d ^^^ 2 ^ i)
    | none => .bad

/-! CRCs, MSB first. -/

/-- One byte into a CRC register of `w` bits. -/
def crcByte (w poly : Nat) (r : Nat) (b : Byte) : Nat :=
  (List.range 8).foldl (fun r i =>
    let x := (r / 2 ^ (w - 1)) % 2
    let y := (b.toNat / 2 ^ (7 - i)) % 2
    let s := (2 * r) % 2 ^ w
    if x = y then s else s ^^^ poly) r
def crc (w poly init : Nat) (bs : List Byte) : Nat := bs.foldl (crcByte w poly) init

/-- CRC-64 of a link flit over bytes 0 to 247: ECMA-182, initial ones, complemented (R271). -/
def crc64 (bs : List Byte) : Nat := (2 ^ 64 - 1) - crc 64 0x42F0E1EBA9EA3693 (2 ^ 64 - 1) bs
/-- CRC-16 of a mesh flit (R305). -/
def crc16 (bs : List Byte) : Nat := crc 16 0x1021 0xFFFF bs
/-- CRC-8 of a tag frame (R513). -/
def crc8 (bs : List Byte) : Nat := crc 8 0x07 0 bs

/-! Byte memory in canonical form: rising addresses, no zero bytes listed. -/

/-- The listed bytes of a run. -/
def listBytes : Nat → List Byte → Memory
  | _, [] => []
  | a, b :: r => if b = 0#8 then listBytes (a + 1) r else (a, b) :: listBytes (a + 1) r

/-- One byte; an unlisted address reads as 0. -/
def Memory.byte (m : Memory) (a : Nat) : Byte := AMap.getD m a 0#8

/-- `n` bytes from `a`. -/
def Memory.read (m : Memory) (a n : Nat) : List Byte :=
  let near := m.filter fun c => decide (a ≤ c.1) && decide (c.1 < a + n)
  if near.isEmpty then List.replicate n 0#8 else (List.range n).map fun i => AMap.getD near (a + i) 0#8

/-- A run of bytes stored at `a`. -/
def Memory.write (m : Memory) (a : Nat) (bs : List Byte) : Memory :=
  (m.filter fun c => decide (c.1 < a)) ++ listBytes a bs ++ m.filter fun c => decide (a + bs.length ≤ c.1)

/-- The canonical form. -/
def Memory.wf (m : Memory) : Bool := AMap.sorted m && m.all fun c => decide (c.2 ≠ 0#8)

end Sys2Proof.Machine
end

