-- ==== Sys2Proof/Machine/Slab.lean ====
section
/-! DEFINITION. Slab storage: spare rows, redirection, error correction, reads and writes of runs of bytes
(R207, R219 to R223, R226). -/
namespace Sys2Proof.Machine

open Sys2Proof

/-- Bytes of a slab, and the largest slab address (R207). -/
def slabBytes : Nat := 10485760

/-- Spare row that replaces a row of a fen, by its repair map (R223). -/
def Pkg.spareOf (p : Pkg) (f row : Nat) : Option Nat :=
  (List.range 64).find? fun s =>
    (p.regs.find? (Blk.base .fen f + 0x200 + 8 * s)).isSome &&
    p.fon (F.fenSlabRmapValid.nth s) f && !p.fon (F.fenSlabRmapRetired.nth s) f &&
    decide (p.fget (F.fenSlabRmapRow.nth s) f = row)

/-- Physical row that serves a row: 2,560 + s for spare row s. -/
def Pkg.physRow (p : Pkg) (f row : Nat) : Nat := match p.spareOf f row with | some s => 2560 + s | none => row

/-- Index in the save buffer of a redirected word (R226). -/
def Pkg.saved (p : Pkg) (f a : Nat) : Option Nat :=
  let d := p.dredge (f / 72)
  if d.phase ≠ 0 && d.phase ≠ 4 && decide (d.fen = f) && decide (d.region = a / 4096) &&
    d.redirect.contains (a % 4096 / 512) then some (a % 4096 / 8) else none

/-- The codeword at a physical word address, with stuck cells (R219, R227). -/
def Slab.codeword (s : Slab) (a : Nat) : BitVec 72 :=
  let w := match s.raw.find? a with | some w => w | none => eccEncode (ofLe (s.mem.read a 8))
  match s.stuck.find? a with | some (m, v) => (w &&& ~~~m) ||| (v &&& m) | none => w

/-- What a read of a physical word finds (R219). -/
def Slab.readWord (s : Slab) (a : Nat) : EccRead :=
  if (s.raw.find? a).isSome || (s.stuck.find? a).isSome then eccDecode (s.codeword a)
  else .ok (ofLe (s.mem.read a 8))

/-- Store a data word, a poisoned word, a raw codeword. -/
def Slab.putData (s : Slab) (a d : Nat) : Slab :=
  { s with mem := s.mem.write a (leBytes 8 d), raw := AMap.erase s.raw a }
def Slab.putPoison (s : Slab) (a : Nat) : Slab :=
  { s with mem := s.mem.write a (leBytes 8 0), raw := AMap.put s.raw a eccPoison }
def Slab.putRaw (s : Slab) (a : Nat) (w : BitVec 72) : Slab :=
  let d := w.toNat % 2 ^ 64
  { s with mem := s.mem.write a (leBytes 8 d),
           raw := if w = eccEncode d then AMap.erase s.raw a else AMap.put s.raw a w }

def Pkg.updSlab (p : Pkg) (f : Nat) (g : Slab → Slab) : Pkg := p.updFen f fun x => { x with slab := g x.slab }

/-- Physical address of a slab word. -/
def Pkg.physAddr (p : Pkg) (f a : Nat) : Nat := p.physRow f (a / 4096) * 4096 + a % 4096

/-- What a read of a slab word finds, from the save buffer while it is redirected. -/
def Pkg.slabWord (p : Pkg) (f a : Nat) : EccRead :=
  match p.saved f a with
  | some i => eccDecode ((p.dredge (f / 72)).save.getD i 0#72)
  | none => (p.fen f).slab.readWord (p.physAddr f a)

/-- Store a slab word: data, or poison. -/
def Pkg.putSlabWord (p : Pkg) (f a : Nat) (d : Option Nat) : Pkg :=
  let p := p.updSlab f fun s => { s with scrubQ := s.scrubQ.filter fun x => x ≠ a }
  match p.saved f a with
  | some i =>
    let w := match d with | some d => eccEncode d | none => eccPoison
    let x := p.dredge (f / 72)
    p.setDredge (f / 72) { x with save := AMap.set 0#72 x.save i w }
  | none =>
    p.updSlab f fun s =>
      match d with
      | some d => s.putData (p.physAddr f a) d
      | none => s.putPoison (p.physAddr f a)

/-- SLAB_CE (R221): logged with the row, counted, queued for the scrubber. -/
def Pkg.slabCe (p : Pkg) (f a : Nat) : Pkg :=
  let p := p.logFen f 0x0060 (a / 4096) none
  let p := p.fadd F.fenSlabEccCe f 1
  let p := p.fset F.fenSlabEccLastCeRow f (a / 4096)
  p.updSlab f fun s => if s.scrubQ.contains a then s else { s with scrubQ := s.scrubQ ++ [a] }

/-- SLAB_UE (R222, R493): the row becomes Dredge's next. -/
def Pkg.slabUe (p : Pkg) (f a : Nat) : Pkg :=
  let p := p.logFen f 0x0061 (a / 4096) none
  let p := p.fadd F.fenSlabEccUe f 1
  let p := p.fset F.fenSlabEccLastUeRow f (a / 4096)
  ((p.fset F.fenSlabRepairPriorityRow f (a / 4096)).fset F.fenSlabRepairPriorityValid f 1).ue
/-- An access that met an uncorrectable word, the first at `bad`: one event for the access (R222). -/
def Pkg.slabMet (p : Pkg) (f : Nat) (bad : Option Nat) : Pkg := match bad with | some a => p.slabUe f a | none => p

/-- A free word (R482), and the counter's advance. -/
def Pkg.freeNat (p : Pkg) : Nat := (Config.freeWord p.free).toNat
def Pkg.freeNext (p : Pkg) : Pkg := { p with free := p.free + 1 }

/-- One word read by an access: its bytes, and its address when it is uncorrectable. -/
def Pkg.readWord (p : Pkg) (f a : Nat) : Pkg × List Byte × Option Nat :=
  match p.slabWord f a with
  | .ok d => (p, leBytes 8 d, none)
  | .corrected d => (p.slabCe f a, leBytes 8 d, none)
  | .bad => (p.freeNext, leBytes 8 p.freeNat, some a)

/-- The words at `a`, `a + 8`, …, `k` of them, with the first uncorrectable one. -/
def Pkg.readWords (f : Nat) : Nat → Nat → Pkg → Pkg × List Byte × Option Nat
  | 0, _, p => (p, [], none)
  | k + 1, a, p =>
    let r := p.readWord f a
    let s := Pkg.readWords f k (a + 8) r.1
    (s.1, r.2.1 ++ s.2.1, r.2.2.or s.2.2)

/-- `n` bytes of a slab from `a`: the words that hold them are read. -/
def Pkg.slabGet (p : Pkg) (f a n : Nat) : Pkg × List Byte × Option Nat :=
  let a0 := a / 8 * 8
  let r := Pkg.readWords f (cdiv (a + n - a0) 8) a0 p
  (r.1, (r.2.1.drop (a - a0)).take n, r.2.2)

/-- An access that reads `n` bytes of a slab: the bytes, and whether it delivers poison. -/
def Pkg.slabRead (p : Pkg) (f a n : Nat) : Pkg × List Byte × Bool :=
  let r := p.slabGet f a n
  (r.1.slabMet f r.2.2, r.2.1, r.2.2.isSome)

/-- How a write combines with the stored byte (R217). -/
inductive WrOp where
  | replace | bitSet | bitClear
deriving DecidableEq, Repr
def WrOp.apply : WrOp → Byte → Byte → Byte
  | .replace, _, d => d
  | .bitSet, o, d => o ||| d
  | .bitClear, o, d => o &&& ~~~d

/-- A write must read the word first: it covers a part of it, or is an alias write (R217). -/
def WrOp.reads (op : WrOp) (e : List (Option Byte)) (poison : Bool) : Bool :=
  e.any Option.isSome && !poison && !(decide (op = .replace) && e.all Option.isSome)

/-- Write some bytes of one word (R217, R220, R222): a whole word is replaced; a part of one, and every alias write, is
a read-modify-write that leaves an uncorrectable word as it is. -/
def Pkg.writeWord (p : Pkg) (f a : Nat) (op : WrOp) (e : List (Option Byte)) (poison : Bool) : Pkg :=
  if e.all Option.isNone then p
  else if poison then p.putSlabWord f a none
  else if op = .replace && e.all Option.isSome then
    p.putSlabWord f a (some (ofLe (e.map fun x => x.getD 0#8)))
  else
    let mix (d : Nat) : Nat :=
      ofLe ((List.range 8).map fun i =>
        let o : Byte := BitVec.ofNat 8 (d / 256 ^ i)
        match e.getD i none with | some x => op.apply o x | none => o)
    match p.slabWord f a with
    | .ok d => p.putSlabWord f a (some (mix d))
    | .corrected d => (p.slabCe f a).putSlabWord f a (some (mix d))
    | .bad => p

/-- Write optional bytes from `a`, word by word. -/
def Pkg.writeOpts (f : Nat) (op : WrOp) (poison : Bool) : Nat → Nat → List (Option Byte) → Pkg → Pkg
  | 0, _, _, p => p
  | k + 1, a, e, p => Pkg.writeOpts f op poison k (a + 8) (e.drop 8) (p.writeWord f a op (e.take 8) poison)

/-- The first uncorrectable word that a write reads. -/
def Pkg.writeMeets (p : Pkg) (f : Nat) (op : WrOp) (poison : Bool) : Nat → Nat → List (Option Byte) → Option Nat
  | 0, _, _ => none
  | k + 1, a, e =>
    if op.reads (e.take 8) poison && decide (p.slabWord f a = .bad) then some a else p.writeMeets f op poison k (a + 8) (e.drop 8)

/-- A write of optional bytes from any address. -/
def Pkg.slabEdit (p : Pkg) (f a : Nat) (op : WrOp) (e : List (Option Byte)) (poison : Bool) : Pkg :=
  let a0 := a / 8 * 8
  let pre := List.replicate (a - a0) none
  let tot := a - a0 + e.length
  let post := List.replicate ((8 - tot % 8) % 8) none
  let all := pre ++ e ++ post
  (Pkg.writeOpts f op poison (cdiv tot 8) a0 all p).slabMet f (p.writeMeets f op poison (cdiv tot 8) a0 all)

/-- A port-A or loader write of bytes. -/
def Pkg.slabWrite (p : Pkg) (f a : Nat) (bs : List Byte) (poison : Bool) : Pkg :=
  p.slabEdit f a .replace (bs.map some) poison

/-- Contents of a slab as a quiet observer sees them: no log, poison as `none`. -/
def Pkg.slabPeek (p : Pkg) (f a : Nat) : Option Byte :=
  match p.slabWord f (a / 8 * 8) with
  | .ok d => some (BitVec.ofNat 8 (d / 256 ^ (a % 8)))
  | .corrected d => some (BitVec.ofNat 8 (d / 256 ^ (a % 8)))
  | .bad => none

end Sys2Proof.Machine
end

