-- ==== Sys2Proof/Machine/Digest.lean ====
section
/-! DEFINITION. Steps of the running plan, the marking of a step as defective (R59), and the digest units: capture of
port-A writes, unit hashes, folding of provisional terms (R366, R367, R407 to R411). -/
namespace Sys2Proof.Machine

open Sys2Proof

/-! Steps (R37, R417). -/

/-- Step counter of the step that a tick of the running plan lies in. -/
def Pkg.stepOf (p : Pkg) (t : Nat) : Nat :=
  match p.job.cur with
  | some c => c.stepBase + (t - p.job.start) / c.img.stepTicks
  | none => 0

/-- First tick of the step with counter `k`, and the tick after its last. -/
def Pkg.stepStart (p : Pkg) (k : Nat) : Nat :=
  match p.job.cur with
  | some c => p.job.start + (k - c.stepBase) * c.img.stepTicks
  | none => 0
def Pkg.stepEnd (p : Pkg) (k : Nat) : Nat := p.stepStart k + p.stepTicks

/-- START_TICK of the running plan (R37); for a pupil, that of its tutor's plan (R422). -/
def Pkg.startTick (p : Pkg) : Nat := match p.job.cur with | some c => c.startTick | none => 0

/-- Logical fen as a number, for logs and headers; an unmapped fen counts as 0. -/
def Pkg.logNum (p : Pkg) (f : Nat) : Nat := (p.logOf f).getD 0

def Pkg.updDig (p : Pkg) (g : Dig → Dig) : Pkg := { p with dig := g p.dig }
def Pkg.updStep (p : Pkg) (k : Nat) (g : DigStep → DigStep) : Pkg :=
  p.updDig fun d => { d with steps := AMap.put d.steps k (g (d.steps.getD k .init)) }

/-- Log at DLOG with the count that drives the plan (R427). -/
def Pkg.dlog (p : Pkg) (code info : Nat) (k : Option Nat) : Pkg := p.log .dlog 0 code p.refCount info k

/-- The step that holds tick `t` is defective by an event, and its requests fail (R59, R151, R253). -/
def Pkg.defect (p : Pkg) (t code : Nat) : Pkg :=
  if p.job.cur.isSome && decide (p.job.start ≤ t) && (p.planRuns || (p.dig.steps.find? (p.stepOf t)).isSome) then
    let p := p.updStep (p.stepOf t) fun s => { s with defect := some (s.defect.getD code) }
    if p.planRuns then p.updDig fun d => { d with reports := d.reports ++ [(none, code, p.stepOf t)] } else p
  else p

/-! Digest points (R407). -/

structure DPoint where
  fen : Nat
  kind : Nat
  stream : Nat
  tick : Nat
  saddr : Nat
  beats : Nat
  i0 : Nat
  j0 : Nat
  slot0 : Nat
  ub : Nat
  nrun : Nat
deriving DecidableEq, Repr

def DPoint.parse (b : List Byte) : DPoint :=
  { fen := leAt b 0 1, kind := leAt b 1 1, stream := leAt b 2 2, tick := leAt b 4 4, saddr := leAt b 8 4,
    beats := leAt b 12 4, i0 := leAt b 16 4, j0 := leAt b 20 4, slot0 := leAt b 24 2, ub := leAt b 26 1,
    nrun := leAt b 27 1 }

/-- Slot and run index of a unit (R408). -/
def DPoint.slotOf (d : DPoint) (u : Nat) : Nat × Nat :=
  if d.kind = 1 then (d.slot0 + u, 0)
  else if d.kind = 2 then (d.slot0 + u / d.nrun, u % d.nrun)
  else (0xFFFF, 0)

/-- Digest points of the running plan. -/
def Pkg.points (p : Pkg) : List (List Byte) := match p.job.cur with | some c => c.tab.points | none => []
def Pkg.dkey (p : Pkg) : List Byte :=
  match p.job.cur with
  | some c => match c.arm with | some a => a.dkey | none => List.replicate 16 0#8
  | none => List.replicate 16 0#8

/-- The points of a step are open from its start (R409). -/
def Pkg.openPoints (p : Pkg) (k : Nat) : Pkg :=
  let es := (List.range p.points.length).map fun i => ({ idx := i, step := k, taken := [], due := none } : DigPoint)
  (p.updStep k id).updDig fun d => { d with open_ := d.open_ ++ es }

/-- A beat as it stands, poisoned words as 0, with its poison (R409, R410). -/
def Pkg.peekBeat (p : Pkg) (f a : Nat) : Beat :=
  let ws := (List.range 64).map fun i =>
    match p.slabWord f (a + 8 * i) with
    | .ok d => (leBytes 8 d, false)
    | .corrected d => (leBytes 8 d, false)
    | .bad => (List.replicate 8 0#8, true)
  { bytes := (ws.map Prod.fst).flatten, poison := ws.any Prod.snd }

/-- The unit header of R410. -/
def unitHeader (d : DPoint) (u : Nat) (poison : Bool) : List Byte :=
  let sl := d.slotOf u
  leBytes 2 d.stream ++ leBytes 2 (b2n poison + (if d.kind = 1 then 2 else 0) + (if d.kind = 2 then 4 else 0)) ++
    leBytes 4 (d.i0 + u) ++ leBytes 4 d.j0 ++ leBytes 2 sl.1 ++ leBytes 1 sl.2 ++ [0#8]

/-- Hash and poison of unit `u` of a point from its taken beats (R410). -/
def unitHash (key : List Byte) (d : DPoint) (taken : AMap Beat) (u : Nat) : Nat × Bool :=
  let bs := (List.range d.ub).map fun i => taken.getD (u * d.ub + i) { bytes := [], poison := false }
  let poison := bs.any Beat.poison
  (ofLe (aesCmac key (unitHeader d u poison ++ (bs.map fun b => padTo 512 b.bytes).flatten)), poison)

def addM (m : AMap Nat) (k v : Nat) : AMap Nat := AMap.set 0 m k ((m.getD k 0 + v) % 2 ^ 128)

/-- One unit's term joins its accumulator (R411). -/
def Pkg.addUnit (d : DPoint) (taken : AMap Beat) (die k : Nat) (p : Pkg) (u : Nat) : Pkg :=
  let (h, poison) := unitHash p.dkey d taken u
  let (slot, r) := d.slotOf u
  if d.kind = 0 then
    let p := p.updStep k fun s => { s with plain := addM s.plain die h, poison := s.poison || poison }
    if poison then p.updDig fun g => { g with reports := g.reports ++ [(none, 0, k)] } else p
  else if d.kind = 1 then
    let p := p.updStep k fun s =>
      { s with slotted := addM s.slotted (die * 1024 + slot) h, hasSlotted := die :: s.hasSlotted,
               poison := s.poison || poison }
    if poison then p.updDig fun g => { g with reports := g.reports ++ [(some slot, 0, k)] } else p
  else if d.kind = 2 then
    let p := p.updStep k fun s => { s with hasSlotted := die :: s.hasSlotted }
    let key := (die * 1024 + slot) * 9 + r
    p.updDig fun g =>
      let o := g.prov.getD key (0, false)
      { g with prov := AMap.put g.prov key ((o.1 + h) % 2 ^ 128, o.2 || poison) }
  else p

/-- One commit notice (R367). A slot above 1023 that is not `0xFFFF` has no accumulator: nothing is folded (DESIGN CHOICE,
log entry 139). -/
def Pkg.commitNotice (die k : Nat) (p : Pkg) (n : List Byte) : Pkg :=
  let slot := leAt n 0 2
  let m := leAt n 2 1
  if slot = 0xFFFF then p
  else
    let idx := (List.range (if m ≤ 9 ∧ slot < 1024 then m else 0)).map fun i => (die * 1024 + slot) * 9 + i
    let es := idx.map fun i => p.dig.prov.getD i (0, false)
    let sum := (es.map Prod.fst).foldl (fun a b => a + b) 0
    let poison := es.any Prod.snd
    let p := p.updStep k fun s =>
      { s with slotted := if m ≤ 9 ∧ slot < 1024 then addM s.slotted (die * 1024 + slot) sum else s.slotted,
               poison := s.poison || poison, incomplete := s.incomplete || decide (9 < m) }
    let p := p.updDig fun g =>
      { g with prov := if slot < 1024 then (List.range 9).foldl (fun q i => AMap.erase q ((die * 1024 + slot) * 9 + i)) g.prov
                       else g.prov,
               reports := if poison then g.reports ++ [(some slot, 0, k)] else g.reports }
    if 9 < m then p.dlog 0x00C0 0 none else p

/-- A closed point enters the digest of its step, and is a point no more (R367, R409 to R411). -/
def Pkg.foldPoint (p : Pkg) (o : DigPoint) : Pkg :=
  match (p.points.map DPoint.parse)[o.idx]? with
  | none => p
  | some d =>
      let die := match p.physOf d.fen with | some f => f / 72 | none => 0
      let units := d.beats / max 1 d.ub
      let sum := ((List.range units).map fun u => (unitHash p.dkey d o.taken u).1).foldl (fun a b => a + b) 0
      let p := (List.range units).foldl (Pkg.addUnit d o.taken die o.step) p
      let b0 := o.taken.getD 0 { bytes := [], poison := false }
      let p := if d.kind = 3 then (chunksOf 8 b0.bytes).foldl (Pkg.commitNotice die o.step) p else p
      let p := if d.kind = 4 then p.updStep o.step fun s => { s with mask := AMap.put s.mask die b0.bytes } else p
      let p := p.updStep o.step fun s =>
        { s with points := s.points + 1, traces := s.traces ++ [(o.idx, sum % 2 ^ 128)] }
      p.updDig fun g => { g with open_ := g.open_.filter fun q => q.idx ≠ o.idx || q.step ≠ o.step }

/-- The points among those open that `sel` selects are folded, oldest first. -/
def Pkg.foldPoints (p : Pkg) (sel : DigPoint → Bool) : Pkg := (p.dig.open_.filter sel).foldl Pkg.foldPoint p

/-- The points of a fen whose DIG.FOLD latency has run by its local tick `t` (R45). -/
def Pkg.digFold (p : Pkg) (f t : Nat) : Pkg :=
  p.foldPoints fun o =>
    (match o.due with | some b => decide (b ≤ t) | none => false) &&
    (match (p.points.map DPoint.parse)[o.idx]? with | some d => decide (p.logOf f = some d.fen) | none => false)

/-- Capture of the beats that port A wrote in local tick `t` of a fen (R409). -/
def Pkg.digCapture (p : Pkg) (f t : Nat) (beats : List Nat) : Pkg :=
  match p.logOf f with
  | none => p
  | some l =>
    if p.job.cur.isSome && decide (p.job.start ≤ t) && !beats.isEmpty then
      let k := p.stepOf t
      let ofs := t - p.stepStart k
      p.dig.open_.foldl (fun (p : Pkg) o =>
        match (p.points.map DPoint.parse)[o.idx]? with
        | none => p
        | some d =>
          let hits := beats.filter fun a =>
            decide (o.step = k) && decide (d.fen = l) && decide (d.tick ≤ ofs) && decide (d.saddr ≤ a) &&
            decide (a < d.saddr + 512 * d.beats) && (o.taken.find? ((a - d.saddr) / 512)).isNone
          if hits.isEmpty then p
          else
            let tk := hits.foldl (fun m a => AMap.put m ((a - d.saddr) / 512) (p.peekBeat f a)) o.taken
            let o2 := { o with taken := tk, due := if tk.length < d.beats then none else some (t + 24) }
            p.updDig fun g =>
              { g with open_ := g.open_.map fun q => if q.idx = o.idx && q.step = o.step then o2 else q }) p
    else p

end Sys2Proof.Machine
end

