-- ==== Sys2Proof/Machine/Operands.lean ====
section
/-! DEFINITION. Station command words: layouts, extents, legality and the ticks of every access and result
(R144 to R171, R277, R152 to R176). -/
namespace Sys2Proof.Machine

open Sys2Proof

/-! The word (R144). -/
def opOf (w : W128) : Nat := bits w 127 120
def ofsOf (w : W128) : Nat := bits w 119 96
def epOf (w : W128) : Nat := bits w 95 88

/-- Station of an opcode that the manual defines (R145, R155 to R171, R277). -/
def stationOf (op : Nat) : Option Station :=
  if 0x01 ≤ op ∧ op ≤ 0x06 then some .te
  else if (0x20 ≤ op ∧ op ≤ 0x22) ∨ (0x28 ≤ op ∧ op ≤ 0x31) ∨ (0x38 ≤ op ∧ op ≤ 0x3E) ∨ (0x40 ≤ op ∧ op ≤ 0x46) then some .ve
  else if op = 0x80 ∨ op = 0x81 ∨ (0x84 ≤ op ∧ op ≤ 0x86) then some .sm
  else if op = 0xC1 then some .samp
  else if op = 0xE0 then some .lx
  else none

/-! Fields. -/
-- TE.LDA, TE.LDB
def ldSaddr (w : W128) : Nat := bits w 87 64
def ldFmt (w : W128) : Option Fmt := let c := bits w 63 60; if c ≤ 8 then Fmt.ofCode c else none
def ldBuf (w : W128) : Nat := bits w 59 59
-- TE.MAC
def macA (w : W128) : Nat := bits w 87 87
def macB (w : W128) : Nat := bits w 86 86
def macAcc (w : W128) : Nat := bits w 85 85
def macClear (w : W128) : Bool := bit w 84
def macDrain (w : W128) : Bool := bit w 83
def macP0 (w : W128) : Nat := bits w 82 75
def macPasses (w : W128) : Nat := bits w 74 66
def macOfmt (w : W128) : Nat := bits w 65 64
def macDaddr (w : W128) : Nat := bits w 63 40
-- TE.DRAIN, TE.ADDW, TE.CLR
def bankOf (w : W128) : Nat := bits w 87 87
def drOfmt (w : W128) : Nat := bits w 86 85
def drClr (w : W128) : Bool := bit w 84
def drDaddr (w : W128) : Nat := bits w 83 60
def addwSaddr (w : W128) : Nat := bits w 86 63
-- VE
def veD (w : W128) : Nat := bits w 87 83
def veA (w : W128) : Nat := bits w 82 78
def veB (w : W128) : Nat := bits w 77 73
def veC (w : W128) : Nat := bits w 72 68
def veLane (w : W128) : Nat := bits w 67 60
def vePosBase (w : W128) : Nat := bits w 67 36
def vePosLimit (w : W128) : Nat := bits w 35 4
def veFmt (w : W128) : Option Fmt := Fmt.ofCode (bits w 82 79)
def veSaddr (w : W128) : Nat := bits w 78 55
def veScaddr (w : W128) : Nat := bits w 54 31
def veValue (w : W128) : W32 := BitVec.ofNat 32 (bits w 82 51)
def veAd (w : W128) : Nat := bits w 72 70
def veClr (w : W128) : Bool := bit w 69
def veWide (w : W128) : Nat := bits w 68 45
-- SM
def cpSrc (w : W128) : Nat := bits w 87 64
def cpDst (w : W128) : Nat := bits w 63 40
def cpBeats (w : W128) : Nat := bits w 39 28
def sdSrc (w : W128) : Nat := bits w 87 64
def sdFlits (w : W128) : Nat := bits w 63 52
def sdKind (w : W128) : Nat := bits w 51 50
def sdDest (w : W128) : Nat := bits w 49 42
def sdMc (w : W128) : Nat := bits w 41 40
def sdExtent (w : W128) : Nat := bits w 39 35
def sdVc (w : W128) : Nat := bits w 34 33
def sdDaddr (w : W128) : Nat := bits w 32 9
def slSlu (w : W128) : Nat := bits w 87 86
def slClass (w : W128) : Nat := bits w 85 85
def slBeats (w : W128) : Nat := bits w 84 82 + 1
def slAddr (w : W128) : Nat := bits w 81 38
def slSaddr (w : W128) : Nat := bits w 37 14
def slDaddr (w : W128) : Nat := bits w 85 62
-- SAMP.DRAW
def drBank (w : W128) : Nat := bits w 87 87
def drSlot (w : W128) : Nat := bits w 86 77
def drVocab (w : W128) : Nat := bits w 76 58
def drPos (w : W128) : Nat := bits w 57 26
def drDidx (w : W128) : Nat := bits w 25 22
def drDraw (w : W128) : Nat := bits w 21 14
def drRidx (w : W128) : Nat := bits w 13 10
-- LX.HDR
def lxPort (w : W128) : Nat := bits w 87 84
def lxEntry (w : W128) : Nat := bits w 83 74
def lxCount (w : W128) : Nat := bits w 73 64 + 1
def lxNull (w : W128) : Bool := bit w 63
def lxVc (w : W128) : Nat := bits w 62 61
def lxDest (w : W128) : Nat := bits w 60 47
def lxSpace (w : W128) : Nat := bits w 46 46
def lxAddr (w : W128) : Nat := bits w 45 22

/-! Extents (R34, R153, R162). -/

/-- Beats of a TE operand tile. -/
def tileBeats : Fmt → Nat
  | .e4m3 => 32 | .e5m2 => 32 | .int8 => 32 | .int4 => 16 | .bf16 => 64 | .mxfp4 => 17 | .mxfp6a => 25
  | .mxfp6b => 25 | .mxint8 => 33 | .fp32 => 128
/-- Beats of a drained tile: FP32, BF16, W160. -/
def drainBeats (ofmt : Nat) : Nat := if ofmt = 0 then 128 else if ofmt = 1 then 64 else 640
/-- Element bytes of a vector tile. -/
def vecBytes (f : Fmt) : Nat := 32 * f.width
/-- Addresses of the beats that bytes [a, a + n) touch. -/
def beatsOf (a n : Nat) : List Nat :=
  if n = 0 then [] else (List.range ((a + n - 1) / 512 - a / 512 + 1)).map fun i => (a / 512 + i) * 512
/-- Beats of a vector tile and its scales, element data first. -/
def vecBeats (w : W128) (f : Fmt) : List Nat :=
  let e := beatsOf (veSaddr w) (vecBytes f)
  if f.isMx then e ++ (beatsOf (veScaddr w) 8).filter fun a => !e.contains a else e

def inSlab (a n : Nat) : Bool := decide (a + n ≤ 10485760)
def aligned (a k : Nat) : Bool := decide (a % k = 0)

/-- A pair of TE operand formats and its pass geometry: rows per pass, reduction indices per pass, passes per tile
(R132, R157). -/
def passGeom (a b : Fmt) : Option (Nat × Nat × Nat) :=
  if (a = .mxfp4 && b = .mxfp4) || (a = .int4 && b = .int4) then some (4, 128, 32)
  else if (a.isFp8 && b.isFp8) || (a.isMx && b.isMx) ||
      ((a = .int8 || a = .int4) && (b = .int8 || b = .int4)) then some (2, 128, 64)
  else if a = .bf16 && b = .bf16 then some (2, 32, 256)
  else none

/-! Latencies (R45, R176). -/
def drainLat (lc2 : Bool) : Nat := if lc2 then 14 else 16
def funcLat (lc2 : Bool) : Nat := if lc2 then 11 else 12
def redLat (lc2 : Bool) : Nat := if lc2 then 9 else 10
def loadVis (b : Nat) : Nat := if b ≤ 32 then 34 else 2 + b
def topkLat (lc2 : Bool) : Nat := if lc2 then 1024 else 1152

/-- Engine storage a command reads or writes (R147). -/
inductive Res where
  | bufA (n : Nat) | bufB (n : Nat) | bank (n : Nat) | vec (n : Nat) | acc (n : Nat)
deriving DecidableEq, Repr

/-- Accesses and results of a command by offset from its start: beats read, beats written with the offset at which
they become visible, storage read at the start, storage written, and the offset of the last of them. -/
structure Foot where
  rd : List (Nat × Nat)
  wr : List (Nat × Nat × Nat)
  regR : List Res
  regW : List (Res × Nat)
  last : Nat
deriving DecidableEq, Repr

def Foot.empty : Foot := { rd := [], wr := [], regR := [], regW := [], last := 0 }

/-- Beats at offsets `o`, `o + k`, …. -/
def spread (a n o k : Nat) : List (Nat × Nat) := (List.range n).map fun j => (a / 512 * 512 + 512 * j, o + k * j)
def seqBeats (bs : List Nat) (o : Nat) : List (Nat × Nat) := bs.zipIdx.map fun x => (x.1, o + x.2)

/-- Footprint of a drain whose V lies `v` ticks after the start (R158). -/
def drainWr (daddr ofmt v : Nat) : List (Nat × Nat × Nat) :=
  (List.range (drainBeats ofmt)).map fun j => (daddr + 512 * j, v - 1 + j, v + j)

/-- Footprint of a command (R156 to R167, R176). `n`: beats of the sluice entry that SM.SLPUT writes. -/
def foot (lc2 : Bool) (n : Nat) (w : W128) : Foot :=
  let op := opOf w
  if op = 0x01 ∨ op = 0x02 then
    let b := tileBeats ((ldFmt w).getD .e4m3)
    let r := if op = 0x01 then Res.bufA (ldBuf w) else Res.bufB (ldBuf w)
    { Foot.empty with rd := spread (ldSaddr w) b 0 1, regW := [(r, loadVis b)], last := loadVis b }
  else if op = 0x03 then
    let e := 2 * macPasses w
    let v := 2 * (macPasses w - 1) + drainLat lc2
    let wr := if macDrain w then drainWr (macDaddr w) (macOfmt w) v else []
    { rd := [], wr := wr, regR := [.bufA (macA w), .bufB (macB w), .bank (macAcc w)],
      regW := [(.bank (macAcc w), e)], last := max e (v * b2n (macDrain w) + wr.length) }
  else if op = 0x04 then
    let v := drainLat lc2
    { Foot.empty with wr := drainWr (drDaddr w) (drOfmt w) v, regR := [.bank (bankOf w)],
                      last := v + drainBeats (drOfmt w) }
  else if op = 0x05 then
    { rd := spread (addwSaddr w) 640 0 1, wr := [], regR := [.bank (bankOf w)], regW := [(.bank (bankOf w), 642)],
      last := 642 }
  else if op = 0x06 then { Foot.empty with regW := [(.bank (bankOf w), 2)], last := 2 }
  else if op = 0x20 then
    let bs := match veFmt w with | some f => vecBeats w f | none => []
    { Foot.empty with rd := seqBeats bs 0, regW := [(.vec (veD w), 6)], last := 6 }
  else if op = 0x21 then
    let bs := match veFmt w with | some f => vecBeats w f | none => []
    { Foot.empty with wr := (seqBeats bs 3).map fun x => (x.1, x.2, 6), regR := [.vec (veD w)], last := 6 }
  else if op = 0x22 then { Foot.empty with regW := [(.vec (veD w), 6)], last := 6 }
  else if 0x28 ≤ op ∧ op ≤ 0x31 then
    let two := decide (op ≤ 0x2D)
    let rs := [Res.vec (veA w)] ++ (if two then [Res.vec (veB w)] else []) ++
      (if op = 0x2B then [Res.vec (veC w)] else [])
    { Foot.empty with regR := rs, regW := [(.vec (veD w), 6)], last := 6 }
  else if 0x38 ≤ op ∧ op ≤ 0x3E then
    { Foot.empty with regR := [.vec (veA w)], regW := [(.vec (veD w), funcLat lc2)], last := funcLat lc2 }
  else if op = 0x40 then
    { Foot.empty with regR := [.vec (veA w), .acc (veAd w)], regW := [(.acc (veAd w), redLat lc2)],
                      last := redLat lc2 }
  else if op = 0x41 ∨ op = 0x42 then
    { Foot.empty with regR := [.vec (veA w), .vec (veB w)], regW := [(.vec (veD w), redLat lc2)],
                      last := redLat lc2 }
  else if op = 0x43 then
    { Foot.empty with rd := seqBeats (beatsOf (veWide w) 20) 0, regR := [.acc (veAd w)],
                      regW := [(.acc (veAd w), redLat lc2)], last := redLat lc2 }
  else if op = 0x44 then
    let bs := beatsOf (veWide w) 20
    let l := redLat lc2
    { Foot.empty with wr := (seqBeats bs (l - bs.length)).map fun x => (x.1, x.2, l), regR := [.acc (veAd w)],
                      regW := if veClr w then [(.acc (veAd w), l)] else [], last := l }
  else if op = 0x45 then
    { Foot.empty with regR := [.acc (veAd w)], regW := [(.vec (veD w), redLat lc2)], last := redLat lc2 }
  else if op = 0x46 then { Foot.empty with regW := [(.acc (veAd w), 6)], last := 6 }
  else if op = 0x80 then
    { Foot.empty with rd := spread (cpSrc w) (cpBeats w) 0 2,
                      wr := (spread (cpDst w) (cpBeats w) 3 2).map fun x => (x.1, x.2, x.2 + 1),
                      last := 2 * cpBeats w + 2 }
  else if op = 0x81 then
    let src := sdSrc w
    let fs := (List.range (sdFlits w)).filter fun f =>
      decide (f = 0) || decide ((src + 256 * f) / 512 ≠ (src + 256 * (f - 1)) / 512)
    { Foot.empty with rd := fs.map fun f => ((src + 256 * f) / 512 * 512, f), last := 2 + sdFlits w }
  else if op = 0x84 then { Foot.empty with last := 0 }
  else if op = 0x85 then
    { Foot.empty with wr := (spread (slDaddr w) n 3 1).map fun x => (x.1, x.2, x.2 + 1), last := 3 + n }
  else if op = 0x86 then { Foot.empty with rd := spread (slSaddr w) (slBeats w) 0 1, last := slBeats w }
  else if op = 0xE0 then { Foot.empty with last := 2 }
  else Foot.empty

/-! Mesh geometry (R27, R298 to R300, R307). -/

/-- Extra ticks of hops between adjacent rows and columns. -/
def rowCross (r r2 : Nat) : Nat := if (r ≤ 7 ∧ 8 ≤ r2) ∨ (r2 ≤ 7 ∧ 8 ≤ r) then 6 else 0
def colCross (w c c2 : Nat) : Nat := if (c < w / 2 ∧ w / 2 ≤ c2) ∨ (c2 < w / 2 ∧ w / 2 ≤ c) then 6 else 0
def dist (a b : Nat) : Nat := (a - b) + (b - a)

/-- Ticks between two routers at (r, c) and (r2, c2). -/
def meshTicks (w r c r2 c2 : Nat) : Nat := 2 * (dist r r2 + dist c c2) + rowCross r r2 + colCross w c c2

/-- Router of an Issyn port's outbound and inbound attachment (R298). -/
def portOut (w q : Nat) : Nat × Nat := if q < 8 then (2 * q + 1, 0) else (2 * (q - 8) + 1, w - 1)
def portIn (w q : Nat) : Nat × Nat := if q < 8 then (2 * q, 0) else (2 * (q - 8), w - 1)
/-- Router of a die's sampler. -/
def sampAt (w d : Nat) : Nat × Nat := (if d < 2 then 0 else 15, if d % 2 = 0 then 0 else w / 2)

/-- Hop latency from a logical fen to a logical fen, a sampler, an Issyn port, and the reverse of the last two. -/
def hopFen (w l l2 : Nat) : Nat := meshTicks w (l / w) (l % w) (l2 / w) (l2 % w)
def hopSamp (w l d : Nat) : Nat := meshTicks w (l / w) (l % w) (sampAt w d).1 (sampAt w d).2 + 6
def hopEdge (w l q : Nat) : Nat := meshTicks w (l / w) (l % w) (portOut w q).1 (portOut w q).2 + 8
def hopFromPort (w q l : Nat) : Nat := meshTicks w (portIn w q).1 (portIn w q).2 (l / w) (l % w) + 8

/-- Routers that a flit between two fens leaves, its local output included. -/
def routeFens (w l l2 : Nat) : List Nat :=
  let up (a b : Nat) : List Nat := (List.range (dist a b)).map fun i => if a < b then a + i else a - i
  (up (l / w) (l2 / w)).map (fun r => r * w + l % w) ++ (up (l % w) (l2 % w)).map (fun c => l2 / w * w + c) ++ [l2]

/-- The routers of a route to `d` and on to `m` with the tick at which the plan has a flit leave each, when it leaves the
first in tick `t`; the last is the tick in which it reaches `m` (R299, R300, R307). -/
def planRoute (w l d m t : Nat) : List (Nat × Nat) :=
  (routeFens w l d).map (fun q => (q, t + hopFen w l q)) ++
    ((routeFens w d m).drop 1).map fun q => (q, t + hopFen w l d + hopFen w d q)

/-- Fens of a row or column multicast, DEST first (R166); empty when the run leaves the mesh. -/
def mcFens (w mc dest ext : Nat) : List Nat :=
  if mc = 1 then if dest % w + ext < w then (List.range (ext + 1)).map fun i => dest + i else []
  else if mc = 2 then if dest / w + ext < 16 then (List.range (ext + 1)).map fun i => dest + i * w else []
  else [dest]

/-- Extra ticks of the i-th fen of a multicast run after DEST. -/
def mcExtra (w dest l : Nat) : Nat := hopFen w dest l

end Sys2Proof.Machine
end

