-- ==== Sys2Proof/Machine/Engines.lean ====
section
/-! DEFINITION. What the engines compute: tensor passes, drains, vector functions and reductions, conversions
(R154 to R163, R172, R483). -/
namespace Sys2Proof.Machine

open Sys2Proof

/-! Tiles and banks. -/

/-- Value of element `i` of packed data in a format, with its block scale (R122, R123). -/
def elemAt (f : Fmt) (data scales : List Byte) (i : Nat) : Fv :=
  let v := elemVal f (elemCode f data i)
  if f.isMx then scaleVal v ((scales.getD (i / 32) 0#8).toNat) else v

/-- Values of the 16,384 elements of an operand tile; a buffer never loaded holds zeros. -/
def Tile.vals (t : Tile) : Array Fv :=
  let sc := t.bytes.drop (16384 * t.fmt.width / 8)
  ((List.range 16384).map fun i => elemAt t.fmt t.bytes sc i).toArray

/-- An accumulator bank as an array, and back in canonical form. -/
def Bank.arr (b : Bank) : Array Acc := b.acc.foldl (fun a x => a.setIfInBounds x.1 x.2) (Array.replicate 16384 Acc.zero)
def bankOfArr (a : Array Acc) : AMap Acc :=
  (a.toList.zipIdx.map fun x => (x.2, x.1)).filter fun x => x.2 ≠ Acc.zero

/-- Passes `p0` to `p0 + n - 1` over two tiles (R157): each row of a pass adds its products to its 128 elements. -/
def macPassesOn (ta tb : Tile) (g : Nat × Nat × Nat) (p0 n : Nat) (acc : Array Acc) : Array Acc :=
  let va := ta.vals
  let vb := tb.vals
  let (rows, ks, _) := g
  let per := 128 / ks
  (List.range n).foldl (fun acc i =>
    let q := p0 + i
    let r0 := (q / per) * rows
    let k0 := (q % per) * ks
    (List.range rows).foldl (fun acc dr =>
      (List.range 128).foldl (fun acc nn =>
        let m := r0 + dr
        let s := (List.range ks).foldl (fun (s : Acc) dk =>
          let x := va.getD (m * 128 + k0 + dk) (.fin false 0 0)
          let y := vb.getD (nn * 128 + k0 + dk) (.fin false 0 0)
          s.add (termOf (mulFv x y))) (acc.getD (m * 128 + nn) Acc.zero)
        acc.setIfInBounds (m * 128 + nn) s) acc) acc) acc

/-- TE.MAC (R157, R483): the bank after its passes. -/
def macBank (ta tb : Tile) (g : Nat × Nat × Nat) (p0 n : Nat) (clear : Bool) (b : Bank) : Bank :=
  let b0 : Bank := if clear then Bank.init else b
  { acc := bankOfArr (macPassesOn ta tb g p0 n b0.arr), poison := b0.poison || ta.poison || tb.poison }

/-- Bytes of a drained tile (R133, R136, R153). -/
def drainBytes (ofmt : Nat) (b : Bank) : List Byte :=
  let a := b.arr.toList
  if ofmt = 0 then (a.map fun x => leBytes 4 x.to32.toNat).flatten
  else if ofmt = 1 then (a.map fun x => leBytes 2 x.toBf).flatten
  else (a.map fun x => leBytes 20 x.export.toNat).flatten

/-- Beats of a drain's snapshot, all poisoned when the bank is (R158, R483). -/
def drainSnap (ofmt : Nat) (b : Bank) : List Beat :=
  (chunksOf 512 (drainBytes ofmt b)).map fun x => { bytes := x, poison := b.poison }

/-- TE.ADDW (R159): a wide-partial tile joins a bank. -/
def addwBank (beats : List Beat) (b : Bank) : Bank :=
  let bs := (beats.map Beat.bytes).flatten
  let ws := (chunksOf 20 bs).map fun x => BitVec.ofNat 160 (ofLe x)
  { acc := bankOfArr ((b.arr.toList.zip ws).map fun x => x.1.add (wideTerm x.2)).toArray,
    poison := b.poison || beats.any Beat.poison }

/-! Vector registers. -/

/-- All 256 lanes. -/
def VReg.all (r : VReg) : List W32 := (List.range 256).map fun i => r.lanes.getD i 0#32
def Ve.reg (v : Ve) (n : Nat) : VReg := v.v.getD n .init
def Ve.ac (v : Ve) (n : Nat) : VAcc := v.a.getD n .init
def Ve.setReg (v : Ve) (n : Nat) (r : VReg) : Ve := { v with v := AMap.set VReg.init v.v n r }
def Ve.setAc (v : Ve) (n : Nat) (r : VAcc) : Ve := { v with a := AMap.set VAcc.init v.a n r }

/-- VE.LD (R162): the bytes of a vector tile as binary32 lanes. -/
def vecLoad (f : Fmt) (data scales : List Byte) : List W32 :=
  (List.range 256).map fun i => if f = .fp32 then BitVec.ofNat 32 (leAt data (4 * i) 4) else fvTo32 (elemAt f data scales i)

/-- VE.ST (R162): the element bytes and the scale bytes of a register in a format. -/
def vecStore (f : Fmt) (xs : List W32) : List Byte × List Byte :=
  if f = .fp32 then ((xs.map fun x => leBytes 4 x.toNat).flatten, [])
  else if f.isMx then
    let q := (chunksOf 32 xs).map (mxQuant f)
    (packCodes f (q.map Prod.snd).flatten, q.map fun x => BitVec.ofNat 8 x.1)
  else (packCodes f (xs.map (toElem f)), [])

/-- Lanes of an element or function command from its sources (R161). -/
def veLanes (op : Nat) (w : W128) (a b c : List W32) : List W32 :=
  if op = 0x28 then List.zipWith fadd a b
  else if op = 0x29 then List.zipWith fsub a b
  else if op = 0x2A then List.zipWith fmul a b
  else if op = 0x2B then List.zipWith (fun (x : W32 × W32) z => ffma x.1 x.2 z) (a.zip b) c
  else if op = 0x2C then List.zipWith fmin a b
  else if op = 0x2D then List.zipWith fmax a b
  else if op = 0x2E then a.map fneg
  else if op = 0x2F then a.map fabs
  else if op = 0x30 then List.replicate 256 (a.getD (veLane w) 0#32)
  else if op = 0x31 then
    a.zipIdx.map fun x => if vePosLimit w ≤ vePosBase w + x.2 then 0xFF800000#32 else x.1
  else if op = 0x38 then a.map exp2
  else if op = 0x39 then a.map log2f
  else if op = 0x3A then a.map rcp
  else if op = 0x3B then a.map rsqrt
  else if op = 0x3C then a.map tanhf
  else if op = 0x3D then a.map gelu
  else if op = 0x3E then a.map silu
  else if op = 0x41 then List.replicate 256 (a.foldl fmax (b.getD 0 0#32))
  else if op = 0x42 then List.replicate 256 (a.foldl fmin (b.getD 0 0#32))
  else List.replicate 256 (veValue w)

/-- What a VE command captures in its start tick (R160): result lanes, result accumulator, and the poison of both. -/
def veStart (v : Ve) (w : W128) : List W32 × Acc × Bool :=
  let op := opOf w
  let a := v.reg (veA w)
  let b := v.reg (veB w)
  let c := v.reg (veC w)
  let ad := v.ac (veAd w)
  if op = 0x20 ∨ op = 0x43 then ([], ad.acc, op = 0x43 && ad.poison)
  else if op = 0x21 then ((v.reg (veD w)).all, .zero, (v.reg (veD w)).poison)
  else if op = 0x22 then (veLanes op w [] [] [], .zero, false)
  else if op = 0x40 then ([], sum32 ad.acc a.all, ad.poison || a.poison)
  else if op = 0x44 then ([], ad.acc, ad.poison)
  else if op = 0x45 then (List.replicate 256 ad.acc.to32, .zero, ad.poison)
  else if op = 0x46 then ([], .zero, false)
  else
    let two := decide (op ≤ 0x2D) || decide (op = 0x41) || decide (op = 0x42)
    (veLanes op w a.all b.all c.all, .zero, a.poison || (two && b.poison) || (op = 0x2B && c.poison))

/-! The sampler's draw (R172, R173). -/

def philoxRound (c : Nat × Nat × Nat × Nat) (k : Nat × Nat) : Nat × Nat × Nat × Nat :=
  let m := 2 ^ 32
  let x := 0xD2511F53 * c.1
  let y := 0xCD9E8D57 * c.2.2.1
  ((y / m) ^^^ c.2.1 ^^^ k.1, y % m, (x / m) ^^^ c.2.2.2 ^^^ k.2, x % m)
def philoxGo : Nat → (Nat × Nat × Nat × Nat) → (Nat × Nat) → (Nat × Nat × Nat × Nat)
  | 0, c, _ => c
  | n + 1, c, k => philoxGo n (philoxRound c k) ((k.1 + 0x9E3779B9) % 2 ^ 32, (k.2 + 0xBB67AE85) % 2 ^ 32)
/-- Philox-4x32-10 (R173). -/
def philox (c : Nat × Nat × Nat × Nat) (k : Nat × Nat) : Nat × Nat × Nat × Nat := philoxGo 10 c k

/-- Insert a candidate in the order z descending, then index ascending, keeping `k` of them. -/
def insCand (k : Nat) (x : W32 × Nat) (l : List (W32 × Nat)) : List (W32 × Nat) :=
  (l.takeWhile (fun y => !flt y.1 x.1) ++ x :: l.dropWhile fun y => !flt y.1 x.1).take k

/-- A slot table entry (R170). -/
structure SlotEnt where
  temp : W32
  topP : W32
  rep : W32
  topK : Nat
  hist : List Nat
  seed : Nat
  dstFen : Nat
  toRoll : Bool
  dstAddr : Nat
  draft : List Nat
deriving DecidableEq, Repr

def SlotEnt.parse (b : List Byte) : SlotEnt :=
  let rep : W32 := BitVec.ofNat 32 (leAt b 8 4)
  let k := leAt b 12 2
  let n := min 64 (leAt b 14 1)
  { temp := BitVec.ofNat 32 (leAt b 0 4), topP := BitVec.ofNat 32 (leAt b 4 4),
    rep := if flt 0#32 rep && !isPinf rep then rep else 0x3F800000#32,
    topK := if k = 0 ∨ 256 < k then 256 else k,
    hist := (List.range n).map fun i => leAt b (0x40 + 4 * i) 4,
    seed := leAt b 16 8, dstFen := leAt b 0x18 1, toRoll := leAt b 0x19 1 % 2 = 1, dstAddr := leAt b 0x1C 4,
    draft := (List.range 8).map fun i => leAt b (0x20 + 4 * i) 4 }

/-- The logit after the NaN, infinity and repetition rules, and whether NAN_SEEN is set. -/
def logitZ (e : SlotEnt) (j : Nat) (l : W32) : W32 × Bool :=
  let (l, s) := if isNan32 l then (0xFF800000#32, true) else if isPinf l then (0x7F7FFFFF#32, true) else (l, false)
  if !isNinf l && e.hist.contains j then
    (if flt 0#32 l then fmul l (rcp e.rep) else fmul l e.rep, s)
  else (l, s)

/-- The running sums of a list. -/
def psums : Int → List Int → List Int
  | _, [] => []
  | s, x :: r => (s + x) :: psums (s + x) r

/-- `draw` of R172: token, probability, flags (GREEDY 2, NAN_SEEN 4, ALL_MASKED 16). -/
def drawToken (e : SlotEnt) (logits : List W32) (pos dr step : Nat) : Nat × W32 × Nat :=
  let zs := logits.zipIdx.map fun x => logitZ e x.2 x.1
  let z := zs.map Prod.fst
  let nan := if zs.any Prod.snd then 4 else 0
  if z.all isNinf then (0, 0#32, 16 + nan)
  else if !flt 0#32 e.temp then
    let best := z.zipIdx.foldl (fun (b : W32 × Nat) x => if flt b.1 x.1 then x else b) (z.getD 0 0#32, 0)
    (best.2, 0x3F800000#32, 2 + nan)
  else
    let c := (z.zipIdx.filter fun x => !isNinf x.1).foldl (fun l x => insCand e.topK x l) []
    let r := rcp e.temp
    let y := softmax (c.map fun x => fmax (fmin (fmul x.1 r) 0x7F7FFFFF#32) 0xFF7FFFFF#32)
    let w := y.map fun v => match val32 v with | .fin n m ex => enter n m ex | _ => 0
    let sums := psums 0 w
    let total := sums.getLastD 0
    let n :=
      if isNan32 e.topP || !flt e.topP 0x3F800000#32 then c.length
      else
        let tp := match val32 (fmax e.topP 0#32) with | .fin n m ex => enter n m ex | _ => 0
        let need := (total * tp) / ((2 ^ 80 : Nat) : Int)
        match findPos (fun s => decide (need ≤ s)) sums with | some i => i + 1 | none => c.length
    let kept := sums.getD (n - 1) 0
    let x := philox (pos, dr, step % 2 ^ 32, step / 2 ^ 32 % 2 ^ 16) (e.seed % 2 ^ 32, e.seed / 2 ^ 32)
    let u : Int := ((x.2.1 * 2 ^ 32 + x.1 : Nat) : Int)
    let t := (kept * u) / ((2 ^ 64 : Nat) : Int)
    let i := (findPos (fun s => decide (t < s)) sums).getD 0
    ((c.getD i (0#32, 0)).2, y.getD i 0#32, nan)

end Sys2Proof.Machine
end

