-- ==== Sys2Proof/Machine/Ports.lean ====
section
/-! DEFINITION. Shared pieces of the stations: unmapped targets (R57), port A (R209, R210), sluice requests (R167,
R234 to R242), Markbook samples of items (R536), legality of commands (R151). -/
namespace Sys2Proof.Machine

open Sys2Proof

/-- UNMAPPED_TARGET at a fen (R57, R59), with the firing tick. -/
def Pkg.unmapped (p : Pkg) (f fire : Nat) : Pkg :=
  let p := (p.log .fen f 0x0031 fire 0 none).fadd F.fenSkipUnmapped f 1
  p.defect (p.local_ f) 0x0031

/-! Port A. -/

/-- One port-A access: a further one in the tick takes an inserted period (R210). -/
def Pkg.paAccess (p : Pkg) (f a : Nat) : Pkg :=
  let n := (p.fen f).pa
  let p := p.updFen f fun x => { x with pa := x.pa + 1 }
  let p := p.perf .fen f 0x400 1 (engine a)
  if n = 0 then p
  else
    let p := p.updFen f fun x => { x with clk := { x.clk with suppress := x.clk.suppress + 1 } }
    (p.fadd F.fenSlabPortPaInsert f 1).perf .fen f 0x402 1 (engine a)

/-- Bytes of one beat read through port A. -/
def Pkg.paRead (p : Pkg) (f a n : Nat) : Pkg × Beat :=
  let r := (p.paAccess f a).slabRead f a n
  (r.1, { bytes := r.2.1, poison := r.2.2 })

/-- One beat written through port A in parts; the beat is noted for the digest unit (R409). -/
def Pkg.paWrite (p : Pkg) (f : Nat) (parts : List (Nat × List Byte)) (poison : Bool) : Pkg :=
  match parts with
  | [] => p
  | x :: _ =>
    let p := p.paAccess f x.1
    let p := parts.foldl (fun (p : Pkg) x => p.slabWrite f x.1 x.2 poison) p
    p.updFen f fun y => { y with wrote := y.wrote ++ parts.map fun z => (z.1, z.2.length) }

/-! The Markbook's count of items (R536). `kind`: 0 Proctor, 1 TE, 2 VE, 3 SM, 4 LX, 5 SAMP. -/

/-- A die's Markbook sees an item of a fen; `due` is the tick its latency is known. -/
def Pkg.markItem (p : Pkg) (die : Nat) (m : MarkOpen) : Pkg :=
  let src := p.fget F.markCfgSource die
  let cmd := decide (m.st ≠ 0)
  if p.fon F.markCfgEn die && (src = 0 || src = 3 || (src = 1 && !cmd) || (src = 2 && cmd)) &&
      (!p.fon F.markCfgOneFen die || decide (p.fget F.markCfgFen die = m.fen)) then
    let k := p.mark die
    let n := max 1 (p.fget F.markCfgInterval die)
    if k.countdown ≤ 1 then
      let m := { m with no := k.sample }
      p.setMark die { k with countdown := n, sample := k.sample + 1, open_ := k.open_ ++ [m] }
    else p.setMark die { k with countdown := k.countdown - 1 }
  else p

/-- LAG_16 of a fen (R86): lag in sixteenths of a tick, rounded down, saturating. -/
def Pkg.lag16 (p : Pkg) (f : Nat) : Nat := min 0xFFFF ((p.fen f).clk.lag / 22)

def Station.kind : Station → Nat
  | .te => 1 | .ve => 2 | .sm => 3 | .lx => 4 | .samp => 5

/-- The item of a station command, started or illegal. -/
def Pkg.markCmd (p : Pkg) (die : Nat) (st : Station) (q : QCmd) (start due : Nat) (illegal : Bool) (lag : Nat) : Pkg :=
  p.markItem die
    { fen := q.fen, st := st.kind, start := start, due := due, fire := q.fire, pc := q.pc, opcode := opOf q.word,
      ep := epOf q.word, flags := b2n illegal + 4 * b2n q.late, lag16 := lag, no := 0 }

/-! Sluices. -/

def Fen.sluice (x : Fen) (s : Nat) : List SlEnt := x.slu.getD s []
def Fen.setSluice (x : Fen) (s : Nat) (l : List SlEnt) : Fen := { x with slu := AMap.set [] x.slu s l }

/-- The class and ceiling that the SLUICE section lists for a fen's sluice (R247). -/
def Pkg.sluiceBind (p : Pkg) (f s : Nat) : Option (Nat × Nat) :=
  match p.job.cur, p.logOf f with
  | some c, some l => c.tab.sluices.find? (l * 4 + s)
  | _, _ => none

/-- Peat capacity in bytes: 0 while a channel has no trained module (R256, R486). -/
def Pkg.peatBytes (p : Pkg) : Nat :=
  let chans := List.range 8
  if chans.all fun c => p.fon (F.peatModPresent.nth (c % 4)) (c / 4) then
    (chans.map fun c => p.fget (F.peatModCapGib.nth (c % 4)) (c / 4)).foldl min 1023 * 8 * 2 ^ 30
  else 0

/-- An atom address is mapped (R240, R241, R257, R486). -/
def Pkg.atomMapped (p : Pkg) (cls a : Nat) (write : Bool) : Bool :=
  if cls = 0 then
    let s := nbits a 38 36
    let o := nbits a 35 0
    decide (nbits a 43 39 = 0) && decide (o < 0xC00000000) && p.fitted s && (p.stack s).up &&
      !(write && decide (0xBC0000000 ≤ o))
  else
    decide (nbits a 43 41 = 0) && decide (nbits a 40 0 < p.peatBytes)

/-- Pseudo-channel of an address in a stack (R242), and peat channel of an address (R257). -/
def sdramPc (a : Nat) : Nat := nbits a 11 6 ^^^ nbits a 25 20
def peatChan (a : Nat) : Nat := nbits a 10 8 ^^^ nbits a 22 20

/-- Attachment that serves an atom: of a stack the column of its pseudo-channel on its die, of the peat tier the edge of
its channel in the fen's row (R244, R298). -/
def Pkg.attachOf (p : Pkg) (l cls a : Nat) : FlitDst :=
  let w := p.meshW
  if cls = 0 then .mem (nbits a 38 36 / 2) (nbits a 38 36 / 2 % 2 * (w / 2) + sdramPc a % (w / 2))
  else .mem (4 + peatChan a / 4) (l / w)

/-- Router that an attachment of the memory controllers joins. -/
def memAt (w side k : Nat) : Nat :=
  if side < 2 then k else if side < 4 then 15 * w + k else if side = 4 then k * w else k * w + (w - 1)
/-- Input of that router at which the attachment stands. -/
def memSide (side : Nat) : Nat := if side < 2 then 1 else if side < 4 then 2 else if side = 4 then 4 else 3
/-- Ticks of the hop through it: 6 at a stack, 8 over the causeway to an edge die (R244, R300). -/
def memHop (side : Nat) : Nat := if side < 4 then 6 else 8

/-- Plan tick of a router that a flit waits before until its local port injects it. -/
def notYet : Nat := 2 ^ 64

/-- A flit of memory traffic on VC2 from the router of logical position `l` to that of `d`: its routers have no plan tick,
for it waits for slots alone (R244, R301). -/
def Pkg.memFlit (p : Pkg) (src l : Nat) (dst : FlitDst) (d left : Nat) : MFlit :=
  { src := src, dst := dst, addr := 0, data := { bytes := [], poison := false }, len := 256, ep := 256, vc := 2, arr := 0, tries := 0,
    hop := src, inj := 0, route := (planRoute p.meshW l d d 0).map fun z => (z.1, 0), side := 0, left := left,
    blocked := false }
/-- It waits at the local port for its VC2 slot. -/
def MFlit.waiting (m : MFlit) : MFlit :=
  match m.route with
  | (a, _) :: r => { m with route := (a, notYet) :: r }
  | [] => m
/-- A flit joins the mesh; flits of memory traffic are numbered, so that none is another's copy. -/
def Pkg.addMem (p : Pkg) (m : MFlit) : Pkg :=
  { p with mesh := p.mesh ++ [{ m with inj := p.dram.nextEnt }], dram := { p.dram with nextEnt := p.dram.nextEnt + 1 } }

/-- Send request atoms of a fen: one request flit per attachment and, of a write, per four atoms (R244). -/
def Pkg.sendReqs (p : Pkg) (f : Nat) (rs : List DReq) : Pkg :=
  let l := p.logNum f
  let dst (r : DReq) : FlitDst := p.attachOf l r.cls r.addr
  let ds := (rs.map dst).eraseDups
  ds.foldl (fun (p : Pkg) d =>
    let mine := rs.filter fun r => decide (dst r = d)
    let gs := if mine.any DReq.write then chunksOf 4 mine else [mine]
    match d with
    | .mem side k =>
      gs.foldl (fun (p : Pkg) g =>
        p.addMem { (p.memFlit f l d (memAt p.meshW side k) 0).waiting with reqs := g }) p
    | _ => p) p

/-- The answer to a request atom. -/
def DReq.answer (r : DReq) (d : Beat) : DRet := { fen := r.fen, slu := r.slu, ent := r.ent, atom := r.atom, write := r.write, data := d }

/-- Request atoms go to their controllers; those with no address answer at once: a read with poisoned zeros, a write with an
acceptance (R240). -/
def Pkg.sendOrAnswer (p : Pkg) (f : Nat) (rs : List DReq) : Pkg :=
  let gone := rs.filter fun r => !p.atomMapped r.cls r.addr r.write
  let back (r : DReq) : DRet := { r.answer r.data with bad := if r.write then [] else List.range 8 }
  let p := { p with dram := { p.dram with returns := p.dram.returns ++ gone.map back } }
  p.sendReqs f (rs.filter fun r => p.atomMapped r.cls r.addr r.write)

/-- The request atoms `base` to `base + n - 1` of an entry go to their controllers. -/
def Pkg.issueAtoms (p : Pkg) (f s : Nat) (e : SlEnt) (data : List Byte) (poison : Bool) (base n : Nat) : Pkg :=
  let req (k : Nat) : DReq :=
    { fen := f, slu := s, ent := e.id, atom := base + k, cls := e.cls, addr := e.addr + 64 * (base + k), write := e.write,
      data := { bytes := if e.write then sliceB data (64 * k) 64 else List.replicate 64 0#8, poison := if e.write then poison else true },
      held := false }
  p.sendOrAnswer f ((List.range n).map req)

/-- A free slot of a sluice (R234). -/
def Fen.slotFree (x : Fen) (s : Nat) : Bool := decide ((x.sluice s).length < 32)

/-- Take the next entry of a sluice (R235). -/
def Pkg.takeEntry (p : Pkg) (f s : Nat) (e : SlEnt) : Pkg × SlEnt :=
  let l := (p.fen f).sluice s
  let e := { e with id := p.dram.nextEnt }
  ({ p with dram := { p.dram with nextEnt := p.dram.nextEnt + 1 } }.updFen f fun x => x.setSluice s (l ++ [e]), e)

/-- The entry at the head of a sluice: its oldest entry that is not discarded (R235, R239). -/
def Fen.headEntry (x : Fen) (s : Nat) : Option SlEnt := (x.sluice s).find? fun e => !e.dead

/-- Remove the head entry. -/
def Fen.popEntry (x : Fen) (s : Nat) : Fen :=
  match x.headEntry s with
  | some e => x.setSluice s ((x.sluice s).filter fun y => y.id ≠ e.id)
  | none => x

/-- What a read of word `k` of a stored entry finds (R219, R234). -/
def SlEnt.word (e : SlEnt) (k : Nat) : EccRead :=
  match e.raw.find? k with
  | some w => eccDecode w
  | none => .ok (leAt (e.atoms.getD (k / 8) { bytes := [], poison := true }).bytes (k % 8 * 8) 8)
def SlEnt.badWord (e : SlEnt) (k : Nat) : Bool := decide (e.word k = .bad)
def SlEnt.poisoned (e : SlEnt) : Bool := e.atoms.any fun a => a.2.poison

/-- The beats of a read entry: corrected, with poison where an atom carried it or a word is uncorrectable (R234, R481). -/
def SlEnt.beatsOf (e : SlEnt) : List Beat :=
  (List.range e.beats).map fun b =>
    let as := (List.range 8).map fun k => e.atoms.getD (8 * b + k) { bytes := List.replicate 64 0#8, poison := true }
    let fix (k : Nat) (d : List Byte) : List Byte := match e.word k with | .corrected v => leBytes 8 v | _ => d
    let bs := (as.map fun x => padTo 64 x.bytes).flatten
    { bytes := if e.raw.isEmpty then bs else ((chunksOf 8 bs).zipIdx.map fun z => fix (64 * b + z.2) z.1).flatten,
      poison := as.any Beat.poison || (!e.raw.isEmpty && (List.range 64).any fun k => e.badWord (64 * b + k)) }

/-- SLUICE_UE (R481, R493, R494): an entry with an uncorrectable word is delivered with poison. -/
def Pkg.sluiceMet (p : Pkg) (f s : Nat) (e : SlEnt) (bad : Bool) : Pkg :=
  if bad && !e.raw.isEmpty then
    ((p.logFen f 0x0114 s none).fadd F.fenSluiceStatPoison f (b2n !e.poisoned)).ue
  else p

/-! Staging entries and transit slots (R276, R306, R317). -/

/-- Transit byte of an ordinal of a port; 0xFF is local. -/
def Pkg.transitByte (p : Pkg) (port ord : Nat) : Nat :=
  match p.job.cur with
  | some c =>
    let t := c.tab.transit.getD port []
    if t.isEmpty then 0xFF else t.getD (ord % t.length) 0xFF
  | none => 0xFF

/-- Next ordinal of a staging entry. -/
def Pkg.nextOrd (p : Pkg) (port e : Nat) : Nat :=
  let j := (p.port port).ordTx
  j + (e + 1024 - j % 1024) % 1024
def Pkg.transitEntry (p : Pkg) (port e : Nat) : Bool := decide (p.transitByte port (p.nextOrd port e) ≠ 0xFF)

/-! Legality (R151). -/

/-- Format a TE buffer holds, or is about to hold when the loads in flight and those of the commands `ahead` have run. -/
def Fen.bufFmt (x : Fen) (isA : Bool) (n : Nat) (ahead : List QCmd := []) : Fmt :=
  let op := if isA then 0x01 else 0x02
  let going := (x.flights.filter fun (y : Flight) => decide (y.st = .te) && decide (y.ep = x.proc.ep.toNat)).map Flight.word
  match ((going ++ ahead.map QCmd.word).filter fun w => decide (opOf w = op) && decide (ldBuf w = n)).getLast? with
  | some w => (ldFmt w).getD .e4m3
  | none =>
    if isA then (if n = 0 then x.te.a0.fmt else x.te.a1.fmt) else if n = 0 then x.te.b0.fmt else x.te.b1.fmt

def Fen.macGeom (x : Fen) (w : W128) (ahead : List QCmd := []) : Option (Nat × Nat × Nat) :=
  passGeom (x.bufFmt true (macA w) ahead) (x.bufFmt false (macB w) ahead)

/-- Drain destination and format are legal. -/
def drainLegal (daddr ofmt : Nat) : Bool :=
  decide (ofmt ≠ 3) && aligned daddr 512 && inSlab daddr (512 * drainBeats ofmt)

/-- Destination of SM.SEND is legal: kind, address and count. -/
def Pkg.sendDest (p : Pkg) (w : W128) : Bool :=
  let n := 256 * sdFlits w
  decide (sdFlits w ≠ 0) && aligned (sdDaddr w) 256 && decide (sdMc w ≠ 3) &&
  (if sdKind w = 0 then
    inSlab (sdDaddr w) n && (sdMc w = 0 || (decide (sdDest w < 16 * p.meshW) &&
      !(mcFens p.meshW (sdMc w) (sdDest w) (sdExtent w)).isEmpty))
   else if sdKind w = 1 then decide (sdMc w = 0)
   else if sdKind w = 2 then
    decide (sdMc w = 0) && decide (sdDaddr w + n ≤ 0x40000) &&
      (List.range (sdFlits w)).all fun f => !p.transitEntry (sdDest w % 16) (sdDaddr w / 256 + f)
   else false)

/-- Whether the command is legal can be told now: an SM.SLPUT's sluice is no longer changed by the commands `ahead` of it
in the queue (R236). -/
def judged (w : W128) (ahead : List QCmd) : Bool :=
  !(decide (opOf w = 0x85) && ahead.any fun q =>
    (decide (opOf q.word = 0x84) || decide (opOf q.word = 0x85) || decide (opOf q.word = 0x86)) && decide (slSlu q.word = slSlu w))

/-- The command may run (R151, R155 to R171, R236, R276, R277, R317); `st` is the queue it stands in, behind the commands
`ahead`. -/
def Pkg.legal (p : Pkg) (f : Nat) (st : Station) (w : W128) (ahead : List QCmd := []) : Bool :=
  let op := opOf w
  let x := p.fen f
  decide (stationOf op = some st) &&
  (if op = 0x01 ∨ op = 0x02 then
    match ldFmt w with
    | some fm => aligned (ldSaddr w) 512 && inSlab (ldSaddr w) (512 * tileBeats fm)
    | none => false
   else if op = 0x03 then
    (match x.macGeom w ahead with
     | some g => decide (macPasses w ≠ 0) && decide (macPasses w ≤ 256) && decide (macP0 w + macPasses w ≤ g.2.2)
     | none => false) && (!macDrain w || drainLegal (macDaddr w) (macOfmt w))
   else if op = 0x04 then drainLegal (drDaddr w) (drOfmt w)
   else if op = 0x05 then aligned (addwSaddr w) 512 && inSlab (addwSaddr w) 327680
   else if op = 0x20 ∨ op = 0x21 then
    match veFmt w with
    | some fm =>
      aligned (veSaddr w) 64 && inSlab (veSaddr w) (vecBytes fm) &&
        (!fm.isMx || (aligned (veScaddr w) 8 && inSlab (veScaddr w) 8))
    | none => false
   else if op = 0x43 ∨ op = 0x44 then aligned (veWide w) 4 && inSlab (veWide w) 20
   else if op = 0x80 then
    decide (cpBeats w ≠ 0) && aligned (cpSrc w) 512 && aligned (cpDst w) 512 && inSlab (cpSrc w) (512 * cpBeats w) &&
      inSlab (cpDst w) (512 * cpBeats w)
   else if op = 0x81 then aligned (sdSrc w) 256 && inSlab (sdSrc w) (256 * sdFlits w) && p.sendDest w
   else if op = 0x84 then
    aligned (slAddr w) 64 && (match p.sluiceBind f (slSlu w) with | some b => decide (b.1 = slClass w) | none => false)
   else if op = 0x85 then
    match x.headEntry (slSlu w) with
    | some e => !e.write && aligned (slDaddr w) 512 && inSlab (slDaddr w) (512 * e.beats)
    | none => false
   else if op = 0x86 then
    aligned (slAddr w) 64 && aligned (slSaddr w) 512 && inSlab (slSaddr w) (512 * slBeats w) &&
      (match p.sluiceBind f (slSlu w) with | some b => decide (b.1 = slClass w) | none => false)
   else if op = 0xC1 then
    decide (1 ≤ drVocab w) && decide (drVocab w ≤ 262144) && (decide (drDidx w < 8) || decide (drDidx w = 15))
   else if op = 0xE0 then
    (List.range (lxCount w)).all fun k => !p.transitEntry (lxPort w) ((lxEntry w + k) % 1024)
   else true)

/-- Beats of the entry that SM.SLPUT writes; one when the sluice holds none (R594). -/
def Fen.slputBeats (x : Fen) (w : W128) : Nat :=
  match x.headEntry (slSlu w) with | some e => e.beats | none => 1

end Sys2Proof.Machine
end

