-- ==== Sys2Proof/Machine/Station.lean ====
section
/-! DEFINITION. How a fen's stations run their commands: holds and scoreboards (R46, R146, R147, R154, R156, R158,
R164, R167), starts, port-A accesses and results tick by tick (R156 to R167, R176), fills of illegal commands (R151,
R594), and the rows of the TE, VE, SM and LX stations. -/
namespace Sys2Proof.Machine

open Sys2Proof

/-! Queues. -/
def Fen.queue (x : Fen) : Station → List QCmd
  | .te => x.qTe | .ve => x.qVe | .sm => x.qSm | .lx => x.qLx | .samp => []
def Fen.setQueue (x : Fen) (st : Station) (q : List QCmd) : Fen :=
  match st with
  | .te => { x with qTe := q } | .ve => { x with qVe := q } | .sm => { x with qSm := q } | .lx => { x with qLx := q }
  | .samp => x
def Station.idx : Station → Nat
  | .te => 0 | .ve => 1 | .sm => 2 | .lx => 3 | .samp => 4

/-- The flight belongs to the fen's current epoch (R148). -/
def Fen.live (x : Fen) (y : Flight) : Bool := decide (y.ep = x.proc.ep.toNat)

/-- Footprint of a started command; a drain that its buffer has put off writes so much later (R158). -/
def Flight.foot (y : Flight) (lc2 : Bool) : Foot :=
  let ft := Machine.foot lc2 y.beats.length y.word
  if y.late = 0 then ft
  else { ft with wr := ft.wr.map fun z => (z.1, z.2.1 + y.late, z.2.2 + y.late), last := ft.last + y.late }

/-- Tick of the snapshot of a drain, and the last tick in which it writes; none for a flight that drains nothing
(R158). -/
def Flight.drain (y : Flight) (lc2 : Bool) : Option (Nat × Nat) :=
  if y.st = .te then
    (y.foot lc2).wr.getLast?.map fun z => (y.start + (if opOf y.word = 0x03 then 2 * macPasses y.word else 0), y.start + z.2.1)
  else none

/-- The first tick from `t` on in which the drain buffer has written every drain with a snapshot before tick `b`
(R158). -/
def Fen.drainFree (x : Fen) (lc2 : Bool) (b t : Nat) : Nat :=
  x.flights.foldl (fun n y => match y.drain lc2 with
    | some (s, e) => if s < b then max n (e + 1) else n
    | none => n) t

/-- A TE.MAC's drain waits for the drain buffer in tick `t` (R158). -/
def Flight.drainWaits (y : Flight) (t : Nat) : Bool :=
  let s := y.start + 2 * macPasses y.word
  decide (s ≤ t) && decide (t < s + y.late)

/-! Holds. -/

/-- A resource of the TE is busy (R154, R156, R158). A TE.MAC whose drain finds the drain buffer busy starts all the
same: its drain alone waits, with the values of its own snapshot tick (DEDUCED, log entry 117). -/
def Fen.teBusy (x : Fen) (lc2 : Bool) (t : Nat) (w : W128) : Bool :=
  let op := opOf w
  let macEnd (y : Flight) : Nat := if opOf y.word = 0x03 then y.start + 2 * macPasses y.word else 0
  let arr := x.flights.any fun y => decide (y.st = .te) &&
    (decide (t < macEnd y) || (decide (opOf y.word = 0x05) && decide (t < y.start + 640)))
  let buf := x.flights.any fun y => decide (y.st = .te) && decide (t < macEnd y) &&
    ((op = 0x01 && decide (macA y.word = ldBuf w)) || (op = 0x02 && decide (macB y.word = ldBuf w)))
  ((op = 0x03 || op = 0x05) && arr) || buf || (op = 0x04 && decide (t < x.drainFree lc2 (t + 1) t))

/-- Storage whose result is not visible yet (R147). -/
def Fen.regBusy (x : Fen) (lc2 : Bool) (t : Nat) (ft : Foot) : Bool :=
  x.flights.any fun y => x.live y && (y.foot lc2).regW.any fun r =>
    decide (t < y.start + r.2) && (ft.regR.contains r.1 || ft.regW.any fun q => decide (q.1 = r.1))

/-- A command that fires in tick `fire` and starts in tick `t` reads a beat before tick `vis`, from which the beat is
visible, though the plan has it written in tick `wrt`, no later than the read (R147). -/
def Foot.early (ft : Foot) (t fire beat wrt vis : Nat) : Bool :=
  ft.rd.any fun r => decide (r.1 = beat) && decide (wrt ≤ fire + r.2) && decide (t + r.2 < vis)

/-- A beat that the command reads or writes still awaits the result of a started command (R147). -/
def Fen.beatBusy (x : Fen) (lc2 : Bool) (t fire : Nat) (ft : Foot) : Bool :=
  x.flights.any fun y => x.live y && (y.foot lc2).wr.any fun z =>
    ft.early t fire z.1 (y.fire + z.2.1) (y.start + z.2.2) ||
    ft.wr.any fun r => decide (r.1 = z.1) && decide (t + r.2.1 < y.start + z.2.2)

/-- A beat that the command reads is the result of an earlier-planned command of another queue that has not started, or
of a flit that has not been written, and can no longer be visible in time (R46, R47). -/
def Pkg.noData (p : Pkg) (f : Nat) (st : Station) (t fire : Nat) (ft : Foot) : Bool :=
  let x := p.fen f
  ([Station.te, .ve, .sm].any fun o => decide (o ≠ st) && (x.queue o).any fun q =>
    (Machine.foot p.lc2 (x.slputBeats q.word) q.word).wr.any fun z =>
      ft.early t fire z.1 (q.fire + z.2.1) (max (max q.fire q.avail) t + z.2.2)) ||
  (match p.logOf f with
   | some l => p.mesh.any fun m => decide (m.dst = .fen l) && (decide (256 ≤ m.ep) || decide (m.ep = x.proc.ep.toNat % 256)) &&
       ft.early t fire (m.addr / 512 * 512) (m.arr + 1) (max m.arr t + 1)
   | none => false)

/-- An earlier-planned read of a beat has not been made by tick `t` (R147). `plan` is the planned tick of the write;
`skip` names the queue whose commands come after the writer. A fill reads nothing (R594), nor does a command of another
epoch. -/
def Pkg.readPending (p : Pkg) (f beat plan t : Nat) (skip : Option Station) : Bool :=
  let x := p.fen f
  (x.flights.any fun y => x.live y && !y.fill && (y.foot p.lc2).rd.any fun r =>
    decide (r.1 = beat) && decide (y.fire + r.2 < plan) && decide (t ≤ y.start + r.2)) ||
  ([Station.te, .ve, .sm].any fun st => decide (some st ≠ skip) && (x.queue st).zipIdx.any fun q =>
    ((Machine.foot p.lc2 1 q.1.word).rd.any fun r => decide (r.1 = beat) && decide (q.1.fire + r.2 < plan)) &&
    p.legal f st q.1.word ((x.queue st).take q.2))

/-- Write after an earlier-planned read (R147). -/
def Pkg.warBusy (p : Pkg) (f : Nat) (st : Station) (t fire : Nat) (ft : Foot) : Bool :=
  ft.wr.any fun z => p.readPending f z.1 (fire + z.2.1) (t + z.2.1) (some st)

/-- Entry, slot and port-tick conditions of the mover (R164, R167). -/
def Fen.smBusy (x : Fen) (t : Nat) (w : W128) : Bool :=
  let op := opOf w
  if op = 0x81 then
    x.flights.any fun y => x.live y && decide (opOf y.word = 0x81) && decide (t < y.start + sdFlits y.word)
  else if op = 0x84 ∨ op = 0x86 then !x.slotFree (slSlu w)
  else if op = 0x85 then
    (match x.headEntry (slSlu w) with | some e => !e.ready | none => true) ||
    x.flights.any fun y => x.live y && !y.fill && decide (opOf y.word = 0x85) && decide (slSlu y.word = slSlu w)
  else false

/-- A named staging entry still holds an unsent header (R46, R276). -/
def Pkg.lxBusy (p : Pkg) (w : W128) : Bool :=
  (List.range (lxCount w)).any fun k =>
    match (p.port (lxPort w)).stag.find? ((lxEntry w + k) % 1024) with | some e => e.hdrTag | none => false

/-- The firing tick lies at or past the tick at which a replay halts: such a command does not start (R418). -/
def Pkg.pastHalt (p : Pkg) (fire : Nat) : Bool :=
  match p.job.cur.bind PlanInst.replay with
  | some (_, hs, ht) => p.planRuns && decide (hs ≠ 2 ^ 48 - 1) && decide (p.stepStart hs + ht ≤ fire)
  | none => false
/-- The firing tick of a queued command has come (R151), and no halt keeps it from starting (R418). -/
def Pkg.isDue (p : Pkg) (q : QCmd) (t : Nat) : Bool := decide (max q.fire q.avail ≤ t) && !p.pastHalt q.fire

/-- Nothing holds the command in tick `t` (R46); in a suppressed period no station is clocked (R66). -/
def Pkg.canStart (p : Pkg) (f : Nat) (st : Station) (q : QCmd) (t : Nat) : Bool :=
  let x := p.fen f
  let ft := Machine.foot p.lc2 (x.slputBeats q.word) q.word
  decide (q.fire ≤ t) && decide (x.lastStart.getD st.idx 0 ≤ t) && !x.hard && !x.clk.heldNow &&
  !((st = .te || st = .ve) && decide (t < x.zeroTill)) &&
  !(st = .te && x.teBusy p.lc2 t q.word) && !x.regBusy p.lc2 t ft && !x.beatBusy p.lc2 t q.fire ft &&
  !p.noData f st t q.fire ft && !p.warBusy f st t q.fire ft && !(st = .sm && x.smBusy t q.word) &&
  !(st = .lx && p.lxBusy q.word)

/-! Starts. -/

/-- Flights stand in the order in which port A serves them (R210). -/
def insertFlight (y : Flight) (l : List Flight) : List Flight :=
  let before (z : Flight) : Bool := decide (z.start < y.start) || (decide (z.start = y.start) && decide (z.st.idx ≤ y.st.idx))
  l.takeWhile before ++ y :: l.dropWhile before

def Pkg.addFlight (p : Pkg) (f : Nat) (y : Flight) : Pkg :=
  p.updFen f fun x => { x with flights := insertFlight y x.flights }

def Pkg.bank (p : Pkg) (f n : Nat) : Bank := if n = 0 then (p.fen f).te.acc0 else (p.fen f).te.acc1
def Pkg.setBank (p : Pkg) (f n : Nat) (b : Bank) : Pkg :=
  p.updFen f fun x => { x with te := if n = 0 then { x.te with acc0 := b } else { x.te with acc1 := b } }

/-- What the command takes in its start tick. -/
def Pkg.startEffect (p : Pkg) (f : Nat) (y : Flight) (t : Nat) : Pkg × Flight :=
  let w := y.word
  let op := opOf w
  if op = 0x04 then
    let b := p.bank f (bankOf w)
    let p := if drClr w then p.setBank f (bankOf w) .init else p
    (p, { y with beats := drainSnap (drOfmt w) b, poison := b.poison })
  else if y.st = .ve then
    let (ls, ac, po) := veStart (p.fen f).ve w
    if op = 0x21 then
      let (d, sc) := vecStore ((veFmt w).getD .fp32) ls
      (p, { y with beats := [{ bytes := d, poison := po }, { bytes := sc, poison := po }], poison := po })
    else if op = 0x44 then (p, { y with beats := [{ bytes := leBytes 20 ac.export.toNat, poison := po }], poison := po })
    else (p, { y with lanes := ls, acc := ac, poison := po })
  else if op = 0x81 then
    let bad := decide (sdKind w = 0) &&
      (mcFens p.meshW (sdMc w) (sdDest w) (sdExtent w)).any fun l => (p.physOf l).isNone
    (if bad then p.unmapped f y.fire else p, y)
  else if op = 0x84 ∨ op = 0x86 then
    let e : SlEnt :=
      { id := 0, write := decide (op = 0x86), cls := slClass w, addr := slAddr w, beats := slBeats w,
          start := t, at_ := p.refCount, atoms := [],
        accepted := [], ready := false, dead := false }
    let (p, e) := p.takeEntry f (slSlu w) e
    let p := p.perf .fen f 0x500 1 (engine e.addr)
    let un := (List.range (8 * e.beats)).any fun k => !p.atomMapped e.cls (e.addr + 64 * k) e.write
    let p := if un then (p.logFen1 f 0x0076 0 none).fadd F.fenSluiceStatUnmapped f 1 else p
    if op = 0x84 then (p.issueAtoms f (slSlu w) e [] false 0 (8 * e.beats), y) else (p, y)
  else if op = 0x85 then
    match (p.fen f).headEntry (slSlu w) with
    | some e => (p.sluiceMet f (slSlu w) e ((List.range (64 * e.beats)).any e.badWord), { y with beats := e.beatsOf })
    | none => (p, y)
  else (p, y)

/-- Start the head command of a station (R146). -/
def Pkg.launch (p : Pkg) (f : Nat) (st : Station) (q : QCmd) (t : Nat) : Pkg :=
  let ft := Machine.foot p.lc2 ((p.fen f).slputBeats q.word) q.word
  let p := p.updFen f fun x =>
    { (x.setQueue st ((x.queue st).drop 1)) with lastStart := AMap.put x.lastStart st.idx (t + 1) }
  let p := p.perf .fen f 0x302 1 (engine 0)
  let p := p.perf .fen f 0x303 (t - q.fire) (engine 0)
  let p := p.markCmd (f / 72) st q t (t + ft.last) false (p.lag16 f)
  let y : Flight :=
    { st := st, start := t, fire := q.fire, ep := (p.fen f).proc.ep.toNat, word := q.word, fill := false, beats := [],
      lanes := [], acc := .zero, poison := false }
  let (p, y) := p.startEffect f y t
  p.addFlight f y

/-! Fills (R594). -/

/-- `w` with bits [hi:lo] replaced. -/
def putField (w : W128) (hi lo v : Nat) : W128 :=
  BitVec.ofNat 128 (w.toNat - nbits w.toNat hi lo * 2 ^ lo + v * 2 ^ lo)

/-- The word whose ticks and destinations the fill follows; none when the command names no destination. -/
def Pkg.fillWord (p : Pkg) (f : Nat) (st : Station) (w : W128) : Option W128 :=
  let op := opOf w
  if stationOf op ≠ some st then none
  else if op = 0x03 then
    let n := macPasses w
    let ok := decide (n ≠ 0) && decide (n ≤ 256) &&
      (match (p.fen f).macGeom w with | some g => decide (macP0 w + n ≤ g.2.2) | none => true)
    let w := if ok then w else putField w 74 66 1
    some (if macDrain w && !drainLegal (macDaddr w) (macOfmt w) then putField w 83 83 0 else w)
  else if op = 0x04 then if drainLegal (drDaddr w) (drOfmt w) then some w else none
  else if op = 0x80 then
    if cpBeats w ≠ 0 && aligned (cpDst w) 512 && inSlab (cpDst w) (512 * cpBeats w) then some w else none
  else if op = 0x81 then if p.sendDest w then some w else none
  else if op = 0x85 then
    if aligned (slDaddr w) 512 && inSlab (slDaddr w) (512 * (p.fen f).slputBeats w) then some w else none
  else some w

def zeroBeat : Beat := { bytes := List.replicate 512 0#8, poison := true }

/-- The entry that the fill of an SM.SLRD or SM.SLWR takes: ready in the next tick, with beats of poisoned zeros. -/
def fillEntry (w : W128) (t now : Nat) : SlEnt :=
  let wr := decide (opOf w = 0x86)
  let as := List.range (8 * slBeats w)
  { id := 0, write := wr, cls := slClass w, addr := slAddr w, beats := slBeats w, start := t, at_ := now,
    atoms := if wr then [] else as.map fun k => (k, { bytes := List.replicate 64 0#8, poison := true }),
    accepted := if wr then as else [], ready := false, dead := false }

/-- The fill of an SM.SLRD or SM.SLWR takes its entry as soon as one is free (R594). -/
def Pkg.fillSluice (p : Pkg) (f t : Nat) (y : Flight) : Pkg × Flight :=
  if y.fill && !y.poison && (opOf y.word = 0x84 || opOf y.word = 0x86) && (p.fen f).slotFree (slSlu y.word) then
    ((p.takeEntry f (slSlu y.word) (fillEntry y.word t p.refCount)).1, { y with poison := true })
  else (p, y)

/-- An illegal command in its firing tick, at place `i` of its queue (R151): never started, logged, its destinations
filled. -/
def Pkg.illegalCmd (p : Pkg) (f : Nat) (st : Station) (i : Nat) (q : QCmd) (t : Nat) : Pkg :=
  let p := p.updFen f fun x => x.setQueue st (dropAt (x.queue st) i)
  let p := (p.log .fen f 0x0033 q.fire (opOf q.word) none).fadd F.fenCmdStatIllegal f 1
  let p := p.defect t 0x0033
  let p := p.markCmd (f / 72) st q q.fire q.fire true (p.lag16 f)
  match p.fillWord f st q.word with
  | none => p
  | some w =>
    let n := (p.fen f).slputBeats w
    let y : Flight :=
      { st := st, start := t, fire := q.fire, ep := (p.fen f).proc.ep.toNat, word := w, fill := true,
        beats := if opOf w = 0x85 then List.replicate n zeroBeat else [], lanes := [], acc := .zero, poison := false }
    let (p, y) := p.fillSluice f t y
    p.addFlight f y

/-- The first illegal command of a queue whose firing tick has come, wherever it stands (R151). -/
def Pkg.illegalAt (p : Pkg) (f : Nat) (st : Station) (t : Nat) : Option (Nat × QCmd) :=
  let qs := (p.fen f).queue st
  (qs.zipIdx.find? fun z => p.isDue z.1 t && judged z.1.word (qs.take z.2) &&
    !p.legal f st z.1.word (qs.take z.2)).map fun z => (z.2, z.1)

/-- Every illegal command of a station whose firing tick has come, in queue order. -/
def Pkg.illegalGo (f : Nat) (st : Station) (t : Nat) : Nat → Pkg → Pkg
  | 0, p => p
  | n + 1, p => match p.illegalAt f st t with
    | some (i, q) => Pkg.illegalGo f st t n (p.illegalCmd f st i q t)
    | none => p
def Pkg.illegalDue (p : Pkg) (f t : Nat) : Pkg :=
  if (p.fen f).hard then p
  else [Station.te, .ve, .sm, .lx].foldl (fun p st => Pkg.illegalGo f st t ((p.fen f).queue st).length p) p

/-- A row of a fen's station: the command at the head of its queue is illegal and is filled, or is the row's and
starts, or the row does nothing; nor does it in a suppressed period (R66). -/
def stationRow (st : Station) (code : Nat) (f : Nat) (p : Pkg) : Pkg :=
  let x := p.fen f
  let t := p.local_ f
  match x.queue st with
  | [] => p
  | q :: _ =>
    if x.hard || x.clk.heldNow || !p.isDue q t then p
    else if !p.legal f st q.word then p.illegalCmd f st 0 q t
    else if opOf q.word = code && p.canStart f st q t then p.launch f st q t
    else p

/-! Ticks of a running command. -/

/-- Bytes of a run that lie in a beat. -/
def cutBeat (start : Nat) (bs : List Byte) (beat : Nat) : List (Nat × List Byte) :=
  let lo := max start beat
  let hi := min (start + bs.length) (beat + 512)
  if lo < hi then [(lo, (bs.drop (lo - start)).take (hi - lo))] else []

/-- What the flight writes into a beat: parts and poison. -/
def Flight.parts (y : Flight) (beat j : Nat) : List (Nat × List Byte) × Bool :=
  let w := y.word
  let op := opOf w
  if op = 0x21 then
    let f := (veFmt w).getD .fp32
    let d := if y.fill then List.replicate (vecBytes f) 0#8 else (y.beats.getD 0 zeroBeat).bytes
    let s := if y.fill then List.replicate 8 0#8 else (y.beats.getD 1 zeroBeat).bytes
    let okD := !y.fill || (aligned (veSaddr w) 64 && inSlab (veSaddr w) (vecBytes f) && (veFmt w).isSome)
    let okS := f.isMx && (!y.fill || (aligned (veScaddr w) 8 && inSlab (veScaddr w) 8 && (veFmt w).isSome))
    ((if okD then cutBeat (veSaddr w) d beat else []) ++ (if okS then cutBeat (veScaddr w) s beat else []),
      y.fill || y.poison)
  else if op = 0x44 then
    let ok := !y.fill || (aligned (veWide w) 4 && inSlab (veWide w) 20)
    let d := if y.fill then List.replicate 20 0#8 else (y.beats.getD 0 zeroBeat).bytes
    (if ok then cutBeat (veWide w) d beat else [], y.fill || y.poison)
  else
    let b := if y.fill then zeroBeat else y.beats.getD j zeroBeat
    ([(beat, padTo 512 b.bytes)], b.poison)

/-- The part of a beat that a read moves: VE loads the words they need, other commands the whole beat (R208). -/
def readRuns (w : W128) (beat : Nat) : List (Nat × Nat) :=
  let op := opOf w
  let cut (a n : Nat) : List (Nat × Nat) :=
    let lo := max a beat
    let hi := min (a + n) (beat + 512)
    if lo < hi then [(lo, hi - lo)] else []
  if op = 0x20 then
    match veFmt w with
    | some f => cut (veSaddr w) (vecBytes f) ++ (if f.isMx then cut (veScaddr w) 8 else [])
    | none => []
  else if op = 0x43 then cut (veWide w) 20
  else [(beat, 512)]

/-- One beat read for a flight: its bytes stand at their places in the beat. -/
def Pkg.flightRead (p : Pkg) (f beat : Nat) (w : W128) : Pkg × Beat :=
  let r := (readRuns w beat).foldl (fun (s : Pkg × List Byte × Option Nat) r =>
    let g := s.1.slabGet f r.1 r.2
    (g.1, s.2.1.take (r.1 - beat) ++ g.2.1 ++ s.2.1.drop (r.1 - beat + r.2), s.2.2.or g.2.2))
    (p.paAccess f beat, List.replicate 512 0#8, none)
  (r.1.slabMet f r.2.2, { bytes := r.2.1, poison := r.2.2.isSome })

/-- Port-A accesses of a flight in local tick `t` (R176); an old-epoch flight still reads (R148). -/
def Pkg.flightAccess (f t : Nat) (p : Pkg) (y : Flight) : Pkg × Flight :=
  let o := t - y.start
  let ft := y.foot p.lc2
  let w := y.word
  let live := (p.fen f).live y
  let (p, y) :=
    if y.fill then (p, y)
    else (ft.rd.filter fun r => r.2 = o).foldl (fun (s : Pkg × Flight) r =>
      let (q, b) := s.1.flightRead f r.1 w
      (q, { s.2 with beats := s.2.beats ++ [b] })) (p, y)
  let p :=
    if opOf w = 0x86 && !y.fill && live && decide (o < slBeats w) then
      match ((p.fen f).sluice (slSlu w)).find? fun e => decide (e.start = y.start) && e.write && !e.dead with
      | some e =>
        let b := y.beats.getD o zeroBeat
        p.issueAtoms f (slSlu w) e b.bytes b.poison (8 * o) 8
      | none => p
    else p
  let p :=
    if live then
      (ft.wr.zipIdx.filter fun z => z.1.2.1 = o).foldl (fun (p : Pkg) z =>
        let (ps, po) := y.parts z.1.1 z.2
        p.paWrite f ps po) p
    else p
  let p :=
    if opOf w = 0x85 && live && !y.fill && decide (o = 2 + y.beats.length) then p.updFen f fun x => x.popEntry (slSlu w)
    else p
  (p, y)

/-- One flit of SM.SEND leaves (R166, R299, R307). -/
def Pkg.injectFlit (p : Pkg) (f t k : Nat) (y : Flight) : Pkg :=
  let w := y.word
  let src := sdSrc w + 256 * k
  let b := if y.fill then zeroBeat else y.beats.getD (src / 512 - sdSrc w / 512) zeroBeat
  let d : Beat := { bytes := sliceB b.bytes (src % 512) 256, poison := b.poison }
  let mw := p.meshW
  let l := p.logNum f
  let pl := y.fire + (t - y.start)
  let mk (dst : FlitDst) (h : Nat) (rt : List (Nat × Nat)) : MFlit :=
    { src := f, dst := dst, addr := sdDaddr w + 256 * k, data := d, len := 256, ep := epOf w, vc := sdVc w, arr := pl + h,
      tries := 0, hop := f, inj := pl, route := rt, side := 0, left := 0, blocked := false, at_ := t }
  let out (p : Pkg) (m : MFlit) : Pkg := { p with mesh := p.mesh ++ [m] }
  if sdKind w = 0 then
    let d0 := sdDest w
    (mcFens mw (sdMc w) d0 (sdExtent w)).foldl (fun p m =>
      if (p.physOf m).isSome then out p (mk (.fen m) (hopFen mw l d0 + mcExtra mw d0 m) (planRoute mw l d0 m pl)) else p) p
  else if sdKind w = 1 then
    let s := sdDest w % 4
    let r := sampAt mw s
    out p (mk (.samp s) (hopSamp mw l s) (planRoute mw l (r.1 * mw + r.2) (r.1 * mw + r.2) pl))
  else
    let q := sdDest w % 16
    let r := portOut mw q
    out p (mk (.edge q) (hopEdge mw l q) (planRoute mw l (r.1 * mw + r.2) (r.1 * mw + r.2) pl))

/-- LX.HDR: header tags of the named entries (R277, R314, R594). -/
def Pkg.lxHeaders (p : Pkg) (f : Nat) (y : Flight) : Pkg :=
  let w := y.word
  let valid := bit (p.rank.getD (lxDest w) 0#64) 0
  let p := if !y.fill && !valid then p.unmapped f y.fire else p
  (List.range (lxCount w)).foldl (fun (p : Pkg) k =>
    let e := (lxEntry w + k) % 1024
    if y.fill && p.transitEntry (lxPort w) e then p
    else p.updPort (lxPort w) fun x =>
      let s := x.stag.getD e .init
      let s := { s with hdrTag := true, null := lxNull w || y.fill || !valid, vc := lxVc w, dest := lxDest w,
                        space := lxSpace w, addr := (lxAddr w + k) % 2 ^ 24 }
      { x with stag := AMap.put x.stag e s }) p

/-- Set a vector register, an accumulator or a buffer of a fen. -/
def Pkg.setVec (p : Pkg) (f n : Nat) (ls : List W32) (po : Bool) : Pkg :=
  p.updFen f fun x => { x with ve := x.ve.setReg n { lanes := if ls.all (fun l => l = 0#32) then [] else ls, poison := po } }
def Pkg.setAcc (p : Pkg) (f n : Nat) (a : Acc) (po : Bool) : Pkg :=
  p.updFen f fun x => { x with ve := x.ve.setAc n { acc := a, poison := po } }
def Pkg.setBuf (p : Pkg) (f : Nat) (isA : Bool) (n : Nat) (t : Tile) : Pkg :=
  p.updFen f fun x =>
    let e := x.te
    { x with te :=
        if isA then (if n = 0 then { e with a0 := t } else { e with a1 := t })
        else if n = 0 then { e with b0 := t } else { e with b1 := t } }

/-- What becomes visible of a flight at the start of local tick `t` (R176, R483, R594). -/
def Pkg.flightVisible (f t : Nat) (p : Pkg) (y : Flight) : Pkg × Flight :=
  let o := t - y.start
  let w := y.word
  let op := opOf w
  let x := p.fen f
  let ft := y.foot p.lc2
  if !x.live y then (p, y)
  else if op = 0x01 ∨ op = 0x02 then
    let fm := (ldFmt w).getD .e4m3
    if o = loadVis (tileBeats fm) then
      let tl : Tile := if y.fill then { fmt := fm, bytes := [], poison := false }
        else { fmt := fm, bytes := (y.beats.map Beat.bytes).flatten, poison := y.beats.any Beat.poison }
      (p.setBuf f (op = 0x01) (ldBuf w) tl, y)
    else (p, y)
  else if op = 0x03 then
    if o = 2 * macPasses w then
      let te := x.te
      let ta := if macA w = 0 then te.a0 else te.a1
      let tb := if macB w = 0 then te.b0 else te.b1
      let g := (passGeom ta.fmt tb.fmt).getD (2, 128, 64)
      let b := if y.fill then Bank.init else macBank ta tb g (macP0 w) (macPasses w) (macClear w) (p.bank f (macAcc w))
      let p := p.setBank f (macAcc w) b
      let p := if y.fill then p else
        (p.perf .fen f 0x300 (macPasses w) (engine 0)).perf .fen f 0x301 (macPasses w * g.1 * g.2.1 * 128) (engine 0)
      let y := if macDrain w then { y with late := x.drainFree p.lc2 t t - t } else y
      (p, if macDrain w && !y.fill then { y with beats := drainSnap (macOfmt w) b } else y)
    else (p, y)
  else if op = 0x05 then
    if o = 642 then
      (p.setBank f (bankOf w) (if y.fill then .init else addwBank y.beats (p.bank f (bankOf w))), y)
    else (p, y)
  else if op = 0x06 then (if o = 2 then p.setBank f (bankOf w) .init else p, y)
  else if op = 0x20 then
    if o = 6 then
      if y.fill then (p.setVec f (veD w) [] false, y)
      else
        let fm := (veFmt w).getD .fp32
        let bs := vecBeats w fm
        let get (a n : Nat) : List Byte := (List.range n).map fun i =>
          match findPos (fun b => decide (b = (a + i) / 512 * 512)) bs with
          | some j => ((y.beats.getD j zeroBeat).bytes).getD ((a + i) % 512) 0#8
          | none => 0#8
        (p.setVec f (veD w) (vecLoad fm (get (veSaddr w) (vecBytes fm)) (if fm.isMx then get (veScaddr w) 8 else []))
          (y.beats.any Beat.poison), y)
    else (p, y)
  else if op = 0x43 then
    if o = redLat p.lc2 then
      if y.fill then (p.setAcc f (veAd w) .zero false, y)
      else
        let bs := beatsOf (veWide w) 20
        let by_ := (List.range 20).map fun i =>
          match findPos (fun b => decide (b = (veWide w + i) / 512 * 512)) bs with
          | some j => ((y.beats.getD j zeroBeat).bytes).getD ((veWide w + i) % 512) 0#8
          | none => 0#8
        (p.setAcc f (veAd w) (y.acc.add (wideTerm (BitVec.ofNat 160 (ofLe by_)))) (y.poison || y.beats.any Beat.poison), y)
    else (p, y)
  else if op = 0x40 then (if o = redLat p.lc2 then p.setAcc f (veAd w) y.acc y.poison else p, y)
  else if op = 0x44 then
    (if o = redLat p.lc2 && veClr w && !y.fill then p.setAcc f (veAd w) .zero false else p, y)
  else if op = 0x46 then (if o = 6 then p.setAcc f (veAd w) .zero false else p, y)
  else if op = 0x81 then 
    if 3 ≤ o ∧ o < 3 + sdFlits w then (p.injectFlit f t (o - 3) y, { y with sent := o - 2 }) else (p, y)
  else if op = 0x84 ∨ op = 0x86 then p.fillSluice f t y
  else if op = 0xE0 then (if o = 2 then p.lxHeaders f y else p, y)
  else
    match ft.regW with
    | (.vec n, l) :: _ => (if o = l then p.setVec f n y.lanes y.poison else p, y)
    | _ => (p, y)

/-- Run a step of every flight of a fen in port order; `keep` tells which remain. -/
def Pkg.overFlights (f : Nat) (g : Pkg → Flight → Pkg × Flight) (keep : Pkg → Flight → Bool) (p : Pkg) : Pkg :=
  let r := (p.fen f).flights.foldl (fun (s : Pkg × List Flight) y =>
    let (q, z) := g s.1 y
    (q, s.2 ++ [z])) (p, [])
  r.1.updFen f fun x => { x with flights := r.2.filter (keep r.1) }

/-- A flight has nothing left to do after tick `t`. -/
def Flight.overRange (y : Flight) (lc2 : Bool) (t : Nat) : Bool :=
  decide (y.start + (y.foot lc2).last ≤ t) &&
  !(y.fill && (opOf y.word = 0x84 || opOf y.word = 0x86) && !y.poison)

/-- The end of local tick `t` of a fen: port-A accesses in the order of R210. -/
def Pkg.accessTick (p : Pkg) (f t : Nat) : Pkg :=
  p.overFlights f (Pkg.flightAccess f t) fun q y => !y.overRange q.lc2 t

/-- What local tick `t` has written is captured, as the tick is over for good, and the points that DIG.FOLD brings to the
digest unit by the next tick are folded (R45, R409). -/
def Pkg.captureTick (p : Pkg) (f t : Nat) : Pkg :=
  let x := p.fen f
  let p := p.updFen f fun x => { x with pa := 0, wrote := [] }
  (p.digCapture f t (x.wrote.map fun z => z.1 / 512 * 512).eraseDups).digFold f (t + 1)

/-- The start of local tick `t`: results become visible. -/
def Pkg.beginTick (p : Pkg) (f t : Nat) : Pkg :=
  p.overFlights f (Pkg.flightVisible f t) fun _ _ => true

/-! The rows. -/

/-- TE_LDA (R155, R156). -/
def teLda (f : Nat) (p : Pkg) : Pkg := stationRow .te 0x01 f p
def execTeLda (f : Fin 288) (s : State) : Host.Outcome State Fault Refusal := onPkg (teLda f) s
/-- TE_LDB (R155, R156). -/
def teLdb (f : Nat) (p : Pkg) : Pkg := stationRow .te 0x02 f p
def execTeLdb (f : Fin 288) (s : State) : Host.Outcome State Fault Refusal := onPkg (teLdb f) s
/-- TE_MAC (R157). -/
def teMac (f : Nat) (p : Pkg) : Pkg := stationRow .te 0x03 f p
def execTeMac (f : Fin 288) (s : State) : Host.Outcome State Fault Refusal := onPkg (teMac f) s
/-- TE_DRAIN (R158). -/
def teDrain (f : Nat) (p : Pkg) : Pkg := stationRow .te 0x04 f p
def execTeDrain (f : Fin 288) (s : State) : Host.Outcome State Fault Refusal := onPkg (teDrain f) s
/-- TE_ADDW (R159). -/
def teAddw (f : Nat) (p : Pkg) : Pkg := stationRow .te 0x05 f p
def execTeAddw (f : Fin 288) (s : State) : Host.Outcome State Fault Refusal := onPkg (teAddw f) s
/-- TE_CLR (R159). -/
def teClr (f : Nat) (p : Pkg) : Pkg := stationRow .te 0x06 f p
def execTeClr (f : Fin 288) (s : State) : Host.Outcome State Fault Refusal := onPkg (teClr f) s
/-- VE_LD (R162). -/
def veLd (f : Nat) (p : Pkg) : Pkg := stationRow .ve 0x20 f p
def execVeLd (f : Fin 288) (s : State) : Host.Outcome State Fault Refusal := onPkg (veLd f) s
/-- VE_ST (R162). -/
def veSt (f : Nat) (p : Pkg) : Pkg := stationRow .ve 0x21 f p
def execVeSt (f : Fin 288) (s : State) : Host.Outcome State Fault Refusal := onPkg (veSt f) s
/-- VE_IMM (R162). -/
def veImm (f : Nat) (p : Pkg) : Pkg := stationRow .ve 0x22 f p
def execVeImm (f : Fin 288) (s : State) : Host.Outcome State Fault Refusal := onPkg (veImm f) s
/-- VE_FADD (R161). -/
def veFadd (f : Nat) (p : Pkg) : Pkg := stationRow .ve 0x28 f p
def execVeFadd (f : Fin 288) (s : State) : Host.Outcome State Fault Refusal := onPkg (veFadd f) s
/-- VE_FSUB (R161). -/
def veFsub (f : Nat) (p : Pkg) : Pkg := stationRow .ve 0x29 f p
def execVeFsub (f : Fin 288) (s : State) : Host.Outcome State Fault Refusal := onPkg (veFsub f) s
/-- VE_FMUL (R161). -/
def veFmul (f : Nat) (p : Pkg) : Pkg := stationRow .ve 0x2A f p
def execVeFmul (f : Fin 288) (s : State) : Host.Outcome State Fault Refusal := onPkg (veFmul f) s
/-- VE_FFMA (R161). -/
def veFfma (f : Nat) (p : Pkg) : Pkg := stationRow .ve 0x2B f p
def execVeFfma (f : Fin 288) (s : State) : Host.Outcome State Fault Refusal := onPkg (veFfma f) s
/-- VE_FMIN (R161). -/
def veFmin (f : Nat) (p : Pkg) : Pkg := stationRow .ve 0x2C f p
def execVeFmin (f : Fin 288) (s : State) : Host.Outcome State Fault Refusal := onPkg (veFmin f) s
/-- VE_FMAX (R161). -/
def veFmax (f : Nat) (p : Pkg) : Pkg := stationRow .ve 0x2D f p
def execVeFmax (f : Fin 288) (s : State) : Host.Outcome State Fault Refusal := onPkg (veFmax f) s
/-- VE_FNEG (R161). -/
def veFneg (f : Nat) (p : Pkg) : Pkg := stationRow .ve 0x2E f p
def execVeFneg (f : Fin 288) (s : State) : Host.Outcome State Fault Refusal := onPkg (veFneg f) s
/-- VE_FABS (R161). -/
def veFabs (f : Nat) (p : Pkg) : Pkg := stationRow .ve 0x2F f p
def execVeFabs (f : Fin 288) (s : State) : Host.Outcome State Fault Refusal := onPkg (veFabs f) s
/-- VE_FBCAST (R161). -/
def veFbcast (f : Nat) (p : Pkg) : Pkg := stationRow .ve 0x30 f p
def execVeFbcast (f : Fin 288) (s : State) : Host.Outcome State Fault Refusal := onPkg (veFbcast f) s
/-- VE_FMASK (R161). -/
def veFmask (f : Nat) (p : Pkg) : Pkg := stationRow .ve 0x31 f p
def execVeFmask (f : Fin 288) (s : State) : Host.Outcome State Fault Refusal := onPkg (veFmask f) s
/-- VE_EXP2 (R161, R141, R142). -/
def veExp2 (f : Nat) (p : Pkg) : Pkg := stationRow .ve 0x38 f p
def execVeExp2 (f : Fin 288) (s : State) : Host.Outcome State Fault Refusal := onPkg (veExp2 f) s
/-- VE_LOG2 (R161, R141, R142). -/
def veLog2 (f : Nat) (p : Pkg) : Pkg := stationRow .ve 0x39 f p
def execVeLog2 (f : Fin 288) (s : State) : Host.Outcome State Fault Refusal := onPkg (veLog2 f) s
/-- VE_RCP (R161, R141, R142). -/
def veRcp (f : Nat) (p : Pkg) : Pkg := stationRow .ve 0x3A f p
def execVeRcp (f : Fin 288) (s : State) : Host.Outcome State Fault Refusal := onPkg (veRcp f) s
/-- VE_RSQRT (R161, R141, R142). -/
def veRsqrt (f : Nat) (p : Pkg) : Pkg := stationRow .ve 0x3B f p
def execVeRsqrt (f : Fin 288) (s : State) : Host.Outcome State Fault Refusal := onPkg (veRsqrt f) s
/-- VE_TANH (R161, R141, R142). -/
def veTanh (f : Nat) (p : Pkg) : Pkg := stationRow .ve 0x3C f p
def execVeTanh (f : Fin 288) (s : State) : Host.Outcome State Fault Refusal := onPkg (veTanh f) s
/-- VE_GELU (R161, R141, R142). -/
def veGelu (f : Nat) (p : Pkg) : Pkg := stationRow .ve 0x3D f p
def execVeGelu (f : Fin 288) (s : State) : Host.Outcome State Fault Refusal := onPkg (veGelu f) s
/-- VE_SILU (R161, R141, R142). -/
def veSilu (f : Nat) (p : Pkg) : Pkg := stationRow .ve 0x3E f p
def execVeSilu (f : Fin 288) (s : State) : Host.Outcome State Fault Refusal := onPkg (veSilu f) s
/-- VE_RSUM (R163). -/
def veRsum (f : Nat) (p : Pkg) : Pkg := stationRow .ve 0x40 f p
def execVeRsum (f : Fin 288) (s : State) : Host.Outcome State Fault Refusal := onPkg (veRsum f) s
/-- VE_RMAX (R163). -/
def veRmax (f : Nat) (p : Pkg) : Pkg := stationRow .ve 0x41 f p
def execVeRmax (f : Fin 288) (s : State) : Host.Outcome State Fault Refusal := onPkg (veRmax f) s
/-- VE_RMIN (R163). -/
def veRmin (f : Nat) (p : Pkg) : Pkg := stationRow .ve 0x42 f p
def execVeRmin (f : Fin 288) (s : State) : Host.Outcome State Fault Refusal := onPkg (veRmin f) s
/-- VE_AADD (R163). -/
def veAadd (f : Nat) (p : Pkg) : Pkg := stationRow .ve 0x43 f p
def execVeAadd (f : Fin 288) (s : State) : Host.Outcome State Fault Refusal := onPkg (veAadd f) s
/-- VE_AST (R163). -/
def veAst (f : Nat) (p : Pkg) : Pkg := stationRow .ve 0x44 f p
def execVeAst (f : Fin 288) (s : State) : Host.Outcome State Fault Refusal := onPkg (veAst f) s
/-- VE_ARND (R163). -/
def veArnd (f : Nat) (p : Pkg) : Pkg := stationRow .ve 0x45 f p
def execVeArnd (f : Fin 288) (s : State) : Host.Outcome State Fault Refusal := onPkg (veArnd f) s
/-- VE_ACLR (R163). -/
def veAclr (f : Nat) (p : Pkg) : Pkg := stationRow .ve 0x46 f p
def execVeAclr (f : Fin 288) (s : State) : Host.Outcome State Fault Refusal := onPkg (veAclr f) s
/-- SM_COPY (R165). -/
def smCopy (f : Nat) (p : Pkg) : Pkg := stationRow .sm 0x80 f p
def execSmCopy (f : Fin 288) (s : State) : Host.Outcome State Fault Refusal := onPkg (smCopy f) s
/-- SM_SEND (R166). -/
def smSend (f : Nat) (p : Pkg) : Pkg := stationRow .sm 0x81 f p
def execSmSend (f : Fin 288) (s : State) : Host.Outcome State Fault Refusal := onPkg (smSend f) s
/-- SM_SLRD (R167). -/
def smSlrd (f : Nat) (p : Pkg) : Pkg := stationRow .sm 0x84 f p
def execSmSlrd (f : Fin 288) (s : State) : Host.Outcome State Fault Refusal := onPkg (smSlrd f) s
/-- SM_SLPUT (R167, R236). -/
def smSlput (f : Nat) (p : Pkg) : Pkg := stationRow .sm 0x85 f p
def execSmSlput (f : Fin 288) (s : State) : Host.Outcome State Fault Refusal := onPkg (smSlput f) s
/-- SM_SLWR (R167, R237). -/
def smSlwr (f : Nat) (p : Pkg) : Pkg := stationRow .sm 0x86 f p
def execSmSlwr (f : Fin 288) (s : State) : Host.Outcome State Fault Refusal := onPkg (smSlwr f) s
/-- LX_HDR (R277). -/
def lxHdr (f : Nat) (p : Pkg) : Pkg := stationRow .lx 0xE0 f p
def execLxHdr (f : Fin 288) (s : State) : Host.Outcome State Fault Refusal := onPkg (lxHdr f) s

end Sys2Proof.Machine
end

