-- ==== Sys2Proof/Machine/Mesh.lean ====
section
/-! DEFINITION. Routers and mesh flits: slots, credits, hops (R70 to R75, R302 to R304), arrival at fens, samplers and
staging areas (R147, R150, R166, R169, R175, R276), and hop repeats (R305). -/
namespace Sys2Proof.Machine

open Sys2Proof

/-! The flit on the wire (R305). -/

/-- Bits [47:0] of the sideband of a plan flit or, with DKIND 3, of a flit of memory traffic, whose request fields are the
controllers' own. -/
def MFlit.side48 (m : MFlit) (mc extent : Nat) : Nat :=
  let k : Nat × Nat := match m.dst with
    | .fen l => (0, l) | .samp d => (1, d) | .edge q => (2, q) | .cross q _ => (2, q) | .mem _ _ => (3, 0) | .slu _ => (3, 0)
  let low := m.vc + m.ep % 256 * 4 + b2n m.data.poison * 2 ^ 10 + k.1 * 2 ^ 11
  if k.1 = 3 then low else low + k.2 * 2 ^ 13 + mc * 2 ^ 21 + extent * 2 ^ 23 + m.addr / 256 % 2 ^ 16 * 2 ^ 28

/-- The sideband with its CRC over the 256 data bytes, then bits [47:0], each most significant bit first. -/
def MFlit.sideband (m : MFlit) (mc extent : Nat) : Nat :=
  let s := m.side48 mc extent
  s + crc16 (padTo 256 m.data.bytes ++ (leBytes 6 s).reverse) * 2 ^ 48

/-! Routers. Outputs: 0 N, 1 S, 2 E, 3 W, 4 local. -/

/-- The output that leads from one logical position to another in its row or column. -/
def dirOf (w a b : Nat) : Nat := if b / w < a / w then 0 else if a / w < b / w then 1 else if a % w < b % w then 2 else 3
/-- The input on which a flit that left by an output arrives: the opposite side. -/
def sideOf (o : Nat) : Nat := if o = 0 then 2 else if o = 1 then 1 else if o = 2 then 4 else 3

/-- The flit belongs to memory traffic, which has no place in the plan's ticks (R244). -/
def MFlit.free (m : MFlit) : Bool := !m.reqs.isEmpty || !m.rets.isEmpty
/-- Its route ends at a fen, by the local output of the last router. -/
def FlitDst.isFen : FlitDst → Bool
  | .fen _ => true | .slu _ => true | _ => false

/-- The output by which a flit leaves the router it stands at (R298, R299). -/
def MFlit.out (w : Nat) (m : MFlit) : Nat :=
  match m.route, m.dst with
  | (a, _) :: (b, _) :: _, _ => dirOf w a b
  | _, .fen _ => 4
  | _, .slu _ => 4
  | _, .samp d => if d < 2 then 0 else 1
  | _, .edge q => if q < 8 then 3 else 2
  | _, .cross q _ => if q < 8 then 2 else 3
  | _, .mem s _ => if s < 2 then 0 else if s < 4 then 1 else if s = 4 then 3 else 2
/-- Ticks of the hop through an attachment port (R300); a transit takes 4 more on the other edge die (R316). -/
def FlitDst.hop : FlitDst → Nat
  | .samp _ => 6 | .edge _ => 8 | .cross _ _ => 12 | .mem s _ => memHop s | _ => 0

/-- The VC that a pattern gives a step tick (R306); without a pattern every VC owns it. -/
def PlanTables.owner (c : PlanTables) (pat : AMap (List Byte)) (k st : Nat) : Option Nat :=
  (pat.find? k).map fun bs =>
    let i := st % 2 ^ c.plog
    nbits (bs.getD (i / 4) 0#8).toNat (2 * (i % 4) + 1) (2 * (i % 4))

/-- The channels of an output in local tick `t` with their owners: the mesh channel, then the slot channel where the
output has one (R302). -/
def Pkg.channels (p : Pkg) (l o t : Nat) : List (Option Nat) :=
  match p.job.cur with
  | none => [none]
  | some c =>
    let st := (t - p.job.start) % max 1 c.img.stepTicks
    c.tab.owner c.tab.patterns (l * 8 + o) st ::
      (match c.tab.owner c.tab.chan (l * 8 + o) st with | some v => [some v] | none => [])
def owns (c : Option Nat) (vc : Nat) : Bool := match c with | some v => decide (v = vc) | none => true

/-- A flit stands at the router of `l` at wall time `w`, and its plan tick has come. -/
def MFlit.atRouter (m : MFlit) (l t w : Nat) : Bool :=
  match m.route with | (a, s) :: _ => decide (a = l) && decide (s ≤ t) && decide (m.left ≤ w) | [] => false

/-- Flits that are copies of one multicast flit. -/
def MFlit.same (m z : MFlit) : Bool := decide (m.src = z.src) && decide (m.inj = z.inj) && decide (m.vc = z.vc)

/-- Order of service at an output: local, N, S, E, W, then plan order (R303). -/
def MFlit.before (m z : MFlit) : Bool :=
  let s (x : MFlit) : Nat := match x.route with | (_, t) :: _ => t | [] => x.arr
  decide (m.side < z.side) || (decide (m.side = z.side) && decide (s m ≤ s z))

/-- Data that has crossed a hole: zeros with poison (R58, R220). -/
def Beat.holed (d : Beat) : Beat := { bytes := List.replicate d.bytes.length 0#8, poison := true }

def MFlit.holed (m : MFlit) : MFlit :=
  { m with data := m.data.holed, reqs := m.reqs.map fun r => { r with data := r.data.holed },
           rets := m.rets.map fun r => { r with data := r.data.holed } }

/-- The flit passes its router in the period that begins at wall time `w`: a position that no fen holds passes zeros with
poison on (R58, R220). A planned flit's transfer ends a tick before its plan tick at the next router, so that a sender up to
a tick behind is in time (R70, R71); a flit of memory traffic takes the whole hop. -/
def Pkg.hopped (p : Pkg) (m : MFlit) (w : Nat) : MFlit :=
  match m.route with
  | [] => m
  | (a, _) :: r =>
    let r2 := r.dropWhile fun z => (p.physOf z.1).isNone
    let gone := r.take (r.length - r2.length)
    let last := (gone.getLast?.map Prod.fst).getD a
    let mw := p.meshW
    let far := match r2 with | (b, _) :: _ => b | [] => last
    let h := meshTicks mw (a / mw) (a % mw) (far / mw) (far % mw) + (if r2.isEmpty then m.dst.hop else 0)
    let m := if gone.isEmpty then m else m.holed
    { m with route := r2, side := (match r2 with | (b, _) :: _ => sideOf (dirOf mw last b) | [] => 0),
             left := w + 352 * (if m.free then h else h - 1), blocked := false, tries := 0, hop := (p.physOf a).getD 0 }
/-- A flit enters the mesh at a position that no fen holds: it comes out of the hole at wall time `w`. -/
def Pkg.fromHole (p : Pkg) (m : MFlit) (w : Nat) : MFlit :=
  match m.route with
  | (a, _) :: _ => if (p.physOf a).isNone then p.hopped m.holed w else m
  | [] => m

/-- What a sender knows of the fens beyond its crossings when its period begins at wall time `w`, by logical position: the
tick of each, and whether that tick begins at `w` too and its router has not acted yet. -/
structure Peers where
  w : Nat
  tick : Nat → Nat
  now : Nat → Bool

/-- The flit occupies an entry of an elastic buffer, as a period begins that is tick `t` of its sender: it is beyond the
hop pipeline, and the receiver has not read it. DEDUCED (log entry 41): the receiver reads an entry as the flit's plan
tick begins there. -/
def MFlit.waitsAt (m : MFlit) (k : Peers) (t : Nat) : Bool :=
  match m.route with
  | (b, s) :: r =>
    if m.free then decide (m.left < k.w)
    else decide (s < t) && !(decide (k.tick b = s) && ((m.dst.isFen && r.isEmpty) || k.now b))
  | [] => if m.free then false else decide (m.arr < t)

/-- The input that the flit would enter has a free entry for its VC: fewer than 8 flits wait there beyond the hop
pipeline, entries being free from the sender's first period at or after the end of the receiver's period in which they
were read (R70, R72, R304). The same holds of an attachment that does not take its flits (R175, R289). -/
def Pkg.credit (p : Pkg) (k : Peers) (m : MFlit) (t : Nat) : Bool :=
  let n := p.hopped m k.w
  let there (z : MFlit) : Bool :=
    match n.route, z.route with
    | (b, _) :: _, (a, _) :: _ => decide (a = b) && decide (z.side = n.side)
    | [], [] => decide (z.dst = m.dst)
    | _, _ => false
  let wait := (p.mesh.filter fun z => decide (z.vc = m.vc) && there z && z.waitsAt k t).map fun z => (z.src, z.inj)
  decide (wait.eraseDups.length < 8)

/-- DEFER (R303): `n` flits of the router; the event once per step. -/
def Pkg.defer (p : Pkg) (f n : Nat) : Pkg :=
  if n = 0 then p
  else
    let p := (p.fadd F.fenMeshDefer f n).perf .fen f 0x604 n none
    let k := p.stepOf (p.local_ f) + 1
    if (p.fen f).deferStep = k then p
    else (p.updFen f fun x => { x with deferStep := k }).logFen f 0x0091 0 none

/-- The flit that a channel of an output of router `l` carries in local tick `t`: the first of its VC. -/
def Pkg.firstFlit (p : Pkg) (l t o w : Nat) (c : Option Nat) : Option MFlit :=
  (isort MFlit.before (p.mesh.filter fun m => m.atRouter l t w && decide (m.out p.meshW = o) && owns c m.vc)).head?

/-- One channel of an output of router `l` of fen `f` in local tick `t` carries the flit that is first. -/
def Pkg.channelGo (f l t o : Nat) (k : Peers) (p : Pkg) (c : Option Nat) : Pkg :=
  match p.firstFlit l t o k.w c with
  | none => p
  | some m =>
    let copy (z : MFlit) : Bool := z.atRouter l t k.w && decide (z.out p.meshW = o) && m.same z
    if p.credit k m t then
      let p := p.perf .fen f (0x600 + m.vc) 1 none
      { p with mesh := p.mesh.map fun z => if copy z then p.hopped z k.w else z }
    else
      let p := { p with mesh := p.mesh.map fun z => if copy z then { z with blocked := true } else z }
      (p.fadd F.fenMeshCreditWait f 1).perf .fen f 0x605 1 none

/-- An output of a router in a tick: its channels, then the flits that lost a slot of their VC to another input (R303). -/
def Pkg.outputGo (f l t : Nat) (k : Peers) (p : Pkg) (o : Nat) : Pkg :=
  let cs := p.channels l o t
  let went := cs.filterMap (p.firstFlit l t o k.w)
  let p := cs.foldl (Pkg.channelGo f l t o k) p
  let rest := p.mesh.filter fun m => m.atRouter l t k.w && decide (m.out p.meshW = o) && !m.blocked &&
    went.any fun z => decide (z.vc = m.vc) && decide (z.side ≠ m.side)
  p.defer f (rest.map fun m => (m.src, m.inj)).eraseDups.length

/-- The local port injects at most one flit in a tick; a flit of memory traffic takes the first slot of VC2 that no
SM.SEND takes (R164, R244). -/
def Pkg.injectMem (p : Pkg) (f l t : Nat) : Pkg :=
  let taken := p.mesh.any fun m => decide (m.src = f) && decide (m.at_ = t) && !m.free
  if taken || !((p.channels l 4 t).any fun c => owns c 2) then p
  else
    match findPos (fun (m : MFlit) => match m.route with | (a, s) :: _ => decide (a = l) && decide (s = notYet) | [] => false) p.mesh with
    | some i => { p with mesh := updAt p.mesh i fun m => { m with route := m.route.map fun z => (z.1, 0) } }
    | none => p

/-- The router of a fen in local tick `t` (R302 to R304). -/
def Pkg.routerGo (f t : Nat) (k : Peers) (p : Pkg) : Pkg :=
  match p.logOf f with
  | some l => if (p.fen f).hard then p else (List.range 4).foldl (Pkg.outputGo f l t k) (p.injectMem f l t)
  | none => p

/-- A flit at router `l` that must leave in tick `t` finds no credit (R73). -/
def Pkg.noCredit (p : Pkg) (l t : Nat) (k : Peers) : Bool :=
  decide (8 ≤ p.mesh.length) && (List.range 4).any fun o => (p.channels l o t).any fun c =>
    match p.firstFlit l t o k.w c with | some m => !p.credit k m t | none => false

/-- In a suppressed period the fen's router is not clocked, but the request flits that the hold may wait on leave all the
same: a hold never stops what it waits on (R66; DEDUCED, log entry 123). -/
def Pkg.ownRequests (p : Pkg) (l w : Nat) : Pkg :=
  match findPos (fun (m : MFlit) => !m.reqs.isEmpty && decide (m.side = 0) &&
      (match m.route with | (a, _) :: _ => decide (a = l) | [] => false)) p.mesh with
  | some i => { p with mesh := updAt p.mesh i fun m => p.hopped { m with route := m.route.map fun z => (z.1, 0) } w }
  | none => p

/-! Arrival. -/

/-- Flits of one source, destination and channel arrive in order (R75). -/
def Pkg.inOrder (p : Pkg) (i : Nat) (m : MFlit) : Bool :=
  (p.mesh.take i).all fun z => decide (z.src ≠ m.src) || decide (z.dst ≠ m.dst) || decide (z.vc ≠ m.vc)

/-- Only the last router is before the flit, and it stands there; or it has left that router for an attachment. -/
def MFlit.there (m : MFlit) (now : Nat) : Bool :=
  decide (m.left ≤ 352 * now) && decide (m.tries ≤ 16) && (if m.dst.isFen then decide (m.route.length ≤ 1) else m.route.isEmpty)

/-- Flits of the VC wait for the local output of fen `f` at an input served before that of `m` (R303). -/
def Pkg.outrun (p : Pkg) (f t : Nat) (m : MFlit) : Bool :=
  let l := p.logNum f
  p.mesh.any fun z => (decide (z.dst = .fen l) || decide (z.dst = .slu l)) && z.there p.refCount && decide (z.arr ≤ t) &&
    decide (z.vc = m.vc) && decide (z.side < m.side)

/-- The local output of fen `f` carries the flit in local tick `t`: the slot is its VC's, no flit used it, and no flit
of the VC waits at an input served before (R302, R303). -/
def Pkg.localOut (p : Pkg) (f t : Nat) (m : MFlit) : Bool :=
  (p.channels (p.logNum f) 4 t).any (fun c => owns c m.vc) && decide ((p.fen f).localOut ≠ t + 1) && !p.outrun f t m

/-- A flit is out of the mesh. -/
def Pkg.dropFlit (p : Pkg) (i : Nat) : Pkg := { p with mesh := dropAt p.mesh i }

/-- Words of a sampler's space that a run of bytes touches. -/
def Samp.write (s : Samp) (a : Nat) (d : Beat) : Samp :=
  let ws := (List.range (cdiv d.bytes.length 8)).map fun k => a / 8 * 8 + 8 * k
  { s with mem := s.mem.write a (if d.poison then List.replicate d.bytes.length 0#8 else d.bytes),
           bad := (s.bad.filter fun x => !ws.contains x) ++ (if d.poison then ws else []) }

/-- A draw reads the bank or the slot entry that a flit would write (R175). -/
def Samp.holds (s : Samp) (a : Nat) : Bool :=
  match s.run with
  | some r =>
    let w := r.cmd.word
    if a < 0x200000 then decide (a / 0x100000 = drBank w) else decide ((a - 0x200000) / 512 = drSlot w)
  | none => false

/-- A flit that lost its slot of the local output to another input counts as deferred, once for the slot (R303). -/
def Pkg.localDefer (p : Pkg) (f t i : Nat) (m : MFlit) : Pkg :=
  let lost := (p.channels (p.logNum f) 4 t).any (fun c => owns c m.vc) &&
    (decide ((p.fen f).localOut = t + 1) && decide ((p.fen f).localVc = m.vc) && decide ((p.fen f).localSide ≠ m.side) || p.outrun f t m)
  if lost && decide (m.lost ≠ t + 1) then
    ({ p with mesh := updAt p.mesh i fun z => { z with lost := t + 1 } }).defer f 1
  else p

/-- The flit leaves the router of fen `f` by its local output. -/
def Pkg.takeFlit (p : Pkg) (i f t : Nat) (m : MFlit) : Pkg :=
  ((p.dropFlit i).updFen f fun x => { x with localOut := t + 1, localVc := m.vc, localSide := m.side }).perf .fen f (0x600 + m.vc) 1 none

/-- The transit of ordinal `o` has come through the mesh to its edge die; a hole on the way has left it zeros with poison
(R58, R316). -/
def Port.crossed (o : Nat) (d : Beat) (x : Port) : Port :=
  { x with rx := x.rx.map fun r =>
      if r.ord ≠ o then r
      else { r with transit := r.transit.map fun m => { m with crossing := false },
                    bytes := if d.poison && !d.bytes.isEmpty then
                        setAt (r.bytes.take 8) 7 (r.bytes.getD 7 0#8 ||| 128#8) ++ d.bytes ++ r.bytes.drop 248 else r.bytes } }

/-- MESH_FLIT_ARRIVAL (R70 to R75, R150, R166): the flit is written in its arrival tick or as soon after as nothing
holds it. -/
def meshFlitArrival (i : Nat) (p : Pkg) : Pkg :=
  match p.mesh[i]? with
  | none => p
  | some m =>
    if !p.inOrder i m || !m.there p.refCount then p
    else match m.dst with
    | .fen l =>
      match p.physOf l with
      | none => p.dropFlit i
      | some f =>
        let x := p.fen f
        let t := p.local_ f
        if t < m.arr then p
        else if x.hard then p.dropFlit i
        else if !p.localOut f t m then p.localDefer f t i m
        else if m.ep < 256 && m.ep ≠ x.proc.ep.toNat % 256 then (p.takeFlit i f t m).fadd F.fenCmdStatEpochDrop f 1
        else if p.readPending f (m.addr / 512 * 512) m.arr (t + b2n x.clk.heldNow) none then p
        else (p.takeFlit i f t m).paWrite f [(m.addr, m.data.bytes)] m.data.poison
    | .samp d =>
      if p.refCount < m.arr then p
      else if 0x280000 < m.addr + m.len then (p.dropFlit i).log .samp d 0x0033 p.refCount 0 none
      else if (p.samp d).holds m.addr then p
      else (p.dropFlit i).setSamp d ((p.samp d).write m.addr m.data)
    | .edge q =>
      let e := m.addr / 256
      let s := (p.port q).stag.getD e .init
      if p.refCount < m.arr || s.payTag || s.hdrTag && s.null then p
      else
        let s := { s with payTag := true, payload := m.data.bytes.take 240, poison := m.data.poison }
        (p.dropFlit i).updPort q fun x => { x with stag := AMap.put x.stag e s }
    | .cross q o => if p.refCount < m.arr then p else (p.dropFlit i).updPort q (Port.crossed o m.data)
    | .mem _ _ => p
    | .slu _ => p
def execMeshFlitArrival (i : Nat) (s : State) : Host.Outcome State Fault Refusal := onPkg (meshFlitArrival i) s

/-- The hop that flit `m` has just made leads from fen `snd` to fen `rcv`; a hop between a router and an attachment is
named by the router's fen alone (R305). -/
def Pkg.hopOf (p : Pkg) (m : MFlit) (snd rcv : Nat) : Bool :=
  match m.route with
  | (a, _) :: _ => decide (m.side ≠ 0) && decide (p.physOf a = some rcv) &&
      (decide (m.hop = snd) || (decide (288 ≤ m.hop) && decide (snd = rcv)))
  | [] => decide (m.hop = snd) && decide (snd = rcv)

/-- MESH_HOP_REPEAT (R305, R481, R486): a bad CRC at `rcv` costs four ticks; when the sixteenth repeat of the hop fails
too, the flit is lost, which its consumers go on waiting for, and so are both fens. -/
def meshHopRepeat (i snd rcv : Nat) (p : Pkg) : Pkg :=
  match p.mesh[i]? with
  | none => p
  | some m =>
    if !p.hopOf m snd rcv || decide (16 < m.tries) then p
    else
      let n := m.tries + 1
      let till := max m.left (352 * p.refCount) + 4 * 352
      let late (z : MFlit) : MFlit :=
        if z.same m && decide (z.route.head? = m.route.head?) then { z with tries := n, left := if n ≤ 16 then till else notYet } else z
      let p := { p with mesh := p.mesh.map late }
      if n ≤ 16 then p.fadd F.fenMeshCrcRetry snd 1
      else
        let p := p.logFen snd 0x0090 0 (some 10)
        let p := if snd = rcv then p else p.logFen rcv 0x0090 0 (some 10)
        let p := p.fenHard snd 0
        if snd = rcv then p else p.fenHard rcv 0
def execMeshHopRepeat (i : Nat) (snd rcv : Fin 288) (s : State) : Host.Outcome State Fault Refusal :=
  onPkg (meshHopRepeat i snd rcv) s

end Sys2Proof.Machine
end

