-- ==== Sys2Proof/Machine/Sampler.lean ====
section
/-! DEFINITION. The sampler of a compute die: order of draws, the draw and its record (R168 to R175). -/
namespace Sys2Proof.Machine

open Sys2Proof

/-- The queue in the order of R168: firing tick, logical fen, push order. -/
def insertDraw (q : QCmd) (l : List QCmd) : List QCmd :=
  let before (z : QCmd) : Bool := decide (z.fire < q.fire) || (decide (z.fire = q.fire) && decide (z.fen ≤ q.fen))
  l.takeWhile before ++ q :: l.dropWhile before

/-- Result record (R174). -/
def sampBytes (token prob flags pos : Nat) : List Byte :=
  leBytes 4 token ++ leBytes 4 prob ++ leBytes 2 flags ++ [0#8, 0#8] ++ leBytes 4 pos

/-- Token, probability and flags of a draw on a sampler (R172, R174): poisoned inputs give POISON alone. -/
def Pkg.drawOf (p : Pkg) (d : Nat) (q : QCmd) : Nat × Nat × Nat :=
  let s := p.samp d
  let w := q.word
  let la := drBank w * 0x100000
  let sa := 0x200000 + 512 * drSlot w
  let n := drVocab w
  if s.bad.any fun a => (decide (la ≤ a + 7) && decide (a < la + 4 * n)) || (decide (sa ≤ a) && decide (a < sa + 512)) then
    (0, 0, 8)
  else
    let e := SlotEnt.parse (s.mem.read sa 512)
    let bs := s.mem.read la (4 * n)
    let ls := (chunksOf 4 bs).map fun b => BitVec.ofNat 32 (ofLe b)
    let (t, pr, fl) := drawToken e ls (drPos w) (drDraw w) (p.stepOf q.fire)
    (t, pr.toNat, fl + b2n (decide (drDidx w < 8) && decide (e.draft.getD (drDidx w) 0 = t)))

/-- A record goes to its slab and to the Roll (R174). -/
def Pkg.sendRecord (p : Pkg) (d : Nat) (q : QCmd) (t : Nat) (r : Nat × Nat × Nat) : Pkg × Nat :=
  let w := q.word
  let e := SlotEnt.parse ((p.samp d).mem.read (0x200000 + 512 * drSlot w) 512)
  let arr := t + topkLat p.lc2 + hopSamp p.meshW e.dstFen d
  let t0 := t + topkLat p.lc2 + 6
  let at_ := (sampAt p.meshW d).1 * p.meshW + (sampAt p.meshW d).2
  let a := e.dstAddr + 16 * drRidx w
  let ok := aligned e.dstAddr 16 && decide (a + 15 ≤ 10485759) && (p.physOf e.dstFen).isSome
  let m : MFlit :=
    { src := 288 + d, dst := .fen e.dstFen, addr := a, data := ⟨sampBytes r.1 r.2.1 r.2.2 (drPos w), r.2.2 = 8⟩,
      len := 16, ep := epOf w, vc := 0, arr := arr, tries := 0, hop := 288 + d, inj := t0,
      route := planRoute p.meshW at_ e.dstFen e.dstFen t0, side := if d < 2 then 1 else 2, left := 352 * (t0 - 1), blocked := false, by_ := q.fen }
  let p := if ok then { p with mesh := p.mesh ++ [m] } else p.unmapped ((p.physOf q.fen).getD 0) q.fire
  let rec_ : SampRec :=
    { die := d, slot := drSlot w, ridx := drRidx w, step := p.stepOf q.fire, token := r.1, prob := r.2.1, flags := r.2.2,
      pos := drPos w, due := arr, by_ := q.fen }
  let p := if e.toRoll then { p with roll := { p.roll with inbound := p.roll.inbound ++ [rec_] } } else p
  (p, arr)

/-- An illegal draw at place `i` of the queue (R151, R594). -/
def Pkg.illegalDraw (p : Pkg) (d i : Nat) (q : QCmd) : Pkg :=
  let f := (p.physOf q.fen).getD 0
  let t := p.refCount
  let p := p.setSamp d { p.samp d with queue := dropAt (p.samp d).queue i }
  let p := (p.log .fen f 0x0033 q.fire (opOf q.word) none).fadd F.fenCmdStatIllegal f 1
  let p := p.defect t 0x0033
  let p := p.markCmd d .samp q q.fire q.fire true (p.lag16 f)
  if opOf q.word = 0xC1 then (p.sendRecord d q t (0, 0, 8)).1 else p

/-- The illegal draws whose firing tick has come, wherever they stand in the queue (R151). -/
def Pkg.illegalDraws (d : Nat) : Nat → Pkg → Pkg
  | 0, p => p
  | n + 1, p =>
    match (p.samp d).queue.zipIdx.find? fun z =>
        p.isDue z.1 p.refCount && !p.legal ((p.physOf z.1.fen).getD 0) .samp z.1.word with
    | some (q, i) => Pkg.illegalDraws d n (p.illegalDraw d i q)
    | none => p

/-- A flit that the plan has written before a draw fires, into its bank or slot entry, has not been written: the draw waits
for it (R46, R175). -/
def Pkg.drawWaits (p : Pkg) (d : Nat) (q : QCmd) : Bool :=
  let s : Samp := { p.samp d with run := some ⟨q, 0, 0⟩ }
  p.mesh.any fun m => decide (m.dst = .samp d) && decide (m.arr < q.fire) && s.holds m.addr

/-- SAMP_DRAW (R168, R171 to R175): the first entry whose firing tick is reached starts when no draw runs. -/
def sampDraw (d : Nat) (p : Pkg) : Pkg :=
  let s := p.samp d
  let t := p.refCount
  match s.queue.find? fun q => p.isDue q t with
  | none => p
  | some q =>
    let f := (p.physOf q.fen).getD 0
    let rest := s.queue.erase q
    if !p.legal f .samp q.word then p.illegalDraw d (s.queue.idxOf q) q
    else if s.run.isSome || decide (t < s.lastStart) || p.drawWaits d q then p
    else
      let r := p.drawOf d q
      let (p, arr) := p.sendRecord d q t r
      let p := p.setSamp d { p.samp d with queue := rest, lastStart := t + 1, run := some ⟨q, t, arr⟩ }
      let p := p.perf .fen f 0x302 1 (engine 0)
      let p := p.perf .fen f 0x303 (t - q.fire) (engine 0)
      let p := p.markCmd d .samp q t arr false (p.lag16 f)
      let p := p.fadd F.sampStatNanDraws d (b2n (decide (r.2.2 / 4 % 2 = 1)))
      p.fadd F.sampStatMaskedDraws d (b2n (decide (r.2.2 / 16 % 2 = 1) || decide (r.2.2 = 8)))
def execSampDraw (d : Fin 4) (s : State) : Host.Outcome State Fault Refusal := onPkg (sampDraw d) s

/-- A tick of the sampler: a draw whose record is delivered ends (R175, R180), and illegal draws that fire are filled. -/
def Pkg.sampTick (p : Pkg) (d : Nat) : Pkg :=
  let p := Pkg.illegalDraws d (p.samp d).queue.length p
  match (p.samp d).run with
  | some r =>
    if r.stop ≤ p.refCount then (p.setSamp d { p.samp d with run := none }).fadd F.sampStatDraws d 1 else p
  | none => p

/-- The epoch of a fen advances: its queued draws go, and its records that are not delivered take no effect (R148). -/
def Pkg.sampSquash (p : Pkg) (l ep8 d : Nat) : Pkg × Nat :=
  let s := p.samp d
  let gone := s.queue.filter fun q => decide (q.fen = l) && decide (epOf q.word ≠ ep8)
  let p := p.setSamp d { s with queue := s.queue.filter fun q => decide (q.fen ≠ l) || decide (epOf q.word = ep8) }
  let lost (x : SampRec) : Bool := decide (x.die = d) && decide (x.by_ = l) && decide (p.refCount < x.due)
  let p := { p with mesh := p.mesh.filter (fun m => !(decide (m.src = 288 + d) && decide (m.by_ = l))),
                    roll := { p.roll with inbound := p.roll.inbound.filter (fun x => !lost x) } }
  (p, gone.length)

end Sys2Proof.Machine
end

