-- ==== Sys2Proof/Machine/Memories.lean ====
section
/-! DEFINITION. Stacked DRAM and the peat tier: address map, controllers, refresh, errors and repair lists; data that
returns to the sluices (R234 to R259). -/
namespace Sys2Proof.Machine

open Sys2Proof

/-! Address map (R242, R257). -/
structure DMap where
  /-- pseudo-channel index in the stack -/
  pc : Nat
  bg : Nat
  ba : Nat
  row : Nat
  sid : Nat
deriving DecidableEq, Repr

def sdramMap (a : Nat) : DMap :=
  let o := nbits a 35 0
  { pc := sdramPc o, bg := nbits o 17 16 ^^^ nbits o 27 26, ba := nbits o 19 18 ^^^ nbits o 29 28,
    row := nbits o 33 20, sid := nbits o 35 34 }
/-- Planning bank within its stack (R243), and within all pseudo-channels of a stack (R249). -/
def DMap.bank (m : DMap) : Nat := m.pc * 16 + m.bg * 4 + m.ba
def DMap.win (m : DMap) : Nat := m.bg * 4 + m.ba
/-- A row of a stack, as a number. -/
def DMap.rowKey (m : DMap) : Nat := ((m.pc * 4 + m.sid) * 16 + m.win) * 2 ^ 14 + m.row
/-- The spare row that serves a listed row: pseudo-channel, SID and bank group (R255). -/
def spareKey (k : Nat) : Nat := let w := k / 2 ^ 14; w / 16 * 4 + w % 16 / 4

def Pkg.updDram (p : Pkg) (g : Dram → Dram) : Pkg := { p with dram := g p.dram }
def Pkg.updStack (p : Pkg) (s : Nat) (g : Stack → Stack) : Pkg := p.setStack s (g (p.stack s))

/-! Words (R254). -/

/-- List a row for repair; a full list takes no more (R255). -/
def Pkg.listRow (p : Pkg) (s k : Nat) : Pkg :=
  let x := p.stack s
  if x.repairList.contains k || decide (16 ≤ x.repairList.length) then p
  else
    let p := p.setStack s { x with repairList := x.repairList ++ [k] }
    p.fset F.sdramPprPending s (x.repairList.length + 1)

/-- Read one word at a package address (stack and offset in 39 bits). -/
def Pkg.dramWord (p : Pkg) (a : Nat) : EccRead :=
  match p.dram.raw.find? a with
  | some w => eccDecode w
  | none => .ok (ofLe (p.dram.mem.read a 8))
def Pkg.dramPut (p : Pkg) (a d : Nat) : Pkg :=
  p.updDram fun m => { m with mem := m.mem.write a (leBytes 8 d), raw := AMap.erase m.raw a }
def Pkg.dramPoison (p : Pkg) (a : Nat) : Pkg :=
  p.updDram fun m => { m with mem := m.mem.write a (leBytes 8 0), raw := AMap.put m.raw a eccPoison }

/-- One word delivered by a controller, with its events (R254). -/
def Pkg.dramReadWord (p : Pkg) (a : Nat) : Pkg × List Byte × Bool :=
  let s := nbits a 38 36
  let k := (sdramMap a).rowKey
  match p.dramWord a with
  | .ok d => (p, leBytes 8 d, false)
  | .corrected d =>
    let p := (p.log1 .sdram s 0x0070 0 none).fadd F.sdramEccCe s 1
    let n := (p.stack s).ceCount.getD k 0 + 1
    let p := p.updStack s fun x => { x with ceCount := AMap.put x.ceCount k n }
    let p := if max 1 (p.fget F.sdramCfgPprCeLimit s) ≤ n then p.listRow s k else p
    (p.dramPut a d, leBytes 8 d, false)
  | .bad =>
    let p := ((p.log1 .sdram s 0x0071 0 none).fadd F.sdramEccUe s 1).ue
    let p := p.fset F.sdramErrAddrOffset s (nbits a 35 6 * 64)
    ((p.listRow s k).freeNext, leBytes 8 p.freeNat, true)

def Pkg.dramReadGo : Nat → Nat → Pkg → Pkg × List Byte × Bool
  | 0, _, p => (p, [], false)
  | n + 1, a, p =>
    let r := p.dramReadWord a
    let s := Pkg.dramReadGo n (a + 8) r.1
    (s.1, r.2.1 ++ s.2.1, r.2.2 || s.2.2)

/-- Store whole words; poison stores poisoned words (R254). -/
def Pkg.dramWriteGo : List (List Byte) → Nat → Bool → Pkg → Pkg
  | [], _, _, p => p
  | w :: r, a, po, p =>
    Pkg.dramWriteGo r (a + 8) po (if po then p.dramPoison a else p.dramPut a (ofLe (padTo 8 w)))

/-! The weight pointer table (R393). -/

/-- Entry of the active side; one that no set names holds an unmapped address. -/
def Wgt.wpt (w : Wgt) (i : Nat) : W64 := (if w.side = 0 then w.sideA else w.sideB).getD i 0x8000000000#64
/-- An offset of a stack lies in the WPT window. -/
def inWpt (o : Nat) : Bool := decide (0xBD0000000 ≤ o) && decide (o < 0xBD0080000)
/-- A byte of the window. -/
def Wgt.wptByte (w : Wgt) (o : Nat) : Byte :=
  BitVec.ofNat 8 ((w.wpt ((o - 0xBD0000000) / 8)).toNat / 256 ^ (o % 8))

/-- Bytes that a memory holds at an address. -/
def Pkg.memRead (p : Pkg) (cls a n : Nat) : List Byte :=
  if cls = 0 then
    let bs := p.dram.mem.read (a % 2 ^ 39) n
    if inWpt (a % 2 ^ 36) || inWpt ((a + (n - 1)) % 2 ^ 36) then
      bs.zipIdx.map fun x => if inWpt ((a + x.2) % 2 ^ 36) then p.wgt.wptByte ((a + x.2) % 2 ^ 36) else x.1
    else bs
  else p.dram.peat.read (a % 2 ^ 41) n

/-- One burst of the peat tier as its controller delivers it, with its events (R259). -/
def Pkg.peatBurst (p : Pkg) (a : Nat) : Pkg × List Byte × Bool :=
  let b := peatChan a / 4
  let e := p.dram.peatBad.getD a 0
  if e = 2 then
    let q := ((p.log1 .peat b 0x0073 0 none).fadd F.peatEccUe b 1).ue
    (q.freeNext, ((List.range 8).map fun _ => leBytes 8 q.freeNat).flatten, true)
  else
    (if e = 1 then (p.log1 .peat b 0x0072 0 none).fadd F.peatEccCe b 1 else p, p.dram.peat.read a 64, false)
def Pkg.peatGo : Nat → Nat → Pkg → Pkg × List Byte × Bool
  | 0, _, p => (p, [], false)
  | n + 1, a, p =>
    let r := p.peatBurst a
    let s := Pkg.peatGo n (a + 64) r.1
    (s.1, r.2.1 ++ s.2.1, r.2.2 || s.2.2)

/-- Words or bursts of a run that are not stored as the encoding of their data. -/
def Pkg.oddWords (p : Pkg) (cls a n : Nat) : List Nat :=
  if cls = 0 then (p.dram.raw.filter fun x => decide (a % 2 ^ 39 < x.1 + 8) && decide (x.1 < a % 2 ^ 39 + n)).map Prod.fst
  else (p.dram.peatBad.filter fun x => decide (a % 2 ^ 41 < x.1 + 64) && decide (x.1 < a % 2 ^ 41 + n)).map Prod.fst
/-- What the controllers correct, log and count as a run is read by the ROM, the loader or a unit (R254, R259). -/
def Pkg.noteRead (p : Pkg) (cls a n : Nat) : Pkg :=
  (p.oddWords cls a n).foldl (fun (p : Pkg) x => if cls = 0 then (p.dramReadWord x).1 else (p.peatBurst x).1) p
/-- A run read through the controllers. -/
def Pkg.memGet (p : Pkg) (cls a n : Nat) : Pkg × List Byte := let p := p.noteRead cls a n; (p, p.memRead cls a n)
/-- The words or bursts of a run that no controller can correct. -/
def Pkg.badWords (p : Pkg) (cls a n : Nat) : List Nat :=
  (p.oddWords cls a n).filter fun x => if cls = 0 then decide (p.dramWord x = .bad) else decide (p.dram.peatBad.getD x 0 = 2)

/-- Bytes stored by the ROM, the loader or the windows; whole or part words become good data. -/
def Pkg.memWrite (p : Pkg) (cls a : Nat) (bs : List Byte) : Pkg :=
  if cls = 0 then
    let b := a % 2 ^ 39
    p.updDram fun m => { m with mem := m.mem.write b bs, raw := m.raw.filter fun x => decide (x.1 + 8 ≤ b) || decide (b + bs.length ≤ x.1) }
  else
    let b := a % 2 ^ 41
    p.updDram fun m => { m with peat := m.peat.write b bs, peatBad := m.peatBad.filter fun x => decide (x.1 + 64 ≤ b) || decide (b + bs.length ≤ x.1) }

/-! Controllers. -/

/-- The n-th waiting request that satisfies a test, with its place in the queue. -/
def nthReq (t : DReq → Bool) (q : List DReq) (n : Nat) : Option (Nat × DReq) :=
  ((q.zipIdx.filter fun x => t x.1)[n]?).map fun x => (x.2, x.1)

/-- Atoms of the same request on their way to the same place. -/
def DRet.same (x y : DRet) : Bool := decide (x.fen = y.fen) && decide (x.slu = y.slu) && decide (x.ent = y.ent)
/-- Number of a memory attachment as a source of mesh flits. -/
def memSrc (side : Nat) : Nat := 308 + side

/-- A flit with atoms that were read leaves an attachment for logical fen `l` (R244). -/
def Pkg.sendRets (p : Pkg) (l side k : Nat) (rs : List DRet) : Pkg :=
  let m := p.memFlit (memSrc side) (memAt p.meshW side k) (.slu l) l (352 * (p.refCount + memHop side))
  p.addMem <| p.fromHole (w := 352 * (p.refCount + memHop side)) { m with side := memSide side, rets := rs, data := { bytes := [], poison := rs.any fun r => r.data.poison } }

/-- A request is served. An atom read waits at the attachment until four atoms of its request fill a flit or no more are to
come (R244); a write is accepted at once. Atoms for a fen that the plan does not map have nowhere to go. -/
def Pkg.dropReq (p : Pkg) (i : Nat) (r : DReq) (x : DRet) : Pkg :=
  let p := p.updDram fun m => { m with queue := dropAt m.queue i }
  if r.write then (if r.fen < 288 then p.updDram fun m => { m with returns := m.returns ++ [x] } else p)
  else
    match p.logOf r.fen with
    | none => p
    | some l =>
      let d := p.attachOf l r.cls r.addr
      let mine := ((p.dram.out.filter fun z => decide (z.1 = d) && z.2.same x).map Prod.snd) ++ [x]
      let more := p.dram.queue.any fun z => !z.write && (z.answer z.data).same x && decide (p.attachOf l z.cls z.addr = d)
      if mine.length < 4 && more then p.updDram fun m => { m with out := m.out ++ [(d, x)] }
      else
        let p := p.updDram fun m => { m with out := m.out.filter fun z => !(decide (z.1 = d) && z.2.same x) }
        match d with | .mem side k => p.sendRets l side k mine | _ => p

/-- DRAM_RACE (R238): another sluice's request of the other kind for the same atom waits at the controller. -/
def Pkg.dramRace (p : Pkg) (i : Nat) (r : DReq) (s : Nat) : Pkg :=
  let other := p.dram.queue.zipIdx.any fun x => decide (x.2 ≠ i) && decide (x.1.cls = 0) && decide (x.1.addr = r.addr) &&
    decide (x.1.write ≠ r.write) && decide ((x.1.fen, x.1.slu) ≠ (r.fen, r.slu))
  if other then ((p.log1 .sdram s 0x0079 0 none).fadd F.sdramStatRace s 1).defect p.refCount 0x0079 else p

/-- DRAM_REQUEST_SERVICE (R243, R245, R246, R254): the i-th request of a stack, unless an older one waits for its
planning bank or the bank is under refresh. -/
def dramRequestService (s i : Nat) (p : Pkg) : Pkg :=
  match nthReq (fun r => decide (r.cls = 0) && decide (nbits r.addr 38 36 = s)) p.dram.queue i with
  | none => p
  | some (k, r) =>
    let m := sdramMap r.addr
    let x := p.stack s
    let older := (p.dram.queue.take k).any fun z =>
      decide (z.cls = 0) && decide (nbits z.addr 38 36 = s) && decide ((sdramMap z.addr).bank = m.bank)
    if older || x.selfRefresh || !x.up then p
    else if p.refCount < x.refresh.getD m.win 0 then
      if r.held then p
      else
        let p := p.updDram fun d => { d with queue := setAt d.queue k { r with held := true } }
        if p.planRuns then (p.fadd F.sdramStatWinHold s 1).perf .sdram s 0x513 1 (engine r.addr) else p
    else
      let key := m.sid * 2 ^ 14 + m.row
      let ev := match x.banks.find? m.bank with
        | some o => if p.refCount ≤ o.last + 32 then (if o.row = key then 0x510 else 0x512) else 0x511
        | none => 0x511
      let p := p.perf .sdram s ev 1 (engine r.addr)
      let p := p.updStack s fun x => { x with banks := AMap.put x.banks m.bank { row := key, last := p.refCount } }
      let p := p.dramRace k r s
      let a := r.addr % 2 ^ 39
      if r.write then
        let p := Pkg.dramWriteGo (chunksOf 8 (padTo 64 r.data.bytes)) a r.data.poison p
        p.dropReq k r (r.answer r.data)
      else
        let wpt := inWpt (a % 2 ^ 36)
        let bad := if wpt then [] else (List.range 8).filter fun i => decide (p.dramWord (a + 8 * i) = .bad)
        let (p, bs, po) :=
          if wpt then (p, (List.range 64).map fun i => p.wgt.wptByte (a % 2 ^ 36 + i), false) else Pkg.dramReadGo 8 a p
        p.dropReq k r { r.answer ⟨bs, po⟩ with bad := bad }
def execDramRequestService (st : Fin 8) (i : Nat) (s : State) : Host.Outcome State Fault Refusal :=
  onPkg (dramRequestService st i) s

/-- PEAT_REQUEST_SERVICE (R238, R257 to R259): the i-th peat request, unless its sluice has an older one for the atom. -/
def peatRequestService (i : Nat) (p : Pkg) : Pkg :=
  match nthReq (fun r => decide (r.cls = 1)) p.dram.queue i with
  | none => p
  | some (k, r) =>
    let older := (p.dram.queue.take k).any fun z =>
      decide (z.cls = 1) && decide (z.addr = r.addr) && decide ((z.fen, z.slu) = (r.fen, r.slu))
    let a := r.addr % 2 ^ 41
    if older then p
    else
      let p := p.perf .peat (peatChan r.addr / 4) 0x520 1 (engine r.addr)
      if r.write then
        let bs := if r.data.poison then List.replicate 64 0#8 else padTo 64 r.data.bytes
        let p := p.updDram fun m =>
          { m with peat := m.peat.write a bs, peatBad := AMap.set 0 m.peatBad a (if r.data.poison then 2 else 0) }
        p.dropReq k r (r.answer r.data)
      else
        let (p, bs, po) := p.peatBurst a
        p.dropReq k r (r.answer ⟨bs, po⟩)
def execPeatRequestService (i : Nat) (s : State) : Host.Outcome State Fault Refusal := onPkg (peatRequestService i) s

/-! Refresh. -/

/-- A planning bank is under refresh until a tick; its rows close (R245). -/
def Pkg.refreshBank (p : Pkg) (s bank until_ : Nat) : Pkg :=
  p.updStack s fun x => { x with refresh := AMap.put x.refresh bank until_,
                                 banks := x.banks.filter fun b => decide (b.1 % 16 ≠ bank) }

/-- REFRESH_WINDOW (R249, R250): timed by the reference count from the step's start. -/
def refreshWindow (s bank : Nat) (p : Pkg) : Pkg :=
  match p.job.cur with
  | some c =>
    let o := p.refCount - p.stepStart (p.stepOf p.refCount)
    match c.tab.refresh.find? fun w => decide (w.2.1 = s) && decide (w.2.2 = bank) && decide (w.1 ≤ o) && decide (o < w.1 + 160) with
    | some w => if p.planRuns && p.fitted s then p.refreshBank s bank (p.refCount - o + w.1 + 160) else p
    | none => p
  | none => p
def execRefreshWindow (st : Fin 8) (bank : Nat) (s : State) : Host.Outcome State Fault Refusal :=
  onPkg (refreshWindow st bank) s

/-- OWN_REFRESH (R250, R252): only while no plan runs. -/
def ownRefresh (s bank : Nat) (p : Pkg) : Pkg :=
  if !p.planRuns && p.fitted s && decide (bank < 16) && !(p.stack s).selfRefresh then
    p.refreshBank s bank (p.refCount + Config.jedecRefresh)
  else p
def execOwnRefresh (st : Fin 8) (bank : Nat) (s : State) : Host.Outcome State Fault Refusal := onPkg (ownRefresh st bank) s

/-- Band of a temperature (R248), and the upper limit of a band. -/
def bandOf (t : Nat) : Nat := if t ≤ 85 then 0 else if t ≤ 95 then 1 else if t ≤ 105 then 2 else 3
def bandLimit (b : Nat) : Nat := if b = 0 then 85 else if b = 1 then 95 else 105
def Pkg.setTemp (p : Pkg) (s t : Nat) : Pkg := (p.fset F.sdramThermTempC s t).fset F.sdramThermBand s (bandOf t)

/-- REFRESH_DEFICIT (R253). -/
def refreshDeficit (s t : Nat) (p : Pkg) : Pkg :=
  let p := p.setTemp s t
  if p.planRuns && p.fitted s && decide (p.fget F.sdramThermCover s < bandOf t) && !p.fon F.sdramThermDeficit s then
    (p.fset F.sdramThermDeficit s 1).log1 .sdram s 0x0074 0 (some 8)
  else p
def execRefreshDeficit (st : Fin 8) (temp : Nat) (s : State) : Host.Outcome State Fault Refusal :=
  onPkg (refreshDeficit st temp) s

/-- DEFICIT_CLEAR (R253): 2 °C below the covered band's limit. -/
def deficitClear (s t : Nat) (p : Pkg) : Pkg :=
  let p := p.setTemp s t
  if t + 2 ≤ bandLimit (p.fget F.sdramThermCover s) then p.fset F.sdramThermDeficit s 0 else p
def execDeficitClear (st : Fin 8) (temp : Nat) (s : State) : Host.Outcome State Fault Refusal :=
  onPkg (deficitClear st temp) s

/-! Returns to the sluices. -/

def Pkg.updEntry (p : Pkg) (r : DRet) (g : SlEnt → SlEnt) : Pkg :=
  p.updFen r.fen fun x => x.setSluice r.slu ((x.sluice r.slu).map fun e => if e.id = r.ent then g e else e)

/-- SLUICE_DATA_ARRIVAL (R234, R235, R239): one atom of read data; the last atom of a discarded entry frees its slot. -/
def sluiceDataArrival (i : Nat) (p : Pkg) : Pkg :=
  match (p.dram.returns.zipIdx.filter fun x => !x.1.write && decide (x.1.slu < 4))[i]? with
  | none => p
  | some (r, k) =>
    let p := p.updDram fun m => { m with returns := dropAt m.returns k }
    let p := p.updEntry r fun e => { e with atoms := AMap.put e.atoms r.atom (if e.dead then ⟨[], false⟩ else r.data) }
    p.updFen r.fen fun x =>
      x.setSluice r.slu ((x.sluice r.slu).filter fun e => !(e.dead && decide (8 * e.beats ≤ e.atoms.length)))
def execSluiceDataArrival (i : Nat) (s : State) : Host.Outcome State Fault Refusal := onPkg (sluiceDataArrival i) s

/-- SLUICE_WRITE_ACCEPT (R237). -/
def sluiceWriteAccept (i : Nat) (p : Pkg) : Pkg :=
  match (p.dram.returns.zipIdx.filter fun x => x.1.write)[i]? with
  | none => p
  | some (r, k) =>
    let p := p.updDram fun m => { m with returns := dropAt m.returns k }
    p.updEntry r fun e => { e with accepted := if e.accepted.contains r.atom then e.accepted else e.accepted ++ [r.atom] }
def execSluiceWriteAccept (i : Nat) (s : State) : Host.Outcome State Fault Refusal := onPkg (sluiceWriteAccept i) s

/-- Entries of one sluice whose data is complete become ready in order (R235, R237). -/
def readySweep : Bool → List SlEnt → List SlEnt
  | _, [] => []
  | ok, e :: r =>
    let full := if e.write then decide (8 * e.beats ≤ e.accepted.length) else decide (8 * e.beats ≤ e.atoms.length)
    let now := e.ready || (full && !e.dead && (e.write || ok))
    { e with ready := now } :: readySweep (ok && (e.write || e.dead || now)) r

/-- The tick after data was written: readiness, lateness and poison of a fen's sluices (R235, R247, R260). -/
def Pkg.sluiceTick (f : Nat) (p : Pkg) (s : Nat) : Pkg :=
  let old := (p.fen f).sluice s
  if old.isEmpty then p
  else
    let new := readySweep true old
    let got := (old.zip new).filter fun z => !z.1.ready && z.2.ready
    let ceil := match p.sluiceBind f s with | some b => b.2 | none => 0
    let late := (got.filter fun z => decide (z.2.at_ + ceil < p.refCount)).length
    let bad := (got.filter fun z => z.2.poisoned).length
    let p := p.updFen f fun x => x.setSluice s new
    let p := (p.fadd F.fenSluiceStatLate f late).fadd F.fenSluiceStatPoison f bad
    p.perf .fen f 0x501 late (engine 0)

end Sys2Proof.Machine
end

