-- ==== Sys2Proof/Machine/Completion.lean ====
section
/-! DEFINITION. Rings in host memory and the completions of commands (R343, R439, R440). -/
namespace Sys2Proof.Machine

open Sys2Proof

/-- The FREE-running ring rules of R343: records posted and not consumed, and PHASE of record HEAD. -/
def ringUsed (head tail : Nat) : Nat := (head + 2 ^ 32 - tail) % 2 ^ 32
def ringPhase (head size : Nat) : Nat := 1 - head / 2 ^ size % 2

/-- A posted write to host memory. -/
def Pkg.hostWrite (p : Pkg) (a : Nat) (bs : List Byte) : Pkg :=
  { p with host := { p.host with mem := p.host.mem.write (a % 2 ^ 64) bs } }

/-! The command records. -/

/-- Bytes of a command's record as a number. -/
def Cmd.le (c : Cmd) (off n : Nat) : Nat := leAt c.rec_ off n

/-- Command set 1.3 (R446). -/
def Pkg.v13 (p : Pkg) : Bool := p.part.b0

/-- SIZE_LOG2 of the completion ring (R449). -/
def Pkg.cplSize (p : Pkg) : Nat := min 12 (max 6 (p.fget F.hostCplCfgSizeLog2 0))

/-- Post one completion at the ring's head (R439). -/
def Pkg.cplWrite (p : Pkg) (c : Cpl) (slot : Nat) : Pkg :=
  let h := p.fget F.hostCplHeadIndex 0
  let sz := p.cplSize
  let b := leBytes 1 (ringPhase h sz + 2 * b2n c.accepted) ++ leBytes 1 slot ++ leBytes 2 c.opcode ++
    leBytes 2 c.status ++ leBytes 2 0 ++ leBytes 8 c.tag ++ leBytes 8 c.res0 ++ leBytes 8 c.res1
  let p := p.hostWrite (p.fget F.hostCplBaseBase 0 + 32 * (h % 2 ^ sz)) b
  let p := p.fset F.hostCplHeadIndex 0 (h + 1)
  let p := p.fset F.hostCplHeadPhase 0 (ringPhase ((h + 1) % 2 ^ 32) sz)
  if c.msix && !c.accepted then p.raise (p.fget F.hostCplCfgCplVec 0) else p

/-- The ring takes records: enabled, with room, the function not in D3hot (R430). -/
def Pkg.cplRoom (p : Pkg) : Bool :=
  p.fon F.hostCplCfgEn 0 && !p.host.d3hot && decide (ringUsed (p.fget F.hostCplHeadIndex 0) (p.fget F.hostCplTailIndex 0) < 2 ^ p.cplSize)

/-- COMPLETION_POST (R439): the oldest waiting completion is posted once the ring has room. -/
def completionPost (p : Pkg) : Pkg :=
  match p.host.cplQ with
  | [] => p
  | c :: r =>
    match c.path with
    | .slot n =>
      if c.silent then { p with host := { p.host with cplQ := r } }
      else if p.cplRoom then { p with host := { p.host with cplQ := r } }.cplWrite c n
      else p
    | _ => { p with host := { p.host with cplQ := r } }

/-- Post what the ring has room for. -/
def Pkg.cplDrain : Nat → Pkg → Pkg
  | 0, p => p
  | k + 1, p => Pkg.cplDrain k (completionPost p)

/-- Hand a completion to its path: host ring, or Caretaker (R437). -/
def Pkg.complete (p : Pkg) (c : Cpl) : Pkg :=
  match c.path with
  | .slot _ =>
    let p := { p with host := { p.host with cplQ := p.host.cplQ ++ [c] } }
    Pkg.cplDrain p.host.cplQ.length p
  | _ => { p with host := { p.host with careCpl := p.host.careCpl ++ [c] } }

/-- FINAL completion of a command (R439). -/
def Pkg.final (p : Pkg) (c : Cmd) (status res0 res1 : Nat) : Pkg :=
  let p := { p with host := { p.host with running := p.host.running.filter fun x => decide (x.no ≠ c.no) } }
  let p := p.fadd F.hostStatRefused 0 (b2n (decide (status ≠ 0)))
  p.complete { path := c.path, opcode := c.opcode, status := status, tag := c.tag, res0 := res0, res1 := res1,
               accepted := false, msix := bit (BitVec.ofNat 16 c.flags) 0, silent := c.silent }

/-- The ACCEPTED completion of a command with EARLY (R439, R446). -/
def Pkg.early (p : Pkg) (c : Cmd) : Pkg :=
  if p.v13 && bit (BitVec.ofNat 16 c.flags) 1 then
    p.complete { path := c.path, opcode := c.opcode, status := 0, tag := c.tag, res0 := 0, res1 := 0, accepted := true,
                 msix := false, silent := c.silent }
  else p

/-- A command whose checks have passed goes on until its event. -/
def Pkg.goOn (p : Pkg) (c : Cmd) : Pkg :=
  let p := p.early c
  { p with host := { p.host with running := p.host.running ++ [c] } }
/-- A command done at once. -/
def Pkg.done (p : Pkg) (c : Cmd) (res0 res1 : Nat) : Pkg := (p.early c).final c 0 res0 res1

/-- The command in progress with a take number, or the oldest with an opcode. -/
def Pkg.runningNo (p : Pkg) (n : Nat) : Option Cmd := p.host.running.find? fun c => decide (c.no = n)
def Pkg.runningOp (p : Pkg) (op : Nat) : Option Cmd := p.host.running.find? fun c => decide (c.opcode = op)

/-- End every command in progress with an opcode. -/
def Pkg.endOp (p : Pkg) (op status res0 res1 : Nat) : Pkg :=
  (p.host.running.filter fun c => decide (c.opcode = op)).foldl (fun (p : Pkg) c => p.final c status res0 res1) p
def Pkg.endNo (p : Pkg) (n status res0 res1 : Nat) : Pkg :=
  match p.runningNo n with | some c => p.final c status res0 res1 | none => p

/-- CPL_TAIL_WRITE (R343, R439): a TAIL that would pass HEAD by more than the ring is ignored. -/
def cplTailWrite (v : Nat) (p : Pkg) : Pkg :=
  let v := v % 2 ^ 32
  if ringUsed (p.fget F.hostCplHeadIndex 0) v ≤ 2 ^ p.cplSize then
    let p := p.fset F.hostCplTailIndex 0 v
    Pkg.cplDrain p.host.cplQ.length p
  else p
def execCplTailWrite (v : Nat) (s : State) : Host.Outcome State Fault Refusal := onPkg (cplTailWrite v) s

/-! Package addresses and inputs of commands. -/

/-- A package address of R347: CLASS in bit 63 over bits [43:0]. -/
def pkgCls (a : Nat) : Nat := nbits a 63 63
def pkgAddr (a : Nat) : Nat := nbits a 43 0

/-- Region of a weight set that is not EMPTY (R380, R434). -/
def Pkg.inWeights (p : Pkg) (cls a : Nat) : Bool :=
  p.wgt.sets.any fun x =>
    let w := x.2
    decide (w.state ≠ 0) &&
    (if cls = 0 then
      let o := nbits a 35 0
      decide (w.dramDest ≤ o) && decide (o < w.dramDest + leAt w.manifest 0x10 8)
     else decide (w.peatDest ≤ nbits a 40 0) && decide (nbits a 40 0 < w.peatDest + leAt w.manifest 0x18 8))

/-- Some byte of a run cannot be read by a command (R595): unmapped, or in a region whose host reads R434 refuses. -/
def Pkg.badRun (p : Pkg) (cls a n : Nat) : Bool :=
  let ks := (List.range (n / 4096 + 1)).map fun i => a + 4096 * i
  (ks ++ [a + (n - 1)]).any fun x =>
    decide (x < a + max 1 n) && (!p.atomMapped cls (x / 64 * 64) false || p.inWeights cls x || decide (2 ^ 44 ≤ x))

/-- Some word of a run is uncorrectable or poisoned (R595). -/
def Pkg.poisonRun (p : Pkg) (cls a n : Nat) : Bool :=
  if cls = 0 then
    p.dram.raw.any fun x =>
      decide (a < x.1 + 8) && decide (x.1 < a + n) && (match eccDecode x.2 with | .bad => true | _ => false)
  else p.dram.peatBad.any fun x => decide (a < x.1 + 64) && decide (x.1 < a + n) && decide (x.2 = 2)

/-- Input of a command from package memory (R595): the bytes, or the status that ends it. -/
def Pkg.input (p : Pkg) (addr n align : Nat) : Except Nat (List Byte) :=
  let cls := pkgCls addr
  let a := pkgAddr addr
  if nbits addr 62 44 ≠ 0 || a % align ≠ 0 || (n ≠ 0 && p.badRun cls a n) then .error 4
  else if p.poisonRun cls a n then .error 0xA
  else .ok (p.memGet cls a n).2

/-- The same with what the controllers log of the read; an input that is not read at all logs nothing. -/
def Pkg.getInput (p : Pkg) (addr n align : Nat) : Pkg × Except Nat (List Byte) :=
  (match p.input addr n align with
   | .ok _ => p.noteRead (pkgCls addr) (pkgAddr addr) n
   | .error e => if e = 0xA then p.noteRead (pkgCls addr) (pkgAddr addr) n else p, p.input addr n align)

end Sys2Proof.Machine
end

