-- ==== Sys2Proof/Machine/CareMsg.lean ====
section
/-! DEFINITION. Messages that the Caretaker sends: EVENT, COMPLETION, ARM_REPORT, THROTTLE_REQ and STATUS
(R457, R502, R503, R548). -/
namespace Sys2Proof.Machine

open Sys2Proof

/-- The management session that reaches the fault manager (R548). -/
def Pkg.fmSession (p : Pkg) : Option Sess := p.spdm.sessions.find? fun s => s.mgmt && s.established
/-- Ports of the management network with link (R508). -/
def Pkg.mgUp (p : Pkg) : Nat := p.fget F.careStatusMgUp 0

/-- Message types the Caretaker sends with ACK_REQ: all but STATUS. DESIGN CHOICE (log entry 40). -/
def wantsAck (typ : Nat) : Bool := decide (typ ≠ 2)

/-- Put one message on the ports (R502, R503). -/
def Pkg.careEmit (sess : Nat) (p : Pkg) (x : Nat × List Byte) : Pkg :=
  let m : Msg :=
    { typ := x.1, flags := b2n (wantsAck x.1), tag := p.care.nextTag, src := p.phys, reason := 0, session := sess,
      sent := p.tb0, body := x.2 }
  let un : List OutMsg := if wantsAck x.1 then [{ msg := m, lastSent := p.bell.raw / 2 ^ 32, sends := 1 }] else []
  { p with care := { p.care with out := (p.mgUp, m) :: p.care.out, nextTag := (p.care.nextTag + 1) % 2 ^ 64,
                                 unacked := p.care.unacked ++ un } }

/-- What waits is sent once there is a session and a port with link. -/
def Pkg.careFlush (p : Pkg) : Pkg :=
  match p.fmSession with
  | some s =>
    if p.mgUp = 0 then p
    else
      let q := p.care.outQ
      q.foldl (Pkg.careEmit s.id) { p with care := { p.care with outQ := [] } }
  | none => p

def Pkg.careSend (p : Pkg) (typ : Nat) (body : List Byte) : Pkg :=
  { p with care := { p.care with outQ := p.care.outQ ++ [(typ, body)] } }.careFlush

/-- The 32 bytes of a completion that goes to the Caretaker (R437, R439). -/
def Cpl.bytes (c : Cpl) : List Byte :=
  leBytes 1 (2 * b2n c.accepted) ++ [0#8] ++ leBytes 2 c.opcode ++ leBytes 2 c.status ++ leBytes 2 0 ++ leBytes 8 c.tag ++
  leBytes 8 c.res0 ++ leBytes 8 c.res1

/-- Completions handed to the Caretaker become COMPLETION messages. -/
def Pkg.careCompletions (p : Pkg) : Pkg :=
  let cs := p.host.careCpl
  cs.foldl (fun (p : Pkg) c => p.careSend 5 c.bytes) { p with host := { p.host with careCpl := [] } }

/-- COMPLETION_POST (R437, R439). -/
def completionPostAll (p : Pkg) : Pkg := (completionPost p).careCompletions
def execCompletionPost (s : State) : Host.Outcome State Fault Refusal := onPkg completionPostAll s

/-- The ARM report (R457). -/
def Pkg.armReport (p : Pkg) (jobId status r0 r1 : Nat) : Pkg :=
  let rank := match p.job.next with | some n => n.selfRank | none => 0
  p.careSend 6 (leBytes 8 jobId ++ leBytes 2 rank ++ leBytes 2 p.phys ++ leBytes 2 status ++ leBytes 8 r0 ++ leBytes 8 r1 ++
    leBytes 8 p.bell.tb2.count ++ leBytes 1 p.bell.tb2.state.code ++ leBytes 2 p.bell.tb2.gm)

end Sys2Proof.Machine
end

