-- ==== Sys2Proof/Machine/PortB.lean ====
section
/-! DEFINITION. Port B: grants, accesses, forced grants, the scrubber, Dredge, and the slab windows (R208 to R232,
R433, R496). -/
namespace Sys2Proof.Machine

open Sys2Proof

/-! Requests. -/
def Pkg.pbIssue (p : Pkg) (f : Nat) (r : PbReq) : Pkg :=
  p.updSlab f fun s => { s with pb := s.pb ++ [{ r with issued := p.local_ f }] }

def pbReq (m : PbMaster) (k : PbKind) (addr len : Nat) : PbReq :=
  { master := m, kind := k, addr := addr, len := len, data := [], be := [], poison := false, issued := 0, grant := none }

/-- Attribution of a master's access (R532). -/
def PbMaster.attr (m : PbMaster) (a : Nat) : Option Attr :=
  match m with
  | .host => some ⟨13, 17, a⟩
  | .care => some ⟨14, 19, a⟩
  | .debug => some ⟨14, 19, a⟩
  | .dredge => some ⟨14, 18, a⟩
  | .scrub => some ⟨14, 18, a⟩

/-- Round-robin order of the masters after the one granted last (R211). -/
def pbOrder (last : PbMaster) : List PbMaster :=
  match last with
  | .host => [.care, .debug, .dredge, .scrub, .host]
  | .care => [.debug, .dredge, .scrub, .host, .care]
  | .debug => [.dredge, .scrub, .host, .care, .debug]
  | .dredge => [.scrub, .host, .care, .debug, .dredge]
  | .scrub => [.host, .care, .debug, .dredge, .scrub]

/-- Flits that the fen's router writes in tick `t` as far as is known: those due in it, and in the present tick those that
stand there and that nothing holds. A flit of another epoch is not written (R150). -/
def Pkg.flitWrites (p : Pkg) (f t : Nat) : List MFlit :=
  let x := p.fen f
  match p.logOf f with
  | some l => p.mesh.filter fun m =>
      decide (m.dst = .fen l) && (decide (256 ≤ m.ep) || decide (m.ep = x.proc.ep.toNat % 256)) &&
      (decide (m.arr = t) || (decide (m.arr < t) && decide (t = p.local_ f) && m.there p.refCount &&
        !p.readPending f (m.addr / 512 * 512) m.arr t none))
  | none => []

/-- A port-A access is known for tick `t` (R212). -/
def Pkg.paKnown (p : Pkg) (f t : Nat) : Bool :=
  let x := p.fen f
  (x.flights.any fun y =>
    let ft := y.foot p.lc2
    (!y.fill && ft.rd.any fun r => decide (y.start + r.2 = t)) || (x.live y && ft.wr.any fun r => decide (y.start + r.2.1 = t))) ||
  !(p.flitWrites f t).isEmpty

/-- PORT_B_GRANT (R211, R212): at the end of tick T, tick T + 4 when no port-A access is known for it. -/
def portBGrant (f : Nat) (p : Pkg) : Pkg :=
  let t := p.local_ f + 4
  let s := (p.fen f).slab
  if p.paKnown f t || s.pb.any (fun r => decide (r.grant = some t)) then p
  else
    let waits (m : PbMaster) (r : PbReq) : Bool := decide (r.master = m) && r.grant.isNone && !r.forced
    match (pbOrder s.lastGrant).find? fun m => s.pb.any (waits m) with
    | none => p
    | some m =>
      match findPos (waits m) s.pb with
      | none => p
      | some i => p.updSlab f fun s => { s with pb := updAt s.pb i fun r => { r with grant := some t }, lastGrant := m }
def execPortBGrant (f : Fin 288) (s : State) : Host.Outcome State Fault Refusal := onPkg (portBGrant f) s

/-! Dredge (R224 to R228). -/

/-- Spare row `s` serves a row. -/
def Pkg.spareUsed (p : Pkg) (f s : Nat) : Bool :=
  p.fon (F.fenSlabRmapValid.nth s) f && !p.fon (F.fenSlabRmapRetired.nth s) f

/-- Background word of a march, and its complement (R227). -/
def marchWord (bg : Nat) (inv : Bool) : BitVec 72 :=
  let d : BitVec 72 := if bg = 0 then 0#72 else 0xAAAAAAAAAAAAAAAAAA#72
  if inv then ~~~d else d

/-- Access `k` of a march: background, beat, and the complement bit of what it writes or expects; `true`: a write. -/
def marchOp (k : Nat) : Nat × Nat × Bool × Bool :=
  let bg := k / 80
  let j := k % 80
  if j < 8 then (bg, j, true, false)
  else if j < 72 then
    let e := (j - 8) / 16
    let i := (j - 8) % 16
    let up := decide (e < 2)
    let b := if up then i / 2 else 7 - i / 2
    let wr := decide (i % 2 = 1)
    let readInv := decide (e % 2 = 1)
    (bg, b, wr, if wr then !readInv else readInv)
  else (bg, j - 72, false, false)

/-- The eight or 160 accesses of a phase, issued one after another. -/
def Pkg.dredgeIssue (p : Pkg) (d : Nat) : Pkg :=
  let x := p.dredge d
  let r := x.region
  if x.phase = 1 then p.pbIssue x.fen (pbReq .dredge .save (r * 4096 + 512 * x.done) 512)
  else if x.phase = 2 ∨ x.phase = 4 then p.pbIssue x.fen (pbReq .dredge (.march x.done) (r % 2560 * 4096) 512)
  else if x.phase = 3 then p.pbIssue x.fen (pbReq .dredge .restore (r * 4096 + 512 * x.done) 512)
  else p

/-- DREDGE.POS shows the position (R232). -/
def Pkg.dredgePos (p : Pkg) (d : Nat) : Pkg :=
  let x := p.dredge d
  let p := p.fset F.dredgePosFen d (x.fen % 72)
  (p.fset F.dredgePosRegion d x.region).fset F.dredgePosPhase d x.phase

/-- One Dredge access is performed. -/
def Pkg.dredgeDo (p : Pkg) (d : Nat) (k : PbKind) : Pkg :=
  let x := p.dredge d
  let f := x.fen
  match k with
  | .save =>
    let b := x.done
    let (p, ws, bad) := (List.range 64).foldl (fun (s : Pkg × List (Nat × BitVec 72) × Option Nat) w =>
      let r := s.1.readWord f (x.region * 4096 + 512 * b + 8 * w)
      (r.1, s.2.1 ++ [(64 * b + w, if r.2.2.isSome then eccPoison else eccEncode (ofLe r.2.1))], s.2.2.or r.2.2)) (p, [], none)
    let p := p.slabMet f bad
    let x := p.dredge d
    let x := { x with save := ws.foldl (fun m z => AMap.set 0#72 m z.1 z.2) x.save, redirect := x.redirect ++ [b],
                      done := b + 1 }
    let x := if x.done = 8 then { x with phase := 2, done := 0 } else x
    ((p.setDredge d x).dredgePos d).dredgeIssue d
  | .march k =>
    let (bg, b, wr, inv) := marchOp k
    let v := marchWord bg inv
    let as := (List.range 64).map fun w => x.row * 4096 + 512 * b + 8 * w
    let p :=
      if wr then p.updSlab f fun s => as.foldl (fun s a => s.putRaw a v) s
      else
        let ok := as.all fun a => decide ((p.fen f).slab.codeword a = v)
        if ok then p else p.setDredge d { p.dredge d with failed := true }
    let x := p.dredge d
    let p := p.setDredge d { x with done := x.done + 1 }
    if x.done + 1 < 160 then p.dredgeIssue d else p
  | .restore =>
    let b := x.done
    let p := p.updSlab f fun s => (List.range 64).foldl (fun s w =>
      s.putRaw (x.restoreTo * 4096 + 512 * b + 8 * w) (x.save.getD (64 * b + w) 0#72)) s
    let p := p.setDredge d { x with done := b + 1, redirect := x.redirect.filter fun y => y ≠ b }
    if b + 1 < 8 then p.dredgeIssue d else p
  | _ => p

/-! Accesses. -/

/-- Words that port A writes in the present tick of a fen, in runs of bytes. -/
def Pkg.paWrites (p : Pkg) (f t : Nat) : List (Nat × Nat) :=
  let x := p.fen f
  x.wrote ++ ((x.flights.filter x.live).flatMap fun y =>
    ((y.foot p.lc2).wr.zipIdx.filter fun z => decide (y.start + z.1.2.1 = t)).flatMap fun z =>
      ((y.parts z.1.1 z.2).1.map fun q => (q.1, q.2.length))) ++
    (p.flitWrites f t).map fun m => (m.addr, m.data.bytes.length)

/-- Perform an access: data, status, effects (R213, R217, R218, R221, R222). `busy`: words port A writes. A host request of
several beats may be answered BUSY more than once: DESIGN CHOICE (log entry 119), each such beat writes HOST_BUSY_ADDR, so
the last one's first undefined word stays. -/
def Pkg.pbPerform (p : Pkg) (f : Nat) (r : PbReq) (busy : List (Nat × Nat)) : Pkg :=
  let p := p.perf .fen f 0x401 1 (r.master.attr r.addr)
  let hit (a : Nat) : Bool := busy.any fun w => decide (w.1 / 8 * 8 ≤ a) && decide (a < w.1 + w.2)
  match r.kind with
  | .read =>
    let (p, bs, po) := p.slabRead f r.addr r.len
    let bad := (List.range r.len).filter fun i => hit ((r.addr + i) / 8 * 8)
    let bs := bs.zipIdx.map fun z => if hit ((r.addr + z.2) / 8 * 8) then BitVec.ofNat 8 (p.freeNat / 256 ^ ((r.addr + z.2) % 8)) else z.1
    let p := if bad.isEmpty then p else (p.freeNext.fadd F.fenSlabPortPbBusy f 1).perf .fen f 0x404 1 (r.master.attr r.addr)
    let p :=
      if r.master = .host then
        let p := match bad with
          | i :: _ => (p.fset F.fenSlabPbHostBusy f 1).fset F.fenSlabPbHostBusyAddr f ((r.addr + i) / 8 * 8)
          | [] => p
        if po then p.fset F.fenSlabPbHostPoison f 1 else p
      else p
    p.updSlab f fun s =>
      { s with resp := s.resp ++ [{ master := r.master, addr := r.addr, data := bs, ur := false, busy := !bad.isEmpty, poison := po }] }
  | .write => p.slabEdit f r.addr .replace ((r.data.zip r.be).map fun z => if z.2 then some z.1 else none) r.poison
  | .bitSet => p.slabEdit f r.addr .bitSet ((r.data.zip r.be).map fun z => if z.2 then some z.1 else none) r.poison
  | .bitClear => p.slabEdit f r.addr .bitClear ((r.data.zip r.be).map fun z => if z.2 then some z.1 else none) r.poison
  | .scrub =>
    if (p.fen f).slab.scrubQ.contains r.addr then
      match p.slabWord f r.addr with
      | .corrected d => p.putSlabWord f r.addr (some d)
      | _ => p.updSlab f fun s => { s with scrubQ := s.scrubQ.filter fun x => x ≠ r.addr }
    else p
  | k => p.dredgeDo (f / 72) k

/-- Remove the request at a place. -/
def Pkg.pbDrop (p : Pkg) (f i : Nat) : Pkg := p.updSlab f fun s => { s with pb := dropAt s.pb i }

/-- PORT_B_ACCESS (R212, R213): the access granted the present tick is performed, answered with BUSY, or displaced with
every later granted access of its master. -/
def portBAccess (f : Nat) (p : Pkg) : Pkg :=
  let t := p.local_ f
  let x := p.fen f
  match findPos (fun (r : PbReq) => decide (r.grant = some t)) x.slab.pb with
  | none => p
  | some i =>
    match x.slab.pb[i]? with
    | none => p
    | some r =>
      let clash := p.paKnown f t || decide (x.pa ≠ 0)
      let ws := p.paWrites f t
      let overRange := ws.any fun w => decide (w.1 / 8 * 8 < r.addr + r.len) && decide (r.addr / 8 * 8 < w.1 + w.2)
      if !clash then (p.pbDrop f i).pbPerform f r []
      else if r.kind = .read && overRange then (p.pbDrop f i).pbPerform f r ws
      else
        let n := ((x.slab.pb.drop i).filter fun z => decide (z.master = r.master) && z.grant.isSome).length
        let p := p.updSlab f fun s =>
          { s with pb := s.pb.zipIdx.map fun z => if i ≤ z.2 && decide (z.1.master = r.master) then { z.1 with grant := none } else z.1 }
        (p.fadd F.fenSlabPortPbDisplaced f n).perf .fen f 0x403 n (r.master.attr r.addr)
def execPortBAccess (f : Fin 288) (s : State) : Host.Outcome State Fault Refusal := onPkg (portBAccess f) s

/-- PB_FORCED (R214): an access that has waited PB_MAX_WAIT ticks is to be served in a period inserted after the present
tick. -/
def pbForced (f : Nat) (p : Pkg) : Pkg :=
  let t := p.local_ f
  let lim := max 1 (p.fget F.fenSlabCfgPbMaxWait f)
  let q := (p.fen f).slab.pb
  match findPos (fun (r : PbReq) => !r.forced && decide (r.issued + lim ≤ t)) q with
  | none => p
  | some i =>
    match q[i]? with
    | none => p
    | some r =>
      let p := p.updFen f fun x =>
        { x with clk := { x.clk with suppress := x.clk.suppress + 1 },
                 slab := { x.slab with pb := setAt x.slab.pb i { r with grant := none, forced := true } } }
      let p := (p.fadd F.fenSlabPortPbForced f 1).logFen f 0x0062 0 none
      p.perf .fen f 0x405 1 (r.master.attr r.addr)
def execPbForced (f : Fin 288) (s : State) : Host.Outcome State Fault Refusal := onPkg (pbForced f) s

/-- What port B does as local tick `l` ends, where no command has had it done already: the access granted the tick, the
grant of tick `l + 4`, and accesses that have waited too long (R212 to R214). -/
def Pkg.pbDue (p : Pkg) (f : Nat) : Pkg :=
  if (p.fen f).slab.pb.isEmpty then p
  else
    let p := portBGrant f (portBAccess f p)
    (p.fen f).slab.pb.foldl (fun p _ => pbForced f p) p

/-- An inserted period serves the first access marked for one; it meets no port-A access (R214). -/
def Pkg.pbInserted (p : Pkg) (f : Nat) : Pkg :=
  match findPos PbReq.forced (p.fen f).slab.pb with
  | none => p
  | some i => match (p.fen f).slab.pb[i]? with | some r => (p.pbDrop f i).pbPerform f r [] | none => p

/-- SCRUB_WRITEBACK (R221): the scrubber issues the write-back of the word it has held longest. -/
def scrubWriteback (f : Nat) (p : Pkg) : Pkg :=
  let s := (p.fen f).slab
  match s.scrubQ.find? fun a => !s.pb.any fun r => decide (r.kind = .scrub) && decide (r.addr = a) with
  | some a => p.pbIssue f (pbReq .scrub .scrub a 8)
  | none => p
def execScrubWriteback (f : Fin 288) (s : State) : Host.Outcome State Fault Refusal := onPkg (scrubWriteback f) s

/-! Dredge's regions. -/

/-- A region is visited: a row, or a spare row that serves none (R224). -/
def Pkg.dredgeVisits (p : Pkg) (f r : Nat) : Bool := !p.fused f && (decide (r < 2560) || !p.spareUsed f (r - 2560))

/-- The next region of the pass from (fen in die, region); the Bool tells that the pass wrapped. -/
def Pkg.dredgeNext (p : Pkg) (d : Nat) (i r : Nat) : Nat × Nat × Bool :=
  let here := ((List.range (2624 - r)).map (· + r)).find? fun q => p.dredgeVisits (d * 72 + i) q
  match here with
  | some q => (i, q, false)
  | none =>
    match ((List.range (71 - i)).map (· + i + 1)).find? fun j => !p.fused (d * 72 + j) with
    | some j => (j, 0, false)
    | none => (((List.range 72).find? fun j => !p.fused (d * 72 + j)).getD 0, 0, true)

/-- A region has ended; the pass with it when no further region is left to visit (R224, R232). -/
def Pkg.dredgeEnd (p : Pkg) (d : Nat) : Pkg :=
  let p := (p.setDredge d { p.dredge d with phase := 0, done := 0, redirect := [], save := [] }).dredgePos d
  let x := p.dredge d
  let n := p.dredgeNext d (x.nextFen % 72) x.nextRegion
  if n.2.2 then (p.setDredge d { x with nextFen := n.1, nextRegion := n.2.1 }).fadd F.dredgePosPasses d 1 else p

/-- DREDGE_REGION_START (R224, R225): when an interval has begun and no region is in progress. An interval in which none
could start is not made up for. Of several fens with a priority row the first is taken: DESIGN CHOICE (log entry 120). -/
def dredgeRegionStart (d : Nat) (p : Pkg) : Pkg :=
  let x := p.dredge d
  let iv := max 1 (p.fget F.dredgeCfgInterval d) * 1024
  if !p.fon F.dredgeCfgEnable d || decide (x.phase ≠ 0) || (x.started && decide (p.refCount < x.lastStart + iv)) ||
      decide (2 ≤ p.power.state) || decide (2 ≤ p.power.target) then p
  else
    let at_ := if x.started then x.lastStart + (p.refCount - x.lastStart) / iv * iv else p.refCount
    match (List.range 72).find? fun j => !p.fused (d * 72 + j) && p.fon F.fenSlabRepairPriorityValid (d * 72 + j) with
    | some j =>
      let f := d * 72 + j
      let r := p.fget F.fenSlabRepairPriorityRow f
      let p := p.fset F.fenSlabRepairPriorityValid f 0
      let p := p.setDredge d { x with fen := f, region := r, phase := 1, row := p.physRow f r, restoreTo := p.physRow f r, done := 0,
                                      save := [], redirect := [], failed := false, lastStart := at_, started := true }
      (p.dredgePos d).dredgeIssue d
    | none =>
      let (i, r, _) := p.dredgeNext d (x.nextFen % 72) x.nextRegion
      let f := d * 72 + i
      let spare := decide (2560 ≤ r)
      let row := if spare then r else p.physRow f r
      let p := p.setDredge d { x with nextFen := i, nextRegion := r + 1, fen := f, region := r, phase := if spare then 4 else 1,
                                      row := row, restoreTo := row, done := 0, save := [], redirect := [], failed := false,
                                      lastStart := at_, started := true }
      (p.dredgePos d).dredgeIssue d
def execDredgeRegionStart (d : Fin 4) (s : State) : Host.Outcome State Fault Refusal := onPkg (dredgeRegionStart d) s

def Pkg.dredgeLog (p : Pkg) (d code info : Nat) : Pkg := p.log .dredge d code (p.local_ (p.dredge d).fen) info none

/-- Count of repair-map entries that are VALID or RETIRED (R231). -/
def Pkg.sparesCount (p : Pkg) (f : Nat) : Pkg :=
  p.fset F.fenSlabRepairSparesUsed f
    ((List.range 64).filter fun s => p.fon (F.fenSlabRmapValid.nth s) f || p.fon (F.fenSlabRmapRetired.nth s) f).length

/-- DREDGE_MARCH_DONE (R227, R228): the verdict, and the spare row that takes a failed row's place. -/
def dredgeMarchDone (d : Nat) (p : Pkg) : Pkg :=
  let x := p.dredge d
  let f := x.fen
  if x.done < 160 then p
  else if x.phase = 4 then
    let p :=
      if x.failed then
        let p := p.fset (F.fenSlabRmapRetired.nth (x.region - 2560)) f 1
        ((p.dredgeLog d 0x0066 (x.region - 2560)).fadd F.dredgeStatSpareFailed d 1).sparesCount f
      else p
    p.dredgeEnd d
  else if x.phase = 2 then
    let p :=
      if x.failed then
        let p := (p.dredgeLog d 0x0063 x.region).fadd F.dredgeStatRowsFailed d 1
        match (List.range 64).find? fun s => !p.fon (F.fenSlabRmapValid.nth s) f && !p.fon (F.fenSlabRmapRetired.nth s) f with
        | some s =>
          let p :=
            if 2560 ≤ x.row then (p.fset (F.fenSlabRmapRetired.nth (x.row - 2560)) f 1).dredgeLog d 0x0066 (x.row - 2560)
            else p
          let p := (p.fset (F.fenSlabRmapRow.nth s) f x.region).fset (F.fenSlabRmapValid.nth s) f 1
          (p.setDredge d { p.dredge d with restoreTo := 2560 + s }).sparesCount f
        | none =>
          let p := (p.fset F.fenSlabRepairSparesOut f 1).dredgeLog d 0x0065 x.region
          (p.fadd F.dredgeStatUnrepaired d 1).replace 1
      else p
    ((p.setDredge d { p.dredge d with phase := 3, done := 0 }).dredgePos d).dredgeIssue d
  else p
def execDredgeMarchDone (d : Fin 4) (s : State) : Host.Outcome State Fault Refusal := onPkg (dredgeMarchDone d) s

/-- DREDGE_REGION_END (R225, R228): every beat is restored. -/
def dredgeRegionEnd (d : Nat) (p : Pkg) : Pkg :=
  let x := p.dredge d
  if x.phase = 3 && decide (x.done = 8) then
    let p :=
      if x.failed && decide (x.restoreTo ≠ x.row) then (p.dredgeLog d 0x0064 x.region).fadd F.dredgeStatRepairs d 1 else p
    p.dredgeEnd d
  else p
def execDredgeRegionEnd (d : Fin 4) (s : State) : Host.Outcome State Fault Refusal := onPkg (dredgeRegionEnd d) s

/-- The next access of a region in progress, or the next turn of its phase. -/
def Pkg.dredgeTurn (d : Nat) (p : Pkg) : Pkg :=
  let x := p.dredge d
  if x.phase = 1 then p.dredgeDo d .save
  else if x.phase = 2 ∨ x.phase = 4 then (if x.done < 160 then p.dredgeDo d (.march x.done) else dredgeMarchDone d p)
  else if x.phase = 3 then (if x.done < 8 then p.dredgeDo d .restore else dredgeRegionEnd d p)
  else p
/-- A reset that keeps slab contents takes effect only after the region in progress has been restored (R230). DESIGN CHOICE
(log entry 124): the time that takes is not kept, so the rest of the region is done at once. -/
def Pkg.dredgeFinish (d : Nat) (p : Pkg) : Pkg :=
  if (p.dredge d).phase = 0 then p
  else
    let f := (p.dredge d).fen
    let p := (List.range 180).foldl (fun p _ => Pkg.dredgeTurn d p) p
    p.updSlab f fun s => { s with pb := s.pb.filter fun r => r.master ≠ .dredge }

/-- DREDGE_ENABLE_WRITE (R230, R232): the Caretaker alone. -/
def dredgeEnableWrite (d : Nat) (care v : Bool) (p : Pkg) : Pkg := if care then p.fset F.dredgeCfgEnable d (b2n v) else p
def execDredgeEnableWrite (d : Fin 4) (care v : Bool) (s : State) : Host.Outcome State Fault Refusal :=
  onPkg (dredgeEnableWrite d care v) s

/-! Slab windows (R215 to R218, R496). -/

/-- HOST_UR (R433): a posted write that reaches nothing. -/
def Pkg.hostUr (p : Pkg) : Pkg := p.log0 .host 0 0x00D1 0 none

/-- Master of port B that a path is. -/
def slabMaster : SlabPath → PbMaster
  | .host => .host | .care => .care | .debug => .debug

/-- Where a path finds byte `a` of slab `n` in a window, 0 normal, 1 bit-set, 2 bit-clear: its offset in BAR2 by logical
fen for the host, its Caretaker address by physical fen for the Caretaker and the debug path (R215, R433, R496). -/
def slabOff (by_ : SlabPath) (form n a : Nat) : Nat :=
  if by_ = .host then form * 2 ^ 32 + n * 2 ^ 24 + a else 0x1000000000 + form * 2 ^ 33 + n * 2 ^ 24 + a
/-- The window, fen and slab byte of an offset or address. -/
def slabPlace (by_ : SlabPath) (o : Nat) : Option (Nat × Nat × Nat) :=
  if by_ = .host then (if o < 3 * 2 ^ 32 then some (o / 2 ^ 32, o % 2 ^ 32 / 2 ^ 24, o % 2 ^ 24) else none)
  else
    let r := o - 0x1000000000
    if 0x1000000000 ≤ o ∧ r < 3 * 2 ^ 33 ∧ r % 2 ^ 33 / 2 ^ 24 < 288 then some (r / 2 ^ 33, r % 2 ^ 33 / 2 ^ 24, r % 2 ^ 24) else none

/-- The physical fen that a window names, when it holds a slab (R215, R216, R496, R521); in D3hot the
function serves no memory request. -/
def Pkg.winFen (p : Pkg) (by_ : SlabPath) (n : Nat) : Option Nat :=
  if by_ ≠ .host then (if n < 288 && !p.fused n then some n else none)
  else if n < 256 && p.power.state ≠ 3 && !p.host.d3hot then p.physOf n else none

/-- One access per beat, in ascending order (R217). -/
def beatRuns (a n : Nat) : List (Nat × Nat) :=
  (beatsOf a n).map fun b => (max a b, min (a + n) (b + 512) - max a b)

/-- SLAB_WINDOW_READ. -/
def slabWindowRead (by_ : SlabPath) (n addr len : Nat) (p : Pkg) : Pkg :=
  let m := slabMaster by_
  let answer (bs : List Byte) (ur : Bool) (p : Pkg) : Pkg := { p with host := { p.host with resp := p.host.resp ++ [(bs, ur, false)] } }
  match p.winFen by_ n with
  | some f =>
    if addr + len ≤ slabBytes then (beatRuns addr len).foldl (fun p r => p.pbIssue f (pbReq m .read r.1 r.2)) p
    else answer [] true p
  | none => if by_ ≠ .host && decide (n < 288) then answer (List.replicate len 0#8) false p else answer [] true p
def execSlabWindowRead (by_ : SlabPath) (n addr len : Nat) (s : State) : Host.Outcome State Fault Refusal :=
  onPkg (slabWindowRead by_ n addr len) s

/-- A window write: posted, split by beat; a write that reaches no slab, and a poisoned TLP, change nothing. -/
def Pkg.windowWrite (p : Pkg) (k : PbKind) (by_ : SlabPath) (n addr : Nat) (be : List Bool) (data : List Byte) (ep : Bool) : Pkg :=
  let m := slabMaster by_
  match p.winFen by_ n with
  | some f =>
    if ep || decide (slabBytes < addr + data.length) then (if by_ ≠ .host then p else p.hostUr)
    else (beatRuns addr data.length).foldl (fun p r =>
      p.pbIssue f { pbReq m k r.1 r.2 with data := (data.drop (r.1 - addr)).take r.2, be := (be.drop (r.1 - addr)).take r.2 }) p
  | none => if by_ ≠ .host then p else p.hostUr

/-- SLAB_WINDOW_WRITE. -/
def slabWindowWrite (by_ : SlabPath) (n addr : Nat) (be : List Bool) (data : List Byte) (ep : Bool) (p : Pkg) : Pkg :=
  p.windowWrite .write by_ n addr be data ep
def execSlabWindowWrite (by_ : SlabPath) (n addr : Nat) (be : List Bool) (data : List Byte) (ep : Bool) (s : State) :
    Host.Outcome State Fault Refusal := onPkg (slabWindowWrite by_ n addr be data ep) s
/-- SLAB_WINDOW_BIT_SET. -/
def slabWindowBitSet (by_ : SlabPath) (n addr : Nat) (be : List Bool) (data : List Byte) (ep : Bool) (p : Pkg) : Pkg :=
  p.windowWrite .bitSet by_ n addr be data ep
def execSlabWindowBitSet (by_ : SlabPath) (n addr : Nat) (be : List Bool) (data : List Byte) (ep : Bool) (s : State) :
    Host.Outcome State Fault Refusal := onPkg (slabWindowBitSet by_ n addr be data ep) s
/-- SLAB_WINDOW_BIT_CLEAR. -/
def slabWindowBitClear (by_ : SlabPath) (n addr : Nat) (be : List Bool) (data : List Byte) (ep : Bool) (p : Pkg) : Pkg :=
  p.windowWrite .bitClear by_ n addr be data ep
def execSlabWindowBitClear (by_ : SlabPath) (n addr : Nat) (be : List Bool) (data : List Byte) (ep : Bool) (s : State) :
    Host.Outcome State Fault Refusal := onPkg (slabWindowBitClear by_ n addr be data ep) s

end Sys2Proof.Machine
end

