-- ==== Sys2Proof/Machine/Proctor.lean ====
section
/-! DEFINITION. The Proctor: fetch, the instruction set, pushes and waits, the advance of an epoch, the instruction
cache (chapter 07, R148). -/
namespace Sys2Proof.Machine

open Sys2Proof

/-! The advance of an epoch (R148, R196, R239). -/

/-- Entries of a sluice after an epoch advance: outstanding reads keep their slots (R239). -/
def discard (l : List SlEnt) : List SlEnt × Nat :=
  let now := l.filter fun e => !e.dead
  ((l.filter fun e => e.dead || (!e.write && decide (e.atoms.length < 8 * e.beats))).map fun e =>
    { e with dead := true, ready := false }, now.length)

/-- Markbook samples of commands that the advance squashes (R537). -/
def Pkg.markSquash (p : Pkg) (f t : Nat) : Pkg :=
  let d := f / 72
  let l := p.logNum f
  let k := p.mark d
  p.setMark d { k with open_ := k.open_.map fun m =>
    if m.st ≠ 0 && decide (m.fen = l) && decide (t < m.due) then { m with due := t, flags := m.flags ||| 2 } else m }

/-- Advance `ep` of a fen in the present tick; flits that its commands injected in it take no effect (R148). -/
def Pkg.epochAdvance (p : Pkg) (f : Nat) : Pkg :=
  let x := p.fen f
  let t := p.local_ f
  let ep := x.proc.ep + 1#64
  let e8 := ep.toNat % 256
  let keep (q : List QCmd) : List QCmd := q.filter fun c => epOf c.word = e8
  let gone := (x.qTe ++ x.qVe ++ x.qSm ++ x.qLx).filter fun c => epOf c.word ≠ e8
  let p := p.markSquash f t
  let p := { p with mesh := p.mesh.filter fun m => decide (m.src ≠ f) || decide (m.at_ ≠ t) || m.free }
  let sl := (List.range 4).map fun s => (s, discard (x.sluice s))
  let p := p.updFen f fun x =>
    let x := { x with proc := { x.proc with ep := ep }, qTe := keep x.qTe, qVe := keep x.qVe, qSm := keep x.qSm,
                      qLx := keep x.qLx, te := .init, ve := .init, zeroTill := t + 64, zeroing := true }
    sl.foldl (fun x z => x.setSluice z.1 z.2.1) x
  let (p, n) := (List.range 4).foldl (fun (s : Pkg × Nat) d =>
    let (q, k) := s.1.sampSquash (p.logNum f) e8 d
    (q, s.2 + k)) (p, gone.length)
  let p := (p.fadd F.fenCmdStatSquashed f n).perf .fen f 0x304 n (engine 0)
  p.fadd F.fenSluiceStatDiscarded f ((sl.map fun z => z.2.2).foldl (· + ·) 0)

/-- EPOCH_ZEROING_DONE (R148): from tick advance + 64 every register reads as zero. -/
def epochZeroingDone (f : Nat) (p : Pkg) : Pkg :=
  let x := p.fen f
  if x.zeroing && decide (x.zeroTill ≤ p.local_ f) then p.updFen f fun x => { x with zeroing := false } else p
def execEpochZeroingDone (f : Fin 288) (s : State) : Host.Outcome State Fault Refusal := onPkg (epochZeroingDone f) s

/-! Fetch (R198, R201). -/

/-- Ways that hold lines: a second retirement leaves seven (R205). -/
def ICache.ways (c : ICache) : List Nat := (List.range 8).filter fun w => !(c.retired.drop 1).contains w
def ICache.wayOf (c : ICache) (line : Nat) : Option Nat :=
  c.ways.find? fun w => decide (c.lines.find? (w * 64 + line % 64) = some line)
/-- Ways 4 to 7 of a set, most recently used first. -/
def ICache.order (c : ICache) (set : Nat) : List Nat := c.lru.getD set [4, 5, 6, 7]
def ICache.touch (c : ICache) (line : Nat) : ICache :=
  match c.wayOf line with
  | some w =>
    if w < 4 then c
    else { c with lru := AMap.put c.lru (line % 64) (w :: (c.order (line % 64)).filter fun v => v ≠ w) }
  | none => c
/-- The way that holds a pinned page (R198). -/
def ICache.pinWay (c : ICache) (line : Nat) : Option Nat :=
  (((c.ways.filter fun w => decide (w < 4)).zip c.pins).find? fun x => decide (x.2 = line / 64)).map Prod.fst
/-- A filled line: a line of a pinned page goes back to its way, another takes the place of the least recently used. -/
def ICache.insert (c : ICache) (line : Nat) : ICache :=
  let set := line % 64
  match (c.pinWay line).or ((c.order set).filter fun w => c.ways.contains w).getLast? with
  | some w => ({ c with lines := AMap.put c.lines (w * 64 + set) line }).touch line
  | none => c
def ICache.drop (c : ICache) (line : Nat) : ICache :=
  match c.wayOf line with
  | some w => { c with lines := AMap.erase c.lines (w * 64 + line % 64) }
  | none => c

/-- Where the loader places a fen's code: the loader-reserved area of the first stack of its die (DESIGN CHOICE, log
entry 94). -/
def codeAddr (f : Nat) : Nat := (2 * (f / 72)) * 2 ^ 36 + 0xBC0000000 + f % 72 * 2 ^ 20

/-! Instructions (R184). -/
structure PCtx where
  f : Nat
  /-- local tick -/
  l : Nat
  pc : Nat
  w : W64
  x : Proctor
def PCtx.op (c : PCtx) : Nat := bits c.w 63 58
def PCtx.dst (c : PCtx) : Nat := bits c.w 57 53
def PCtx.fi (c : PCtx) : Nat := bits c.w 42 0
def PCtx.fb (c : PCtx) (hi lo : Nat) : Nat := bits c.w hi lo
def PCtx.simm (c : PCtx) : W64 := BitVec.ofInt 64 (sx 43 c.fi)
/-- General register (R181): g0 reads as 0. -/
def Proctor.greg (x : Proctor) (n : Nat) : W64 := if n = 0 then 0#64 else x.g.getD n 0#64
def Proctor.setG (x : Proctor) (n : Nat) (v : W64) : Proctor := if n = 0 then x else { x with g := AMap.set 0#64 x.g n v }
def PCtx.a (c : PCtx) : W64 := c.x.greg (bits c.w 52 48)
def PCtx.b (c : PCtx) : W64 := c.x.greg (bits c.w 47 43)

def Pkg.updProc (p : Pkg) (f : Nat) (g : Proctor → Proctor) : Pkg := p.updFen f fun x => { x with proc := g x.proc }

/-- STEP_NO of a tick (R183, R417). -/
def Pkg.stepNo (p : Pkg) (l : Nat) : Nat := p.stepOf l % 2 ^ 48

/-- An item of the Proctor for the Markbook and the counters (R533, R536). -/
def Pkg.procItem (p : Pkg) (c : PCtx) (cost : Nat) (ill : Bool) : Pkg :=
  let p := p.perf .fen c.f 0x200 1 (proctorAttr 0)
  let took := c.l + cost - c.x.ready
  p.markItem (c.f / 72)
    { fen := p.logNum c.f, st := 0, start := c.l - took, due := c.l, fire := c.l, pc := c.pc, opcode := c.op,
      ep := c.x.ep.toNat % 256, flags := b2n ill, lag16 := p.lag16 c.f, no := 0 }

/-- pc and loop stack after an instruction that transfers no control (R190). -/
def Proctor.flow (x : Proctor) (pc : Nat) : Proctor :=
  match x.loops with
  | e :: r =>
    if e.stop = pc then
      if 1 < e.remaining.toNat then
        { x with pc := e.start, loops := { e with remaining := e.remaining - 1#64, index := e.index + 1#64 } :: r }
      else { x with pc := (pc + 8) % 2 ^ 20, loops := r }
    else { x with pc := (pc + 8) % 2 ^ 20 }
  | [] => { x with pc := (pc + 8) % 2 ^ 20 }

/-- The instruction completes in one tick, with a result or none. -/
def Pkg.pDone (p : Pkg) (c : PCtx) (v : Option W64) : Pkg :=
  let p := p.updProc c.f fun x =>
    let x := match v with | some v => x.setG c.dst v | none => x
    { (x.flow c.pc) with st := .run, ready := c.l + 1, waitB := none, icache := x.icache.touch (c.pc / 64) }
  p.procItem c 1 false

/-- The instruction transfers control (R182): two ticks. -/
def Pkg.pJump (p : Pkg) (c : PCtx) (v : Option W64) (pc : Nat) : Pkg :=
  let p := p.updProc c.f fun x =>
    let x := match v with | some v => x.setG c.dst v | none => x
    { x with pc := pc % 2 ^ 20, st := .run, ready := c.l + 2, icache := x.icache.touch (c.pc / 64) }
  p.procItem c 2 false

/-- R199, with the event that names the cause. -/
def Pkg.pIllegal (p : Pkg) (c : PCtx) (code : Nat) : Pkg :=
  let p := p.updProc c.f fun x => { x with pc := (c.pc + 8) % 2 ^ 20, st := .run, ready := c.l + 1, waitB := none,
                                           icache := x.icache.touch (c.pc / 64) }
  let p := p.log .fen c.f code c.l c.pc none
  let p := p.fadd F.fenProcStatIllegal c.f 1
  let p := if code = 0x0037 then p.fadd F.fenProcStatPoison c.f 1 else p
  (p.defect c.l code).procItem c 1 true

/-- The instruction stays and waits in a state. -/
def Pkg.pWait (p : Pkg) (c : PCtx) (st : ProcSt) : Pkg := p.updProc c.f fun x => { x with st := st }

/-- Major opcodes that the manual defines (R184 to R193). -/
def majorDefined (op : Nat) : Bool :=
  decide (op ≤ 0x14) || (decide (0x18 ≤ op) && decide (op ≤ 0x1E)) || (decide (0x20 ≤ op) && decide (op ≤ 0x25)) ||
  (decide (0x28 ≤ op) && decide (op ≤ 0x2A)) || (decide (0x30 ≤ op) && decide (op ≤ 0x36))

/-- The instruction that the Proctor of a fen would execute now: the Proctor runs or waits in it, its tick has come,
its line is cached, and its period is not a suppressed one (R66). -/
def Pkg.pFetch (p : Pkg) (f : Nat) : Option PCtx :=
  let y := p.fen f
  let x := y.proc
  let l := p.local_ f
  if (x.st = .run || x.st = .waitt || x.st = .waits || x.st = .waitb) && decide (x.ready ≤ l) && !y.hard && !y.clk.heldNow &&
      decide (x.pc < x.code.length) && (x.icache.wayOf (x.pc / 64)).isSome then
    some { f := f, l := l, pc := x.pc, w := BitVec.ofNat 64 (leAt x.code x.pc 8), x := x }
  else none

/-- A Proctor row: an instruction that its fill poisoned, or of an undefined major opcode, is skipped under R199 by any
row; the row's own instruction is executed. -/
def procRow (op : Nat) (go : PCtx → Pkg → Pkg) (f : Nat) (p : Pkg) : Pkg :=
  match p.pFetch f with
  | none => p
  | some c =>
    if c.x.icache.bad.contains c.pc then p.pIllegal c 0x0037
    else if !majorDefined c.op then p.pIllegal c 0x0034
    else if c.op = op then go c p
    else p

/-- An instruction with a result and no other effect. -/
def valRow (op : Nat) (v : PCtx → W64) (f : Nat) (p : Pkg) : Pkg := procRow op (fun c p => p.pDone c (some (v c))) f p

def slt64 (a b : W64) : Bool := decide (a.toInt < b.toInt)
def ult64 (a b : W64) : Bool := decide (a.toNat < b.toNat)

/-- Conditions 0 to 5 (R185). -/
def cond (k : Nat) (a b : W64) : Option Bool :=
  if k = 0 then some (decide (a = b)) else if k = 1 then some (decide (a ≠ b))
  else if k = 2 then some (slt64 a b) else if k = 3 then some (!slt64 a b)
  else if k = 4 then some (ult64 a b) else if k = 5 then some (!ult64 a b) else none

def boolW (b : Bool) : W64 := if b then 1#64 else 0#64

/-! Integer ALU (R185). -/

/-- ADD. -/
def add (f : Nat) (p : Pkg) : Pkg := valRow 0x00 (fun c => c.a + c.b) f p
/-- SUB. -/
def sub_ (f : Nat) (p : Pkg) : Pkg := valRow 0x01 (fun c => c.a - c.b) f p
/-- AND. -/
def and_ (f : Nat) (p : Pkg) : Pkg := valRow 0x02 (fun c => c.a &&& c.b) f p
/-- OR. -/
def or_ (f : Nat) (p : Pkg) : Pkg := valRow 0x03 (fun c => c.a ||| c.b) f p
/-- XOR. -/
def xor_ (f : Nat) (p : Pkg) : Pkg := valRow 0x04 (fun c => c.a ^^^ c.b) f p
/-- SHL. -/
def shl (f : Nat) (p : Pkg) : Pkg := valRow 0x05 (fun c => c.a <<< bits c.b 5 0) f p
/-- SHR. -/
def shr (f : Nat) (p : Pkg) : Pkg := valRow 0x06 (fun c => c.a >>> bits c.b 5 0) f p
/-- SRA. -/
def sra (f : Nat) (p : Pkg) : Pkg := valRow 0x07 (fun c => c.a.sshiftRight (bits c.b 5 0)) f p
/-- MUL. -/
def mul (f : Nat) (p : Pkg) : Pkg := valRow 0x08 (fun c => c.a * c.b) f p
/-- ADDI. -/
def addi (f : Nat) (p : Pkg) : Pkg := valRow 0x09 (fun c => c.a + c.simm) f p
/-- ANDI. -/
def andi (f : Nat) (p : Pkg) : Pkg := valRow 0x0A (fun c => c.a &&& BitVec.ofNat 64 c.fi) f p
/-- LDI. -/
def ldi (f : Nat) (p : Pkg) : Pkg := valRow 0x0B (fun c => c.simm) f p
/-- LDHI. -/
def ldhi (f : Nat) (p : Pkg) : Pkg := valRow 0x0C (fun c => setBits c.a 63 32 (c.fb 31 0)) f p
/-- CMP: conditions 6 and 7 are illegal. -/
def cmp (f : Nat) (p : Pkg) : Pkg :=
  procRow 0x0D (fun c p => match cond (c.fb 2 0) c.a c.b with
    | some r => p.pDone c (some (boolW r))
    | none => p.pIllegal c 0x0034) f p
/-- MINMAX. -/
def minmax (f : Nat) (p : Pkg) : Pkg :=
  valRow 0x0E (fun c =>
    let k := c.fb 1 0
    let lt := if k < 2 then slt64 c.a c.b else ult64 c.a c.b
    if k % 2 = 0 then (if lt then c.a else c.b) else if lt then c.b else c.a) f p

/-- POS and LEN of BFX and INS; none when illegal. -/
def posLen (c : PCtx) : Option (Nat × Nat) :=
  let q := c.fb 5 0
  let n := c.fb 12 6
  if n = 0 ∨ 64 < q + n then none else some (q, n)
/-- BFX. -/
def bfx (f : Nat) (p : Pkg) : Pkg :=
  procRow 0x0F (fun c p => match posLen c with
    | some (q, n) => p.pDone c (some (BitVec.ofNat 64 (bits c.a (q + n - 1) q)))
    | none => p.pIllegal c 0x0034) f p

/-! Address generation (R186). -/

def s32 (w : W64) (hi lo : Nat) : W64 := BitVec.ofInt 64 (sx 32 (bits w hi lo))
def Desc.addr (d : Desc) : W64 :=
  d.base + BitVec.ofNat 64 (bits d.idx 15 0) * s32 d.str01 31 0 + BitVec.ofNat 64 (bits d.idx 31 16) * s32 d.str01 63 32 +
    BitVec.ofNat 64 (bits d.idx 47 32) * s32 d.str2 31 0
def cnt16 (n : Nat) : Nat := if n = 0 then 65536 else n
/-- Advance the indexes: three comparisons, in each of which an index at or above its count is set to 0 and carries
(DEDUCED, log entry 109). -/
def Desc.advance (d : Desc) : Desc :=
  let i0 := bits d.idx 15 0 + 1
  let c0 := decide (cnt16 (bits d.cnt 15 0) ≤ i0)
  let i1 := bits d.idx 31 16 + b2n c0
  let c1 := decide (cnt16 (bits d.cnt 31 16) ≤ i1)
  let i2 := bits d.idx 47 32 + b2n c1
  let c2 := decide (cnt16 (bits d.cnt 47 32) ≤ i2)
  let w := setBits (setBits (setBits d.idx 15 0 (if c0 then 0 else i0)) 31 16 (if c1 then 0 else i1)) 47 32 (if c2 then 0 else i2)
  { d with idx := w }
def Proctor.dsc (x : Proctor) (d : Nat) : Desc := x.desc.getD d .init
def Pkg.setDesc (p : Pkg) (f d : Nat) (v : Desc) : Pkg := p.updProc f fun x => { x with desc := AMap.set Desc.init x.desc d v }
/-- AGCUR. -/
def agcur (f : Nat) (p : Pkg) : Pkg := valRow 0x10 (fun c => (c.x.dsc (c.fb 2 0)).addr) f p
/-- AGNEXT. -/
def agnext (f : Nat) (p : Pkg) : Pkg :=
  procRow 0x11 (fun c p =>
    let d := c.x.dsc (c.fb 2 0)
    (p.setDesc c.f (c.fb 2 0) d.advance).pDone c (some d.addr)) f p
/-- AGRST. -/
def agrst (f : Nat) (p : Pkg) : Pkg :=
  procRow 0x12 (fun c p =>
    let d := c.x.dsc (c.fb 2 0)
    (p.setDesc c.f (c.fb 2 0) { d with idx := setBits d.idx 47 0 0 }).pDone c none) f p
/-- AGBASE. -/
def agbase (f : Nat) (p : Pkg) : Pkg :=
  procRow 0x13 (fun c p =>
    let d := c.x.dsc (c.fb 2 0)
    (p.setDesc c.f (c.fb 2 0) { d with base := c.a + BitVec.ofInt 64 (sx 40 (c.fb 42 3)) }).pDone c none) f p
/-- AGAT. -/
def agat (f : Nat) (p : Pkg) : Pkg :=
  valRow 0x14 (fun c =>
    let d := c.x.dsc (c.fb 2 0)
    d.base + c.a * s32 d.str01 31 0 + c.b * s32 d.str01 63 32) f p

/-! Branch and loop (R187, R190). -/

def PCtx.target (c : PCtx) : Nat := wrapNat 20 ((c.pc : Int) + 8 * sx 32 (c.fb 31 0))
def PCtx.link (c : PCtx) : W64 := BitVec.ofNat 64 (c.pc + 8)
/-- BR. -/
def br (f : Nat) (p : Pkg) : Pkg :=
  procRow 0x18 (fun c p =>
    let k := c.fb 34 32
    match (if k = 6 then some true else cond k c.a c.b) with
    | some true => p.pJump c none c.target
    | some false => p.pDone c none
    | none => p.pIllegal c 0x0034) f p
/-- JAL. -/
def jal (f : Nat) (p : Pkg) : Pkg := procRow 0x19 (fun c p => p.pJump c (some c.link) c.target) f p
/-- JR: a target that is not a multiple of 8 is illegal. -/
def jr (f : Nat) (p : Pkg) : Pkg :=
  procRow 0x1A (fun c p =>
    if c.a.toNat % 8 = 0 then p.pJump c (some c.link) (bits c.a 19 0) else p.pIllegal c 0x0034) f p
/-- LOOP (R190). DESIGN CHOICE (log entry 118): one that stands at the END of the innermost entry makes no back-edge there,
neither by its skip nor by its push. -/
def loop (f : Nat) (p : Pkg) : Pkg :=
  procRow 0x1B (fun c p =>
    let n := c.a + BitVec.ofNat 64 (c.fb 23 0)
    let len := c.fb 42 24
    if len = 0 then p.pIllegal c 0x0034
    else if n = 0#64 then
      let p := p.updProc c.f fun x =>
        { x with pc := (c.pc + 8 + 8 * len) % 2 ^ 20, st := .run, ready := c.l + 1, icache := x.icache.touch (c.pc / 64) }
      p.procItem c 1 false
    else if 4 ≤ c.x.loops.length then p.pIllegal c 0x0034
    else
      let e : LoopEnt := { start := c.pc + 8, stop := c.pc + 8 * len, remaining := n, index := 0#64 }
      let p := p.updProc c.f fun x =>
        { x with loops := e :: x.loops, pc := (c.pc + 8) % 2 ^ 20, st := .run, ready := c.l + 1,
                 icache := x.icache.touch (c.pc / 64) }
      p.procItem c 1 false) f p
/-- LIDX: an absent entry is illegal. -/
def lidx (f : Nat) (p : Pkg) : Pkg :=
  procRow 0x1C (fun c p => match c.x.loops[c.fb 1 0]? with
    | some e => p.pDone c (some e.index)
    | none => p.pIllegal c 0x0034) f p
/-- BREAK: with an empty stack it is illegal. -/
def break_ (f : Nat) (p : Pkg) : Pkg :=
  procRow 0x1D (fun c p => match c.x.loops with
    | e :: r => (p.updProc c.f fun x => { x with loops := r }).pJump c none (e.stop + 8)
    | [] => p.pIllegal c 0x0034) f p
/-- Bits [19:3] of ENTRY or RESUME as a pc (R183). -/
def pcOf (w : W64) : Nat := bits w 19 3 * 8
/-- STEP. -/
def step_ (f : Nat) (p : Pkg) : Pkg :=
  procRow 0x1E (fun c p =>
    (p.updProc c.f fun x => { x with tb := x.tb + x.csr.stepTicks, loops := [] }).pJump c none (pcOf c.x.csr.entry)) f p

/-! Push (R189, R194, R195). -/

/-- The command word a push builds. -/
def pushWord (c : PCtx) : W128 :=
  let ofs := (bits c.a 55 32 + c.fb 23 0) % 2 ^ 24
  let hi := setBits (setBits c.a 31 24 (c.x.ep.toNat % 256)) 55 32 ofs
  BitVec.ofNat 128 (hi.toNat * 2 ^ 64 + c.b.toNat)

def Station.depth : Station → Nat
  | .te => 64 | .ve => 64 | .sm => 128 | .lx => 64 | .samp => 16

/-- Neither wait of R194 holds the push. -/
def Pkg.pushFits (p : Pkg) (f : Nat) (st : Station) (fire : Nat) : Bool :=
  let n := match st with | .samp => (p.samp (f / 72)).queue.length | _ => ((p.fen f).queue st).length
  decide (fire ≤ p.local_ f + 4096) && decide (n < st.depth)

/-- The push enters its queue; a late one suppresses periods (R195). -/
def Pkg.pushNow (p : Pkg) (f : Nat) (h : HeldPush) : Pkg :=
  let l := p.local_ f
  let late := decide (h.fire ≤ l)
  let q : QCmd := { word := h.word, fire := h.fire, fen := p.logNum f, pc := h.pc, late := late, avail := l + 1 }
  let p := match h.st with
    | .samp => let s := p.samp (f / 72); p.setSamp (f / 72) { s with queue := insertDraw q s.queue }
    | st => p.updFen f fun x => x.setQueue st (x.queue st ++ [q])
  let p := p.perf .fen f 0x201 1 (proctorAttr 0)
  if late then
    let p := p.updFen f fun x => { x with clk := { x.clk with suppress := x.clk.suppress + (l + 1 - h.fire) } }
    ((p.log .fen f 0x0035 h.fire 0 none).fadd F.fenProcStatLatePush f 1).perf .fen f 0x205 1 (proctorAttr 0)
  else p

/-- A push: CT first, then the queue, or the wait. -/
def pushRow (op : Nat) (st : Station) (f : Nat) (p : Pkg) : Pkg :=
  procRow op (fun c p =>
    let w := pushWord c
    let fire := (c.x.tb.toNat + ofsOf w) % 2 ^ 64
    let h : HeldPush := { st := st, word := w, fire := fire, pc := c.pc }
    let p := p.updProc c.f fun x => { x with ct := BitVec.ofNat 64 (max x.ct.toNat fire) }
    if p.pushFits c.f st fire then (p.pushNow c.f h).pDone c none
    else p.updProc c.f fun x => { x with st := .pushWait, held := some h }) f p
/-- PUSH.TE. -/
def pushTe (f : Nat) (p : Pkg) : Pkg := pushRow 0x20 .te f p
/-- PUSH.VE. -/
def pushVe (f : Nat) (p : Pkg) : Pkg := pushRow 0x21 .ve f p
/-- PUSH.SM. -/
def pushSm (f : Nat) (p : Pkg) : Pkg := pushRow 0x22 .sm f p
/-- PUSH.LX. -/
def pushLx (f : Nat) (p : Pkg) : Pkg := pushRow 0x23 .lx f p
/-- PUSH.SAMP. -/
def pushSamp (f : Nat) (p : Pkg) : Pkg := pushRow 0x24 .samp f p
/-- PUSH_QUEUE_ENTRY (R194): a waiting push enters its queue in the tick in which its wait ends. -/
def pushQueueEntry (f : Nat) (p : Pkg) : Pkg :=
  let y := p.fen f
  match y.proc.st, y.proc.held with
  | .pushWait, some h =>
    if p.pushFits f h.st h.fire && !y.hard && !y.clk.heldNow then
      let c : PCtx := { f := f, l := p.local_ f, pc := y.proc.pc, w := BitVec.ofNat 64 (leAt y.proc.code y.proc.pc 8), x := y.proc }
      ((p.updProc f fun x => { x with held := none }).pushNow f h).pDone c none
    else p
  | _, _ => p
/-- INS. -/
def ins (f : Nat) (p : Pkg) : Pkg :=
  procRow 0x25 (fun c p => match posLen c with
    | some (q, n) => p.pDone c (some (setBits c.a (q + n - 1) q c.b.toNat))
    | none => p.pIllegal c 0x0034) f p

/-! Waits (R191, R192). -/

/-- WAITT. -/
def waitt (f : Nat) (p : Pkg) : Pkg :=
  procRow 0x28 (fun c p =>
    if (c.x.tb + c.a + BitVec.ofNat 64 (c.fb 23 0)).toNat ≤ c.l then p.pDone c none else p.pWait c .waitt) f p
/-- An SM.SLRD or SM.SLWR naming a sluice waits in the SM queue. -/
def Fen.slWaits (x : Fen) (s : Nat) : Bool :=
  x.qSm.any fun q => (decide (opOf q.word = 0x84) || decide (opOf q.word = 0x86)) && decide (slSlu q.word = s)
/-- WAITS. -/
def waits (f : Nat) (p : Pkg) : Pkg :=
  procRow 0x29 (fun c p =>
    let s := c.fb 25 24
    let wd := c.fb 31 26
    if c.l < (c.x.tb + BitVec.ofNat 64 (c.fb 23 0)).toNat then p.pWait c .waits
    else match (p.fen c.f).headEntry s with
      | some e =>
        if 64 * e.beats ≤ wd then p.pIllegal c 0x0034
        else if !e.ready then p.pWait c .waits
        else
          let poison := !e.write && ((e.atoms.getD (wd / 8) { bytes := [], poison := true }).poison || e.badWord wd)
          let p := p.sluiceMet c.f s e (!e.write && e.badWord wd)
          let v : W64 := if e.write || poison then 0#64 else match e.word wd with
            | .ok d => BitVec.ofNat 64 d
            | .corrected d => BitVec.ofNat 64 d
            | .bad => 0#64
          let p := if bit c.w 32 then p.updFen c.f fun x => x.popEntry s else p
          let p := if poison then
              ((p.log .fen c.f 0x0037 c.l 0 none).fadd F.fenProcStatPoison c.f 1).defect c.l 0x0037
            else p
          p.pDone c (some v)
      | none => if (p.fen c.f).slWaits s then p.pWait c .waits else p.pIllegal c 0x0034) f p
/-- The first step boundary after a tick. -/
def Pkg.nextBoundary (p : Pkg) (l : Nat) : Nat := p.stepEnd (p.stepOf l)
/-- WAITB. -/
def waitb (f : Nat) (p : Pkg) : Pkg :=
  procRow 0x2A (fun c p =>
    let k := c.fb 1 0
    if 2 ≤ k then p.pIllegal c 0x0034
    else
      let b := if k = 0 then c.x.waitB.getD (p.nextBoundary c.l) else c.a.toNat
      if b ≤ c.l then p.pDone c (some (BitVec.ofNat 64 (p.stepNo c.l)))
      else p.updProc c.f fun x => { x with st := .waitb, waitB := some b }) f p

/-! CSRs (R183, R193). -/

/-- A CSR's value; none for a number not in the table. -/
def Pkg.csr (p : Pkg) (c : PCtx) (n : Nat) : Option W64 :=
  let x := c.x
  if n = 0x000 then some (BitVec.ofNat 64 c.pc)
  else if n = 0x001 then some x.tb
  else if n = 0x002 then some x.ep
  else if n = 0x003 then some (BitVec.ofNat 64 c.l)
  else if n = 0x004 then some x.ct
  else if n = 0x005 then some x.csr.stepTicks
  else if n = 0x006 then some x.csr.startTick
  else if n = 0x007 then some (BitVec.ofNat 64 (p.stepNo c.l))
  else if n = 0x008 then some x.csr.selfFen
  else if n = 0x009 then some x.csr.selfRank
  else if n = 0x00A then some x.csr.entry
  else if n = 0x00B then some x.csr.resume
  else if n = 0x00C then some (BitVec.ofNat 64 x.loops.length)
  else if n = 0x010 then some x.csr.dramBase
  else if n = 0x011 then some x.csr.peatBase
  else if n = 0x012 then some x.csr.adapterBase
  else if 0x040 ≤ n ∧ n < 0x080 then
    let d := x.dsc ((n - 0x040) / 8)
    let k := n % 8
    if k = 0 then some d.base else if k = 1 then some d.str01 else if k = 2 then some d.str2
    else if k = 3 then some d.cnt else if k = 4 then some d.idx else none
  else none
/-- A CSR write; none for an RO CSR or a number not in the table. -/
def Proctor.csrWrite (x : Proctor) (n : Nat) (v : W64) : Option Proctor :=
  if n = 0x001 then some { x with tb := v }
  else if n = 0x00A then some { x with csr := { x.csr with entry := v } }
  else if n = 0x00B then some { x with csr := { x.csr with resume := v } }
  else if 0x040 ≤ n ∧ n < 0x080 then
    let i := (n - 0x040) / 8
    let d := x.dsc i
    let k := n % 8
    let put (d : Desc) : Option Proctor := some { x with desc := AMap.set Desc.init x.desc i d }
    if k = 0 then put { d with base := v } else if k = 1 then put { d with str01 := v }
    else if k = 2 then put { d with str2 := v } else if k = 3 then put { d with cnt := v }
    else if k = 4 then put { d with idx := v } else none
  else none
/-- CSRR. -/
def csrr (f : Nat) (p : Pkg) : Pkg :=
  procRow 0x30 (fun c p => match p.csr c (c.fb 11 0) with
    | some v => p.pDone c (some v)
    | none => p.pIllegal c 0x0034) f p
/-- A CSR write of a value made from the old one. -/
def csrUpdate (op : Nat) (g : W64 → W64 → W64) (f : Nat) (p : Pkg) : Pkg :=
  procRow op (fun c p =>
    let n := c.fb 11 0
    match p.csr c n with
    | some old =>
      match c.x.csrWrite n (g old c.a) with
      | some x => (p.updProc c.f fun _ => x).pDone c none
      | none => p.pIllegal c 0x0034
    | none => p.pIllegal c 0x0034) f p
/-- CSRW. -/
def csrw (f : Nat) (p : Pkg) : Pkg := csrUpdate 0x31 (fun _ a => a) f p
/-- CSRS. -/
def csrs (f : Nat) (p : Pkg) : Pkg := csrUpdate 0x32 (fun o a => o ||| a) f p
/-- CSRC. -/
def csrc (f : Nat) (p : Pkg) : Pkg := csrUpdate 0x33 (fun o a => o &&& ~~~a) f p
/-- EPOCH (R148, R193). -/
def epoch (f : Nat) (p : Pkg) : Pkg := procRow 0x34 (fun c p => (p.epochAdvance c.f).pDone c (some (c.x.ep + 1#64))) f p
/-- TBSET. -/
def tbset (f : Nat) (p : Pkg) : Pkg :=
  procRow 0x35 (fun c p => (p.updProc c.f fun x => { x with tb := c.a + c.simm }).pDone c none) f p
/-- COVER. -/
def cover (f : Nat) (p : Pkg) : Pkg :=
  procRow 0x36 (fun c p =>
    let t := (c.x.tb + BitVec.ofNat 64 (c.fb 23 0)).toNat
    (p.updProc c.f fun x => { x with ct := BitVec.ofNat 64 (max x.ct.toNat t) }).pDone c none) f p

/-! Instruction cache (R198, R201) and pc out of range (R200). -/

/-- The Proctor asks for lines of its code that it has not asked for already (R201, R244). -/
def Pkg.askLines (p : Pkg) (f : Nat) (ls : List Nat) : Pkg :=
  let x := (p.fen f).proc
  let new := ls.filter fun l => !x.icache.want.contains l
  let req (l : Nat) : DReq :=
    { fen := f, slu := 4, ent := l, atom := 0, cls := 0, addr := codeAddr f + 64 * l, write := false,
      data := { bytes := List.replicate 64 0#8, poison := true }, held := false }
  let p := p.updProc f fun x => { x with icache := { x.icache with want := x.icache.want ++ new } }
  p.sendOrAnswer f (new.map req)

/-- ICACHE_MISS: the line of the pc is absent, or a parity error has made it so. -/
def icacheMiss (f : Nat) (parity : Bool) (p : Pkg) : Pkg :=
  let y := p.fen f
  let x := y.proc
  let line := x.pc / 64
  let have_ := (x.icache.wayOf line).isSome
  if x.st = .run && decide (x.ready ≤ p.local_ f) && !y.hard && !y.clk.heldNow && decide (x.pc < x.code.length) && (!have_ || parity) then
    let p := if have_ then p.fadd F.fenIcacheParity f 1 else p
    let p := (p.fadd F.fenIcacheMisses f 1).perf .fen f 0x204 1 (proctorAttr 0)
    let more := if 64 * (line + 1) < x.code.length then [line, line + 1] else [line]
    (p.updProc f fun x => { x with st := .fetch, icache := x.icache.drop line }).askLines f more
  else p
/-- Instruction bytes with those of a line replaced by what its fill brought. -/
def setLine (code : List Byte) (line : Nat) (bs : List Byte) : List Byte :=
  code.take (64 * line) ++ (bs ++ code.drop (64 * line + 64)).take (code.length - 64 * line)

/-- ICACHE_FILL: the return of a requested line has come; an uncorrectable word poisons the instruction that it holds. -/
def icacheFill (f line : Nat) (p : Pkg) : Pkg :=
  match findPos (fun (r : DRet) => decide (r.fen = f) && decide (r.slu = 4) && decide (r.ent = line)) p.dram.returns with
  | none => p
  | some i =>
    match p.dram.returns[i]? with
    | none => p
    | some r =>
      let p := p.updDram fun m => { m with returns := dropAt m.returns i }
      let l := p.local_ f
      if (p.fen f).proc.icache.want.contains line then
        p.updProc f fun x =>
          let c := { x.icache with want := x.icache.want.filter fun y => y ≠ line,
                                   bad := (x.icache.bad.filter fun a => a / 64 ≠ line) ++ r.bad.map fun k => 64 * line + 8 * k }
          let c := if (c.wayOf line).isSome then c else c.insert line
          let back := decide (x.st = .fetch) && decide (x.pc / 64 = line)
          { x with icache := c, code := setLine x.code line (padTo 64 r.data.bytes), st := if back then .run else x.st,
                   ready := if back then l + 1 else x.ready }
      else p
def execIcacheFill (f : Fin 288) (line : Nat) (s : State) : Host.Outcome State Fault Refusal := onPkg (icacheFill f line) s
def execIcacheMiss (f : Fin 288) (parity : Bool) (s : State) : Host.Outcome State Fault Refusal := onPkg (icacheMiss f parity) s

/-- PC_RANGE (R200): the Proctor executes nothing until the next step boundary; what it would have pushed till then never
comes. -/
def pcRange (f : Nat) (p : Pkg) : Pkg :=
  let y := p.fen f
  let x := y.proc
  let l := p.local_ f
  if x.st = .run && decide (x.ready ≤ l) && !y.hard && !y.clk.heldNow && decide (x.code.length ≤ x.pc) then
    let p := (p.log .fen f 0x0036 l 0 none).fadd F.fenProcStatPcRange f 1
    let b := p.nextBoundary l
    (p.defect l 0x0036).updProc f fun x =>
      { x with st := .stepWait, waitB := some b, unpushed := x.unpushed ++ [(x.ct.toNat, b)] }
  else p
/-- PC_RANGE_RESUME (R200). -/
def pcRangeResume (f : Nat) (p : Pkg) : Pkg :=
  let x := (p.fen f).proc
  match x.st, x.waitB with
  | .stepWait, some b =>
    let l := p.local_ f
    if b ≤ l && !(p.fen f).clk.heldNow then
      p.updProc f fun x =>
        { x with pc := pcOf x.csr.resume, tb := BitVec.ofNat 64 b, ct := BitVec.ofNat 64 b, st := .run, ready := l, waitB := none }
    else p
  | _, _ => p

/-! The rows. -/

def execAdd (f : Fin 288) (s : State) : Host.Outcome State Fault Refusal := onPkg (add f) s
def execSub (f : Fin 288) (s : State) : Host.Outcome State Fault Refusal := onPkg (sub_ f) s
def execAnd (f : Fin 288) (s : State) : Host.Outcome State Fault Refusal := onPkg (and_ f) s
def execOr (f : Fin 288) (s : State) : Host.Outcome State Fault Refusal := onPkg (or_ f) s
def execXor (f : Fin 288) (s : State) : Host.Outcome State Fault Refusal := onPkg (xor_ f) s
def execShl (f : Fin 288) (s : State) : Host.Outcome State Fault Refusal := onPkg (shl f) s
def execShr (f : Fin 288) (s : State) : Host.Outcome State Fault Refusal := onPkg (shr f) s
def execSra (f : Fin 288) (s : State) : Host.Outcome State Fault Refusal := onPkg (sra f) s
def execMul (f : Fin 288) (s : State) : Host.Outcome State Fault Refusal := onPkg (mul f) s
def execAddi (f : Fin 288) (s : State) : Host.Outcome State Fault Refusal := onPkg (addi f) s
def execAndi (f : Fin 288) (s : State) : Host.Outcome State Fault Refusal := onPkg (andi f) s
def execLdi (f : Fin 288) (s : State) : Host.Outcome State Fault Refusal := onPkg (ldi f) s
def execLdhi (f : Fin 288) (s : State) : Host.Outcome State Fault Refusal := onPkg (ldhi f) s
def execCmp (f : Fin 288) (s : State) : Host.Outcome State Fault Refusal := onPkg (cmp f) s
def execMinmax (f : Fin 288) (s : State) : Host.Outcome State Fault Refusal := onPkg (minmax f) s
def execBfx (f : Fin 288) (s : State) : Host.Outcome State Fault Refusal := onPkg (bfx f) s
def execAgcur (f : Fin 288) (s : State) : Host.Outcome State Fault Refusal := onPkg (agcur f) s
def execAgnext (f : Fin 288) (s : State) : Host.Outcome State Fault Refusal := onPkg (agnext f) s
def execAgrst (f : Fin 288) (s : State) : Host.Outcome State Fault Refusal := onPkg (agrst f) s
def execAgbase (f : Fin 288) (s : State) : Host.Outcome State Fault Refusal := onPkg (agbase f) s
def execAgat (f : Fin 288) (s : State) : Host.Outcome State Fault Refusal := onPkg (agat f) s
def execBr (f : Fin 288) (s : State) : Host.Outcome State Fault Refusal := onPkg (br f) s
def execJal (f : Fin 288) (s : State) : Host.Outcome State Fault Refusal := onPkg (jal f) s
def execJr (f : Fin 288) (s : State) : Host.Outcome State Fault Refusal := onPkg (jr f) s
def execLoop (f : Fin 288) (s : State) : Host.Outcome State Fault Refusal := onPkg (loop f) s
def execLidx (f : Fin 288) (s : State) : Host.Outcome State Fault Refusal := onPkg (lidx f) s
def execBreak (f : Fin 288) (s : State) : Host.Outcome State Fault Refusal := onPkg (break_ f) s
def execStep (f : Fin 288) (s : State) : Host.Outcome State Fault Refusal := onPkg (step_ f) s
def execPushTe (f : Fin 288) (s : State) : Host.Outcome State Fault Refusal := onPkg (pushTe f) s
def execPushVe (f : Fin 288) (s : State) : Host.Outcome State Fault Refusal := onPkg (pushVe f) s
def execPushSm (f : Fin 288) (s : State) : Host.Outcome State Fault Refusal := onPkg (pushSm f) s
def execPushLx (f : Fin 288) (s : State) : Host.Outcome State Fault Refusal := onPkg (pushLx f) s
def execPushSamp (f : Fin 288) (s : State) : Host.Outcome State Fault Refusal := onPkg (pushSamp f) s
def execPushQueueEntry (f : Fin 288) (s : State) : Host.Outcome State Fault Refusal := onPkg (pushQueueEntry f) s
def execIns (f : Fin 288) (s : State) : Host.Outcome State Fault Refusal := onPkg (ins f) s
def execWaitt (f : Fin 288) (s : State) : Host.Outcome State Fault Refusal := onPkg (waitt f) s
def execWaits (f : Fin 288) (s : State) : Host.Outcome State Fault Refusal := onPkg (waits f) s
def execWaitb (f : Fin 288) (s : State) : Host.Outcome State Fault Refusal := onPkg (waitb f) s
def execCsrr (f : Fin 288) (s : State) : Host.Outcome State Fault Refusal := onPkg (csrr f) s
def execCsrw (f : Fin 288) (s : State) : Host.Outcome State Fault Refusal := onPkg (csrw f) s
def execCsrs (f : Fin 288) (s : State) : Host.Outcome State Fault Refusal := onPkg (csrs f) s
def execCsrc (f : Fin 288) (s : State) : Host.Outcome State Fault Refusal := onPkg (csrc f) s
def execEpoch (f : Fin 288) (s : State) : Host.Outcome State Fault Refusal := onPkg (epoch f) s
def execTbset (f : Fin 288) (s : State) : Host.Outcome State Fault Refusal := onPkg (tbset f) s
def execCover (f : Fin 288) (s : State) : Host.Outcome State Fault Refusal := onPkg (cover f) s
def execPcRange (f : Fin 288) (s : State) : Host.Outcome State Fault Refusal := onPkg (pcRange f) s
def execPcRangeResume (f : Fin 288) (s : State) : Host.Outcome State Fault Refusal := onPkg (pcRangeResume f) s

end Sys2Proof.Machine
end

