-- ==== Sys2Proof/Machine/Fec.lean ====
section
/-! DEFINITION. The code of a link: RS(544,514) over 10-bit symbols, and the lanes its symbols take (R266). The field and the
generator are those of IEEE 802.3 Clause 91, which the rule names: PRESUMED (log entry 128). -/
namespace Sys2Proof.Machine

open Sys2Proof

/-- Twice a symbol of GF(2^10) modulo x^10 + x^3 + 1. -/
def gfDouble (a : Nat) : Nat := if 1024 ≤ 2 * a then (2 * a) ^^^ 0x409 else 2 * a
/-- Product of two symbols, by the bits of the second. -/
def gfMul (a b : Nat) : Nat :=
  ((List.range 10).foldl (fun (s : Nat × Nat) i => (if b.testBit i then s.1 ^^^ s.2 else s.1, gfDouble s.2)) (0, a)).1
/-- α^i, with α = 2. -/
def gfPow : Nat → Nat
  | 0 => 1
  | i + 1 => gfDouble (gfPow i)

/-- A polynomial, highest coefficient first, times (x + c). -/
def gfTimes (f : List Nat) (c : Nat) : List Nat :=
  List.zipWith (fun a b => a ^^^ b) (f ++ [0]) (0 :: f.map fun a => gfMul a c)
/-- The generator: the product of (x + α^j) for j from 0 to 29. -/
def rsGen : List Nat := (List.range 30).foldl (fun f j => gfTimes f (gfPow j)) [1]

/-- One symbol enters the division by the generator; the register holds the 30 remainder symbols. -/
def rsStep (gen reg : List Nat) (m : Nat) : List Nat :=
  let h := reg.headD 0 ^^^ m
  List.zipWith (fun r g => r ^^^ gfMul h g) (reg.drop 1 ++ [0]) gen
/-- The 30 parity symbols of a message of 514 symbols. -/
def rsParity (msg : List Nat) : List Nat := msg.foldl (rsStep (rsGen.drop 1)) (List.replicate 30 0)
/-- The codeword: the message, then its parity. -/
def rsWord (msg : List Nat) : List Nat := msg ++ rsParity msg

/-- The symbols that the `k`-th of `n` active data lanes carries of a codeword: every n-th, in turn (R266). -/
def laneShare (n k : Nat) (word : List Nat) : List Nat :=
  ((List.range word.length).filter fun i => decide (i % n = k)).map fun i => word.getD i 0

end Sys2Proof.Machine
end

