-- ==== Sys2Proof/Machine/Issyn.lean ====
section
/-! DEFINITION. The Issyn ports: slots, transmit, acknowledgement and replay, receive and delivery, transit, training,
lane changes, partitions (R265 to R297, R311 to R324). -/
namespace Sys2Proof.Machine

open Sys2Proof

/-! Flits (R271 to R274). -/

def flitKind (b : List Byte) : Nat := leAt b 0 1 % 4
def flitHdr (b : List Byte) : Nat := leAt b 0 8
def flitSeq (b : List Byte) : Nat := nbits (flitHdr b) 13 2
def flitVc (b : List Byte) : Nat := nbits (flitHdr b) 15 14
def flitPart (b : List Byte) : Nat := nbits (flitHdr b) 23 16
def flitDest (b : List Byte) : Nat := nbits (flitHdr b) 37 24
def flitSpace (b : List Byte) : Nat := nbits (flitHdr b) 38 38
def flitAddr (b : List Byte) : Nat := nbits (flitHdr b) 62 39
def flitPoison (b : List Byte) : Bool := decide (nbits (flitHdr b) 63 63 = 1)
def flitCtype (b : List Byte) : Nat := nbits (flitHdr b) 5 2
def flitAck (b : List Byte) : Nat := nbits (flitHdr b) 35 24
def flitAckValid (b : List Byte) : Bool := decide (nbits (flitHdr b) 36 36 = 1)
def flitPaddr (b : List Byte) : Nat := nbits (flitHdr b) 59 37
def flitPayload (b : List Byte) : List Byte := sliceB b 8 240

/-- A whole flit: header, payload, CRC (R271). -/
def mkFlit (hdr : Nat) (pay : List Byte) : List Byte :=
  let b := leBytes 8 hdr ++ padTo 240 pay
  b ++ leBytes 8 (crc64 b)
/-- The CRC of a received flit is good. -/
def flitGood (b : List Byte) : Bool := decide (leAt b 248 8 = crc64 (sliceB b 0 248))

/-! Slots (R268, R269). -/

/-- Free-running time in ns, for intervals stated in ms. -/
def Pkg.rawNs (p : Pkg) : Nat := p.bell.raw / 2 ^ 32

/-- Slots of a step. -/
def nslot (stepTicks : Nat) : Nat := 4 * stepTicks / 9
/-- Latest slot that has begun `o` ticks into a step. -/
def slotAt (o : Nat) : Nat := (4 * o + 3) / 9

/-- The slot in progress: its number since the plan began (or since count 0) and its index. None after the last slot
of a step. -/
def Pkg.slotNow (p : Pkg) : Option (Nat × Nat) :=
  match p.job.cur with
  | some c =>
    if p.planRuns && decide (c.startTick ≤ p.refCount) then
      let o := p.refCount - c.startTick
      let n := slotAt (o % c.img.stepTicks)
      if n < nslot c.img.stepTicks then some (o / c.img.stepTicks * nslot c.img.stepTicks + n, n) else none
    else some (slotAt p.refCount, slotAt p.refCount)
  | none => some (slotAt p.refCount, slotAt p.refCount)

/-- Reserved slot indexes of a port's table in the running plan. -/
def Pkg.slotTable (p : Pkg) (q : Nat) : List Nat :=
  match p.job.cur with
  | some c => if p.planRuns then c.tab.slots.getD q [] else []
  | none => []

/-- The number of the slot of an ordinal under a table (R278). -/
def Pkg.ordSlot (p : Pkg) (tab : List Nat) (j : Nat) : Nat :=
  j / max 1 tab.length * nslot p.stepTicks + tab.getD (j % max 1 tab.length) 0

/-! Port state. -/

def Pkg.issynEv (p : Pkg) (q code : Nat) (k : Option Nat) : Pkg := p.log1 .issyn q code 0 k
def Pkg.loop (p : Pkg) (q : Nat) : Nat := p.fget F.issynLatencyLoopTicks q
def Pkg.setState (p : Pkg) (q : Nat) (s : PState) : Pkg :=
  p.updPort q fun x => { x with state := s, since := p.tb1, sinceNs := p.rawNs }

/-- The tick in which the slot after the present one begins. -/
def Pkg.nextSlot (p : Pkg) : Nat :=
  match p.job.cur with
  | some c =>
    if p.planRuns && decide (c.startTick ≤ p.refCount) then
      let o := (p.refCount - c.startTick) % c.img.stepTicks
      p.refCount - o + min c.img.stepTicks (9 * (slotAt o + 1) / 4)
    else 9 * (slotAt p.refCount + 1) / 4
  | none => 9 * (slotAt p.refCount + 1) / 4

/-- The fence acts (R319). -/
def Pkg.fenced (p : Pkg) (q : Nat) : Bool := p.fon F.issynPartFence q && decide ((p.port q).fenceFrom ≤ p.refCount)
/-- The port may carry DATA and NULL flits, and BELL and MGMT flits (R290, R319). -/
def Pkg.portOpen (p : Pkg) (q : Nat) : Bool :=
  (p.port q).state = .up && !p.fenced q && !p.fon F.issynStatusForeign q
def Pkg.dataOpen (p : Pkg) (q : Nat) : Bool := p.portOpen q && !p.fon F.issynStatusPartnerChanged q

/-- Staging, replay buffer and receive buffer are empty (R290, R320). -/
def Port.isEmpty (x : Port) : Bool := x.stag.isEmpty && x.replay.isEmpty && x.rx.all fun r => r.delivered && r.transit.isNone

/-- R291: staging, replay buffer, receive buffer and counters emptied; the port state stays. -/
def Port.emptied (x : Port) : Port :=
  { x with stag := [], ordTx := 0, nextSeq := 0, replay := [], replayRun := 0, ordRx := 0, rx := [], gaps := [],
           nakDue := [], lastSlot := 0, transit := [], busy := 0, fenceFrom := 0 }
def Pkg.portAbort (p : Pkg) (q : Nat) : Pkg := (p.updPort q Port.emptied).fset F.issynStatusPartnerChanged q 0
/-- The handover at a port (R291). -/
def Pkg.portHandover (p : Pkg) (q : Nat) : Pkg :=
  let p := if (p.port q).isEmpty then p else p.issynEv q 0x008A none
  p.updPort q Port.emptied

/-- Start of full training (R287, R289). -/
def Pkg.train (p : Pkg) (q tx rx : Nat) : Pkg :=
  let p := (p.setState q .train).updPort q fun x =>
    { x with paths := [], pings := [], pendPing := (List.range 64).map fun i => 0#8 :: leBytes 8 i }
  (p.fset F.issynTimingTxCorr q tx).fset F.issynTimingRxCorr q rx

/-- Entry to RETRAIN (R282, R288). -/
def Pkg.retrain (p : Pkg) (q : Nat) : Pkg :=
  if (p.port q).state = .up then
    let p := (p.setState q .retrain).fadd F.issynErrRetrains q 1
    p.issynEv q 0x0081 (some 11)
  else p

/-- Entry to DOWN with a cause. -/
def Pkg.goDown (p : Pkg) (q cause : Nat) : Pkg :=
  (p.setState q .down).fset F.issynStatusDownCause q cause

/-- Entry to UP (R288, R289): every unacknowledged flit is replayed. -/
def Pkg.goUp (p : Pkg) (q : Nat) : Pkg :=
  let was := (p.port q).state
  let p := (p.setState q .up).updPort q fun x =>
    { x with replay := x.replay.map fun r => { r with pend := true, replays := if was = .retrain then 0 else r.replays },
             pendIdent := 1 }
  (p.fset F.issynStatusDownCause q 0).issynEv q 0x0080 none

/-- PORT_ENABLE (R286, R294): the Caretaker alone. -/
def portEnable (q : Nat) (care v : Bool) (tx rx : Nat) (p : Pkg) : Pkg :=
  if !care then p
  else
    let p := p.fset F.issynCtrlEnable q (b2n v)
    if v then (if (p.port q).state = .off then p.train q tx rx else p)
    else ((p.setState q .off).portAbort q)
def execPortEnable (p : Fin 16) (care v : Bool) (corrTx corrRx : Nat) (s : State) : Host.Outcome State Fault Refusal :=
  onPkg (portEnable p care v corrTx corrRx) s

/-- The RETRY_MS interval has passed in DOWN, or an enabled port has not trained since the cold reset (R286). -/
def Pkg.retryDue (p : Pkg) (q : Nat) : Bool :=
  let x := p.port q
  (x.state = .off && p.fon F.issynCtrlEnable q) ||
  (x.state = .down && decide (x.sinceNs + max 1 (p.fget F.issynCtrlRetryMs q) * nsPerMs ≤ p.rawNs))

/-- TRAIN (R286, R287): a write by the Caretaker, or the interval from DOWN, or the begin of bring-up. -/
def trainStart (q : Nat) (care : Bool) (tx rx : Nat) (p : Pkg) : Pkg :=
  if p.retryDue q || ((p.port q).state ≠ .off && care) then p.train q tx rx else p
def execTrain (p : Fin 16) (care : Bool) (corrTx corrRx : Nat) (s : State) : Host.Outcome State Fault Refusal :=
  onPkg (trainStart p care corrTx corrRx) s

/-! Lane maps (R265, R292, R293). -/

def Pkg.laneMap (p : Pkg) (q : Nat) (tx : Bool) : List Nat :=
  let w := p.fget (if tx then F.issynLanemapTxMap else F.issynLanemapRxMap) q
  (List.range 8).map fun i => nbits w (4 * i + 3) (4 * i)
def Pkg.setLaneMap (p : Pkg) (q : Nat) (tx : Bool) (m : List Nat) : Pkg :=
  p.fset (if tx then F.issynLanemapTxMap else F.issynLanemapRxMap) q
    (m.reverse.foldl (fun a x => a * 16 + x % 16) 0)
def Pkg.failedLanes (p : Pkg) (q : Nat) (tx : Bool) : Nat :=
  p.fget (if tx then F.issynLaneCfgTxFailed else F.issynLaneCfgRxFailed) q
def Pkg.setFailed (p : Pkg) (q : Nat) (tx : Bool) (v : Nat) : Pkg :=
  p.fset (if tx then F.issynLaneCfgTxFailed else F.issynLaneCfgRxFailed) q v
def hasLane (m l : Nat) : Bool := decide (m / 2 ^ l % 2 = 1)
/-- The usable spare: the lane that is neither mapped nor failed. -/
def Pkg.spareLane (p : Pkg) (q : Nat) (tx : Bool) : Option Nat :=
  (List.range 9).find? fun l => !(p.laneMap q tx).contains l && !hasLane (p.failedLanes q tx) l

/-- The symbols of a codeword that physical lane `l` carries: round-robin over the active data lanes; the spare carries none
(R265, R266). -/
def Pkg.laneSymbols (p : Pkg) (q : Nat) (tx : Bool) (l : Nat) (word : List Nat) : List Nat :=
  let act := (p.laneMap q tx).filter fun k => k < 9
  match findPos (fun k => k = l) act with
  | some k => laneShare act.length k word
  | none => []

/-- A port goes down with cause LANES (R292, R489). -/
def Pkg.downLanes (p : Pkg) (q : Nat) : Pkg := ((p.goDown q 4).issynEv q 0x0082 (some 8)).replace 2
/-- A port runs on 7 lanes (R292). -/
def Pkg.narrow (p : Pkg) (q : Nat) : Pkg :=
  ((p.fset F.issynStatusNarrow q 1).issynEv q 0x0084 (some 9)).replace 2

/-- The map over the lanes that pass a full training. -/
def trainedMap (failed : Nat) : List Nat :=
  let ok := (List.range 9).filter fun l => !hasLane failed l
  if hasLane failed 8 || decide (ok.length = 9) then
    (List.range 8).map fun i => if hasLane failed i then 15 else i
  else
    (List.range 8).map fun i =>
      if !hasLane failed i then i
      else if (List.range i).all fun j => !hasLane failed j then 8 else 15

/-- TRAIN_DONE (R287): equalisers and alignment are settled with the given lanes failed, and 64 pairs are in. -/
def median (l : List Int) : Int :=
  let s := isort (fun a b => decide (a ≤ b)) l
  (s.getD 31 0 + s.getD 32 0) / 2
def trainDone (q : Nat) (ok : Bool) (txf rxf : Nat) (p : Pkg) : Pkg :=
  let x := p.port q
  if x.state ≠ .train then p
  else if !ok || decide (x.sinceNs + 400 * nsPerMs < p.rawNs) then p.goDown q 1
  else if x.paths.length < 64 then p
  else
    let p := (p.setFailed q true txf).setFailed q false rxf
    let m := trainedMap (txf % 512)
    let n := trainedMap (rxf % 512)
    if 2 ≤ m.count 15 || 2 ≤ n.count 15 then p.downLanes q
    else
      let p := (p.setLaneMap q true m).setLaneMap q false n
      let p := p.fset F.issynStatusSpareUsed q (b2n (m.contains 8 || n.contains 8))
      let p := if m.contains 15 || n.contains 15 then p.narrow q else p
      (p.setState q .identify).updPort q fun x => { x with pendPing := [], laneErr := [], blkBase := 0, blkAt := p.bell.raw }
def execTrainDone (p : Fin 16) (ok : Bool) (txFailed rxFailed : Nat) (s : State) : Host.Outcome State Fault Refusal :=
  onPkg (trainDone p ok txFailed rxFailed) s

/-- TRAIN_TIMEOUT (R286). -/
def trainTimeout (q : Nat) (p : Pkg) : Pkg :=
  if (p.port q).state = .train && decide ((p.port q).sinceNs + 400 * nsPerMs ≤ p.rawNs) then p.goDown q 1 else p
def execTrainTimeout (p : Fin 16) (s : State) : Host.Outcome State Fault Refusal := onPkg (trainTimeout p) s

/-- BLOCK_LOCK_LOSS (R286, R288). -/
def execBlockLockLoss (p : Fin 16) (s : State) : Host.Outcome State Fault Refusal := onPkg (fun k => k.retrain p) s

/-- RETRAIN_TIMEOUT (R288). -/
def retrainTimeout (q : Nat) (p : Pkg) : Pkg :=
  let x := p.port q
  if x.state = .retrain && decide (x.sinceNs + 200000 ≤ p.rawNs) then
    let p := p.updPort q fun x => { x with retrainFails := x.retrainFails + 1 }
    if max 1 (p.fget F.issynCtrlRetrainLimit q) ≤ x.retrainFails + 1 then (p.goDown q 3).issynEv q 0x0082 (some 8)
    else p.setState q .retrain
  else p
def execRetrainTimeout (p : Fin 16) (s : State) : Host.Outcome State Fault Refusal := onPkg (retrainTimeout p) s

/-- RETRAIN_COUNT_RESET (R288). -/
def retrainCountReset (q : Nat) (p : Pkg) : Pkg :=
  if (p.port q).state = .up && decide ((p.port q).since + 1050000 ≤ p.tb1) then
    p.updPort q fun x => { x with retrainFails := 0 }
  else p
def execRetrainCountReset (p : Fin 16) (s : State) : Host.Outcome State Fault Refusal := onPkg (retrainCountReset p) s

/-- A receiver asks for a change of its map. -/
def Pkg.askLane (p : Pkg) (q op lane : Nat) : Pkg :=
  p.updPort q fun x => { x with changes := x.changes ++ [{ op := op, lane := lane, block := 0, tx := false, granted := false }] }

/-- LANE_FAIL (R292): a receive lane has made `errs` symbol errors within a millisecond, or has lost lock. It fails beyond
SER_LIMIT; a third failed lane takes the port down. The spare is usable while no other lane is to take it. -/
def laneFail (q lane errs : Nat) (lost : Bool) (p : Pkg) : Pkg :=
  let f := p.failedLanes q false
  if 9 ≤ lane then p
  else
    let p := p.updPort q fun x => { x with laneErr := AMap.put x.laneErr lane errs }
    if hasLane f lane || !(lost || decide (p.fget F.issynLaneCfgSerLimit q < errs)) then p
    else
      let used := (p.laneMap q false).contains lane
      let p := p.setFailed q false (f + 2 ^ lane)
      if 3 ≤ popcount 9 (f + 2 ^ lane) then p.downLanes q
      else if used then
        let taken := (p.port q).changes.any fun c => !c.tx && decide (c.op = 1)
        p.askLane q (if (p.spareLane q false).isSome && !taken then 1 else 2) lane
      else
        p.updPort q fun x =>
          { x with changes := x.changes.map fun c => if !c.tx && !c.granted && decide (c.op = 1) then { c with op := 2 } else c }
def execLaneFail (p : Fin 16) (lane : LaneReport) (s : State) : Host.Outcome State Fault Refusal :=
  onPkg (laneFail p lane.lane lane.errors lane.lost) s

/-- The transmitter sends over 7 lanes (R293). -/
def Pkg.narrowTx (p : Pkg) (q : Nat) : Bool := (p.laneMap q true).contains 15
/-- Blocks the transmitter has sent since its alignment: 1,088/514 ns each on 8 lanes, 8/7 of that on 7 (R266). DESIGN
CHOICE (log entry 127): the count of R292 begins there. -/
def Pkg.txBlocks (p : Pkg) (q : Nat) : Nat :=
  (p.port q).blkBase + (p.bell.raw - (p.port q).blkAt) * 514 * (if p.narrowTx q then 7 else 8) / (1088 * 8 * 2 ^ 32)

/-- A lane change takes effect on the map of its direction; a spare that has failed since the grant is narrowed away
afterwards. -/
def Pkg.applyLane (p : Pkg) (q : Nat) (c : LaneChange) : Pkg :=
  let p := if c.tx then p.updPort q fun x => { x with blkBase := p.txBlocks q, blkAt := p.bell.raw } else p
  let m := p.laneMap q c.tx
  let f := p.failedLanes q c.tx
  if c.op = 3 then
    let p := p.setFailed q c.tx (if hasLane f c.lane then f - 2 ^ c.lane else f)
    let p := match findPos (fun x => x = 15) m with
      | some i => p.setLaneMap q c.tx (setAt m i c.lane)
      | none => p.fset F.issynStatusSpareUsed q 0
    p.issynEv q 0x0085 none
  else
    let p := if c.tx && !hasLane f c.lane then p.setFailed q true (f + 2 ^ c.lane) else p
    match findPos (fun x => x = c.lane) m with
    | none => p
    | some i =>
      if c.op = 1 then
        match p.spareLane q c.tx with
        | some l => ((p.setLaneMap q c.tx (setAt m i l)).fset F.issynStatusSpareUsed q 1).issynEv q 0x0083 none
        | none =>
          match (List.range 9).find? fun l => !m.contains l && l ≠ c.lane with
          | some l => (((p.setLaneMap q c.tx (setAt m i l)).fset F.issynStatusSpareUsed q 1).issynEv q 0x0083 none).askLane q 2 l
          | none => p
      else (p.setLaneMap q c.tx (setAt m i 15)).narrow q

/-- LANE_MAP_CHANGE (R292, R293): the block boundary of the oldest granted change. The transmitter's is the end of its own
block; the receiver's is the arrival of that boundary. -/
def laneMapChange (q : Nat) (p : Pkg) : Pkg :=
  match findPos (fun (c : LaneChange) => c.granted && (!c.tx || decide (c.block ≤ p.txBlocks q))) (p.port q).changes with
  | none => p
  | some i =>
    match (p.port q).changes[i]? with
    | some c => (p.updPort q fun x => { x with changes := dropAt x.changes i }).applyLane q c
    | none => p
def execLaneMapChange (p : Fin 16) (s : State) : Host.Outcome State Fault Refusal := onPkg (laneMapChange p) s

/-- LANE_RETRY (R293). -/
def laneRetry (q : Nat) (care : Bool) (p : Pkg) : Pkg :=
  if care then
    let ls (tx : Bool) : List Nat := (List.range 9).filter fun l => hasLane (p.failedLanes q tx) l
    let l := ls false ++ (ls true).map fun k => 16 + k
    (p.fset F.issynCtrlLaneRetry q (b2n !l.isEmpty)).updPort q fun x => { x with retest := l }
  else p
def execLaneRetry (p : Fin 16) (care : Bool) (s : State) : Host.Outcome State Fault Refusal := onPkg (laneRetry p care) s

/-- LANE_RETEST_DONE (R293): the receiver of a lane that passes asks for it. -/
def laneRetestDone (q : Nat) (tx : Bool) (lane : Nat) (ok : Bool) (p : Pkg) : Pkg :=
  let k := if tx then 16 + lane else lane
  if (p.port q).retest.contains k then
    let p := p.updPort q fun x =>
      { x with retest := x.retest.filter fun y => y ≠ k,
               changes := if ok && !tx then
                 x.changes ++ [{ op := 3, lane := lane, block := 0, tx := false, granted := false }] else x.changes }
    p.fset F.issynCtrlLaneRetry q (b2n !(p.port q).retest.isEmpty)
  else p
def execLaneRetestDone (p : Fin 16) (tx : Bool) (lane : Nat) (ok : Bool) (s : State) : Host.Outcome State Fault Refusal :=
  onPkg (laneRetestDone p tx lane ok) s

/-! Acknowledgement and replay (R280 to R283). -/

/-- Schedule a replay; at the limit the port retrains instead. -/
def Pkg.schedule (p : Pkg) (q seq : Nat) : Pkg :=
  match (p.port q).replay.find? fun r => decide (r.seq = seq) with
  | none => p
  | some r =>
    if r.pend then p
    else if max 1 (p.fget F.issynCtrlReplayLimit q) ≤ r.replays then p.retrain q
    else p.updPort q fun x =>
      { x with replay := x.replay.map fun y => if y.seq = seq then { y with pend := true } else y }

/-- The ACK that every control flit carries (R281). -/
def Pkg.takeAck (p : Pkg) (q : Nat) (b : List Byte) : Pkg :=
  let x := p.port q
  match x.replay with
  | [] => p
  | r :: _ =>
    let d := (flitAck b + 4096 - r.seq) % 4096
    if flitAckValid b && decide (d < x.replay.length) then p.updPort q fun x => { x with replay := x.replay.drop (d + 1) } else p

/-- A received control flit of a type, with a good CRC, in a state that hears it (R274, R283, R286); its ACK is
taken. None when the flit is not such a one or is dropped. -/
def Pkg.hears (p : Pkg) (q ct : Nat) : Bool :=
  decide (p.power.state < 2) &&
  match (p.port q).state with
  | .up => true
  | .train => ct = 4 || ct = 5
  | .identify => ct = 1
  | .retrain => ct = 1
  | _ => false
def Pkg.control (p : Pkg) (q ct : Nat) (b : List Byte) : Pkg × Bool :=
  if !p.hears q ct then (p, false)
  else if !flitGood b then (p.fadd F.issynErrCrcErr q 1, false)
  else if flitKind b ≠ 1 || flitCtype b ≠ ct then (p, false)
  else if (ct = 3 || ct = 6) && (p.fenced q || p.fon F.issynStatusForeign q ||
      decide (flitPart b ≠ p.fget F.issynPartPartId q)) then (p.fadd F.issynErrForeignDrop q 1, false)
  else (p.takeAck q b, true)

/-- ACK (R281, R283): the NAKs schedule replays. -/
def ackRx (q : Nat) (b : List Byte) (p : Pkg) : Pkg :=
  let r := p.control q 0 b
  if r.2 then
    let y := flitPayload b
    (List.range (min 32 (leAt y 0 1))).foldl (fun (p : Pkg) i => p.schedule q (leAt y (2 + 2 * i) 2 % 4096)) r.1
  else r.1
def execAck (p : Fin 16) (flit : List Byte) (s : State) : Host.Outcome State Fault Refusal := onPkg (ackRx p flit) s

/-- REPLAY_TIMEOUT (R281). -/
def replayTimeout (q : Nat) (p : Pkg) : Pkg :=
  let due := (p.port q).replay.filter fun r => decide (r.lastSent + p.loop q + 160 < p.tb1)
  due.foldl (fun (p : Pkg) r => p.schedule q r.seq) p
def execReplayTimeout (p : Fin 16) (s : State) : Host.Outcome State Fault Refusal := onPkg (replayTimeout p) s

/-- NAK_REPEAT (R283): a gap named so long ago is named again. -/
def nakRepeat (q : Nat) (p : Pkg) : Pkg :=
  let due := ((p.port q).gaps.filter fun g => decide (g.2 + p.loop q + 160 ≤ p.tb1)).map Prod.fst
  p.updPort q fun x => { x with nakDue := x.nakDue ++ due.filter fun o => !x.nakDue.contains o }
def execNakRepeat (p : Fin 16) (s : State) : Host.Outcome State Fault Refusal := onPkg (nakRepeat p) s

/-! Sending (R276 to R279). -/

/-- Put a flit on the wire. -/
def Pkg.putWire (p : Pkg) (q : Nat) (b : List Byte) : Pkg := p.updPort q fun x => { x with wire := (p.tb1, b) :: x.wire }

/-- A control flit with the present ACK (R273, R283). -/
def Pkg.ctlFlit (p : Pkg) (q ct paddr : Nat) (pay : List Byte) : List Byte :=
  let e := (p.port q).ordRx
  mkFlit (1 + ct * 4 + p.fget F.issynPartPartId q * 2 ^ 16 +
    (if e = 0 then 0 else (e - 1) % 4096 * 2 ^ 24 + 2 ^ 36) + paddr % 2 ^ 23 * 2 ^ 37) pay

/-- The IDENT payload (R274). -/
def Pkg.identPayload (p : Pkg) (q : Nat) : List Byte :=
  leBytes 2 p.phys ++ leBytes 1 q ++ leBytes 1 (p.fget F.issynPartPartId q) ++
  leBytes 4 (p.fget F.issynPartFence q + 2 * p.fget F.issynCtrlMedium q) ++
  leBytes 4 (Config.random (p.port q).nonce) ++ leBytes 4 (p.fget F.issynTimingTxCorr q) ++
  leBytes 4 (p.fget F.issynTimingRxCorr q) ++ leBytes 4 (p.fget F.issynLanemapTxMap q)

/-- The entry of ordinal J is ready (R277, R316). -/
def Pkg.entryReady (p : Pkg) (q : Nat) : Bool :=
  match (p.port q).stag.find? ((p.port q).ordTx % 1024) with
  | some e => e.hdrTag && (e.payTag || e.null) && decide (e.readyAt ≤ p.refCount)
  | none => false

/-- Send the entry of ordinal J as a new flit (R272, R280). -/
def Pkg.sendEntry (p : Pkg) (q : Nat) : Pkg :=
  let x := p.port q
  let e := x.stag.getD (x.ordTx % 1024) .init
  let hdr := (if e.null then 2 else 0) + x.nextSeq * 4 + e.vc % 4 * 2 ^ 14 + p.fget F.issynPartPartId q * 2 ^ 16 +
    e.dest % 2 ^ 14 * 2 ^ 24 + e.space % 2 * 2 ^ 38 + e.addr % 2 ^ 24 * 2 ^ 39 + b2n (e.poison && !e.null) * 2 ^ 63
  let b := mkFlit hdr (if e.null then [] else e.payload)
  let r : TxRec := { seq := x.nextSeq, bytes := b, lastSent := p.tb1, replays := 0, pend := false }
  (p.updPort q fun x =>
    { x with stag := AMap.erase x.stag (x.ordTx % 1024), ordTx := x.ordTx + 1, nextSeq := (x.nextSeq + 1) % 4096,
             replay := x.replay ++ [r] }).putWire q b

/-- Send the oldest pending replay (R282). -/
def Pkg.sendReplay (p : Pkg) (q : Nat) (r : TxRec) : Pkg :=
  let p := p.updPort q fun x =>
    { x with replay := x.replay.map fun y =>
        if y.seq = r.seq then { y with pend := false, replays := y.replays + 1, lastSent := p.tb1 } else y }
  ((p.putWire q r.bytes).fadd F.issynErrReplays q 1).perf .issyn q 0x701 1 none

/-- The lane request that repeats until it is granted, or a queued answer (R292). -/
def Pkg.lanePayload (p : Pkg) (q : Nat) : Option (List Byte) :=
  match (p.port q).pendLane with
  | m :: _ => some m
  | [] =>
    match (p.port q).changes.find? fun c => !c.tx && !c.granted with
    | some c => some (leBytes 1 c.op ++ leBytes 1 c.lane)
    | none => none

/-- An ACK flit names up to 32 gaps, which is their naming (R274, R283). -/
def Pkg.sendAck (p : Pkg) (q : Nat) : Pkg :=
  let n := (p.port q).nakDue.take 32
  let pay := leBytes 2 n.length ++ (n.map fun o => leBytes 2 (o % 4096)).flatten
  (p.updPort q fun x =>
    { x with nakDue := x.nakDue.drop 32, gaps := x.gaps.map fun g => if n.contains g.1 then (g.1, p.tb1) else g }).putWire q
    (p.ctlFlit q 0 0 pay)

/-- Rule 2.4 and 2.5 of R279. -/
def Pkg.sendControl (p : Pkg) (q : Nat) : Pkg :=
  let x := p.port q
  match p.lanePayload q with
  | some m => (p.updPort q fun x => { x with pendLane := x.pendLane.drop 1 }).putWire q (p.ctlFlit q 2 0 m)
  | none =>
    if x.pendIdent ≠ 0 then
      (p.updPort q fun x => { x with pendIdent := 0 }).putWire q (p.ctlFlit q 1 0 (p.identPayload q))
    else
      match x.pendMgmt with
      | m :: r =>
        if p.portOpen q then
          (p.updPort q fun x => { x with pendMgmt := r }).putWire q (p.ctlFlit q 6 (leAt m 0 3) (m.drop 3))
        else p.sendAck q
      | [] => p.sendAck q

/-- Rule 2 of R279: a free slot; `n` is its index. A Bell message carries the ratio in force as it leaves (R113). -/
def Pkg.freeSlot (p : Pkg) (q id n : Nat) : Pkg :=
  let x := p.port q
  match (if p.dataOpen q && x.replayRun < 3 then x.replay.find? fun r => r.pend else none) with
  | some r => (p.updPort q fun x => { x with replayRun := x.replayRun + 1 }).sendReplay q r
  | none =>
    let p := p.updPort q fun x => { x with replayRun := 0 }
    match (if n % 16 = 15 && p.portOpen q then x.pendBell else []) with
    | m :: r =>
      let m := setAt m 2 (BitVec.ofNat 8 p.ratio)
      let p := (p.updPort q fun x => { x with pendBell := r }).putWire q (p.ctlFlit q 3 0 m)
      p.bellSent q m
    | [] =>
      let tab := p.slotTable q
      if p.dataOpen q && !tab.isEmpty && decide (p.ordSlot tab x.ordTx < id) && p.entryReady q && x.replay.length < 1024 then
        (p.sendEntry q).perf .issyn q 0x702 1 none
      else p.sendControl q

/-- A PING, or a PONG with its turnaround in nominal ticks (R274, R287, R475). -/
def Pkg.nominal (p : Pkg) (d : Int) : Int := d * (p.npDen : Int) / (p.npNum : Int)
def Pkg.nomTx (p : Pkg) (q phase : Nat) : Int := p.nominal (p.reading false phase) + (p.fget F.issynTimingTxCorr q : Int)
def Pkg.nomRx (p : Pkg) (q phase : Nat) : Int := p.nominal (p.reading false phase) - (p.fget F.issynTimingRxCorr q : Int)
def Pkg.sendPing (p : Pkg) (q : Nat) (m : List Byte) : Pkg :=
  let num := leAt m 1 8
  if leAt m 0 1 = 0 then
    (p.updPort q fun x => { x with pings := AMap.put x.pings num (wrapNat 80 (p.nomTx q 0)) }).putWire q
      (p.ctlFlit q 4 0 (leBytes 8 num))
  else
    let t := wrapNat 64 (p.nomTx q 0 - (leAt m 9 10 : Int))
    p.putWire q (p.ctlFlit q 5 0 (leBytes 8 num ++ leBytes 8 t))

/-- A slot in units of 1/5140 nominal tick, and the block of its flit (R266). -/
def Pkg.slotUnits (p : Pkg) : Nat := 11565 * p.npDen / p.npNum
def Pkg.blockUnits (p : Pkg) (q : Nat) : Nat := if p.narrowTx q then 13056 else 11424
/-- How far into slot `id` the block of an earlier flit reaches (R293). -/
def Pkg.reach (p : Pkg) (q id : Nat) : Nat :=
  let x := p.port q
  if id + 1 < x.lastSlot then 0 else x.busy - (id + 1 - x.lastSlot) * p.slotUnits

/-- ISSYN_SLOT (R268, R279, R286): the flit of the slot in progress. On 7 lanes a block is longer than a slot: none begins in
a slot that an earlier one fills (R293). -/
def issynSlot (q : Nat) (p : Pkg) : Pkg :=
  match p.slotNow with
  | none => p
  | some (id, n) =>
    let x := p.port q
    if x.lastSlot = id + 1 || decide (2 ≤ p.power.state) then p
    else
      let rest := p.reach q id
      let full := decide (p.slotUnits ≤ rest)
      let p := p.updPort q fun x => { x with lastSlot := id + 1, busy := rest + (if full then 0 else p.blockUnits q) }
      if full then p
      else match x.state with
      | .train =>
        match x.pendPing with
        | m :: r => (p.updPort q fun x => { x with pendPing := r }).sendPing q m
        | [] => p
      | .identify => p.putWire q (p.ctlFlit q 1 0 (p.identPayload q))
      | .retrain => p.putWire q (p.ctlFlit q 1 0 (p.identPayload q))
      | .up =>
        if p.drive && (p.slotTable q).contains n then
          -- a pupil consumes its entry without sending it (R422)
          if p.entryReady q then
            p.updPort q fun x => { x with stag := AMap.erase x.stag (x.ordTx % 1024), ordTx := x.ordTx + 1 }
          else p
        else if (p.slotTable q).contains n && p.dataOpen q && p.entryReady q && x.replay.length < 1024 then
          (p.sendEntry q).perf .issyn q 0x700 1 none
        else p.freeSlot q id n
      | _ => p
def execIssynSlot (p : Fin 16) (s : State) : Host.Outcome State Fault Refusal := onPkg (issynSlot p) s

/-! Receiving (R283, R284). -/

/-- Advance E past every ordinal held in order; records wholly served behind E leave. -/
def advanceE : Nat → Port → Port
  | 0, x => x
  | k + 1, x =>
    if x.rx.any fun r => decide (r.ord = x.ordRx) then advanceE k { x with ordRx := x.ordRx + 1 } else x
def Port.settle (x : Port) : Port :=
  let x := advanceE (x.rx.length + 1) x
  let held := x.rx.map RxRec.ord
  { x with rx := x.rx.filter fun r => !(r.delivered && r.transit.isNone && decide (r.ord < x.ordRx)),
           gaps := x.gaps.filter fun g => !(decide (g.1 < x.ordRx) || held.contains g.1),
           nakDue := x.nakDue.filter fun o => !(decide (o < x.ordRx) || held.contains o) }

/-- Name the gaps not named yet. -/
def Port.nameGaps (x : Port) (t : Nat) : Port :=
  let top := (x.rx.map RxRec.ord).foldl max 0
  let new := ((List.range (top - x.ordRx)).map fun i => x.ordRx + i).filter fun o =>
    !(x.rx.any fun r => decide (r.ord = o)) && (x.gaps.find? o).isNone
  { x with gaps := new.foldl (fun m o => AMap.put m o t) x.gaps, nakDue := x.nakDue ++ new }

/-- The table of the partner's port in the loaded image (R284). -/
def Pkg.rxTable (p : Pkg) (q : Nat) : List Nat :=
  if p.fon F.issynPartnerValid q then p.slotTable (p.fget F.issynPartnerPort q) else []

/-- The receive buffer holds 1,024 flits. -/
def Port.rxHeld (x : Port) : Nat := (x.rx.filter fun r => !r.delivered || r.transit.isSome).length

/-- A DATA or NULL flit with a good CRC (R283). -/
def Pkg.dataRx (p : Pkg) (q : Nat) (b : List Byte) : Pkg :=
  let p := p.updPort q fun x => { x with lastData := some p.rawNs }
  if p.fenced q || p.fon F.issynStatusForeign q || decide (flitPart b ≠ p.fget F.issynPartPartId q) then
    p.fadd F.issynErrForeignDrop q 1
  else if p.fon F.issynStatusPartnerChanged q then p
  else
    let x := p.port q
    let d := (flitSeq b + 4096 - x.ordRx % 4096) % 4096
    if 2048 ≤ d then p
    else if 1024 ≤ d then p.fadd F.issynErrBadFlit q 1
    else if x.rx.any fun r => decide (r.ord = x.ordRx + d) then p
    else if 1024 ≤ x.rxHeld then (p.fadd F.issynErrRxFullDrop q 1).issynEv q 0x0089 none
    else
      let lost := (p.rxTable q).isEmpty
      let r : RxRec := { ord := x.ordRx + d, bytes := if lost then [] else b, arrived := p.refCount, unscheduled := lost,
                         transit := none, delivered := lost }
      let p := if lost then p.fadd F.issynErrBadFlit q 1 else p
      p.updPort q fun x => ((Port.settle { x with rx := x.rx ++ [r] })).nameGaps p.tb1

/-! Delivery and transit (R284, R315, R316). -/

/-- UNMAPPED_TARGET at a port (R284, R59). -/
def Pkg.portUnmapped (p : Pkg) (q : Nat) : Pkg := (p.issynEv q 0x0031 none).defect p.refCount 0x0031

/-- Wall time at which the transfer of the next flit into the mesh at port `q` ends, `h` ticks from now or, as the attachment
port takes one flit in a tick, a tick after the one before (R302). -/
def Pkg.inboundAt (p : Pkg) (q h : Nat) : Nat :=
  let r := portIn p.meshW q
  let here (m : MFlit) : Bool := decide (m.src = 292 + q) &&
    (match m.route with | (a, _) :: _ => decide (a = r.1 * p.meshW + r.2) | [] => false) && decide (m.side = if q < 8 then 4 else 3)
  (p.mesh.filter here).foldl (fun n m => max n (m.left + 352)) (352 * (p.refCount + h))

/-- A flit of memory traffic enters the mesh at port `q` for an attachment, on VC2 (R284, R300, R301). -/
def Pkg.portReq (p : Pkg) (q : Nat) (d : FlitDst) (rs : List DReq) : Pkg :=
  let r := portIn p.meshW q
  match d with
  | .mem side k =>
    let m := p.memFlit (292 + q) (r.1 * p.meshW + r.2) d (memAt p.meshW side k) (p.inboundAt q 8)
    p.addMem (p.fromHole { m with side := if q < 8 then 4 else 3, reqs := rs } m.left)
  | _ => p

/-- A DATA flit for this package's rank goes to its slab or stack; the plan has it leave the port in tick `due`. -/
def Pkg.deliverHere (p : Pkg) (q : Nat) (b : List Byte) (due : Nat) : Pkg :=
  let a := flitAddr b
  let d : Beat := { bytes := flitPayload b, poison := flitPoison b }
  if flitSpace b = 0 then
    let l := nbits a 23 16
    let i := nbits a 15 0
    if (p.physOf l).isNone || 40960 ≤ i then p.portUnmapped q
    else
      let at_ := (portIn p.meshW q).1 * p.meshW + (portIn p.meshW q).2
      let m : MFlit := { src := 292 + q, dst := .fen l, addr := 256 * i, data := d, len := 240, ep := 256, vc := flitVc b,
                         arr := due + hopFromPort p.meshW q l, tries := 0, hop := 292 + q, inj := due,
                         route := planRoute p.meshW at_ l l (due + 8), side := if q < 8 then 4 else 3,
                         left := p.inboundAt q 7, blocked := false }
      { p with mesh := p.mesh ++ [p.fromHole m m.left] }
  else
    let base := match p.job.cur with | some c => c.dramBase | none => 0
    let o := nbits a 23 21 * 2 ^ 36 + base + 256 * nbits a 20 0
    if !p.atomMapped 0 o true then p.portUnmapped q
    else
      let rs := (List.range 4).map fun k =>
        ({ fen := 288 + q, slu := 0, ent := 0, atom := k, cls := 0, addr := o + 64 * k, write := true,
           data := { d with bytes := sliceB d.bytes (64 * k) (if k = 3 then 48 else 64) }, held := false } : DReq)
      let dst (r : DReq) : FlitDst := p.attachOf 0 0 r.addr
      (rs.map dst).eraseDups.foldl (fun (p : Pkg) d => p.portReq q d (rs.filter fun r => decide (dst r = d))) p

/-- The ordinal of transit flit `m` from port `q` under a transit table. -/
def transitOrd (t : List Nat) (q m : Nat) : Option Nat :=
  let ks := ((List.range t.length).filter fun i => decide (t.getD i 0xFF = q))
  match ks[m % max 1 ks.length]? with
  | some i => some (m / max 1 ks.length * t.length + i)
  | none => none

/-- The flit of a transit between the edge dies crosses on VC0 along the row of its in-port (R316). -/
def Pkg.crossMesh (p : Pkg) (q ord tx : Nat) (b : List Byte) : Pkg :=
  let w := p.meshW
  let r := portIn w q
  let at_ := r.1 * w + r.2
  let far := r.1 * w + (w - 1 - r.2)
  let m : MFlit := { src := 292 + q, dst := .cross q ord, addr := 0, data := { bytes := flitPayload b, poison := flitPoison b },
                     len := 240, ep := 256, vc := 0, arr := p.refCount + tx, tries := 0, hop := 292 + q, inj := p.refCount,
                     route := planRoute w at_ far far (p.refCount + 8), side := if q < 8 then 4 else 3, left := p.inboundAt q 7,
                     blocked := false }
  { p with mesh := p.mesh ++ [p.fromHole m m.left] }

/-- Flit `r` begins its transit from `q` to `out`: it takes its number and its ordinal. -/
def Pkg.startTransit (p : Pkg) (q : Nat) (r : RxRec) (out : Nat) (null : Bool) : Pkg × Option Transit :=
  let t := match p.job.cur with | some c => c.tab.transit.getD out [] | none => []
  let m := (p.port out).transit.getD q 0
  let far := decide (q / 8 ≠ out / 8)
  let tx := if far then 2 * p.meshW + 24 else 4
  let p := if far then p.crossMesh q r.ord tx r.bytes else p
  match transitOrd t q m with
  | some o =>
    ((p.updPort out fun x => { x with transit := AMap.put x.transit q (m + 1) }).fadd F.fabStatTransit (out / 8) 1,
      some { out := out, ord := o, at_ := p.refCount + tx, null := null, crossing := far })
  | none => (p, some { out := out, ord := 2 ^ 64, at_ := 0, null := null, crossing := far })

/-- Place a waiting transit when its staging entry is free (R316). -/
def Pkg.placeTransit (q : Nat) (p : Pkg) (r : RxRec) : Pkg :=
  match r.transit with
  | none => p
  | some m =>
    let out := m.out
    let o := m.ord
    let x := p.port out
    if !m.crossing && o < x.ordTx + 1024 && (x.stag.find? (o % 1024)).isNone then
      let b := r.bytes
      let e : StagEnt :=
        { payTag := true, hdrTag := true, null := m.null, vc := flitVc b, dest := flitDest b, space := flitSpace b,
          addr := flitAddr b, poison := flitPoison b, payload := flitPayload b, readyAt := m.at_ }
      let p := p.updPort out fun x => { x with stag := AMap.put x.stag (o % 1024) e }
      p.updPort q fun x =>
        Port.settle { x with rx := x.rx.map fun y => if y.ord = r.ord then { y with transit := none } else y }
    else p
def Pkg.placeTransits (p : Pkg) (q : Nat) : Pkg := (p.port q).rx.foldl (Pkg.placeTransit q) p

/-- Tick in which an ordinal is due at this port (R284, R118). -/
def Pkg.dueTick (p : Pkg) (q x : Nat) : Nat :=
  let tab := p.rxTable q
  let ceil := match p.job.cur with
    | some c => if p.fon F.issynCtrlMedium q then c.img.ceilOpt else c.img.ceilCu
    | none => 0
  p.startTick + x / max 1 tab.length * p.stepTicks + 9 * tab.getD (x % max 1 tab.length) 0 / 4 + ceil

/-- A delivered flit acts by the rank table (R315). -/
def Pkg.deliver (p : Pkg) (q : Nat) (r : RxRec) : Pkg × Option Transit :=
  let b := r.bytes
  if flitKind b = 2 then (p, none)
  else
    let e := p.rank.getD (flitDest b) 0#64
    let out := bits e 6 3
    if bit e 1 then
      let p := p.deliverHere q b (p.dueTick q r.ord)
      if bit e 2 then p.startTransit q r out (p.dig.role ≠ 1) else (p, none)
    else if bit e 0 && out ≠ q && (p.port out).state ≠ .off then p.startTransit q r out false
    else ((p.portUnmapped q).fadd F.fabStatNoRoute (q / 8) 1, none)

/-- ISSYN_DELIVERY (R118, R284, R285, R316): the earliest flit that is due leaves the port. -/
def issynDelivery (q : Nat) (p : Pkg) : Pkg :=
  let p := p.placeTransits q
  let due := (p.port q).rx.filter fun r =>
    let t := p.dueTick q r.ord
    !r.delivered && decide (t ≤ p.refCount) && (decide (r.arrived ≤ t) || decide (r.arrived < p.refCount))
  match isort (fun a b => decide (RxRec.ord a ≤ RxRec.ord b)) due with
  | [] => p
  | r :: _ =>
    let p := if p.dueTick q r.ord < p.refCount then p.perf .issyn q 0x703 1 none else p
    let (p, t) := p.deliver q r
    let p := p.updPort q fun x =>
      Port.settle { x with rx := x.rx.map fun y => if y.ord = r.ord then { y with delivered := true, transit := t } else y }
    p.placeTransits q
def execIssynDelivery (p : Fin 16) (s : State) : Host.Outcome State Fault Refusal := onPkg (issynDelivery p) s

/-! Control flits of the port itself. -/

/-- PING (R287). -/
def pingRx (q : Nat) (b : List Byte) (phase : Nat) (p : Pkg) : Pkg :=
  let r := p.control q 4 b
  if r.2 then
    let m := 1#8 :: (leBytes 8 (leAt b 8 8) ++ leBytes 10 (wrapNat 80 (r.1.nomRx q phase)))
    r.1.updPort q fun x => { x with pendPing := m :: x.pendPing }
  else r.1
def execPing (p : Fin 16) (flit : List Byte) (phase : Nat) (s : State) : Host.Outcome State Fault Refusal :=
  onPkg (pingRx p flit phase) s

/-- PONG (R287): one pair gives one path measurement. -/
def pongRx (q : Nat) (b : List Byte) (phase : Nat) (p : Pkg) : Pkg :=
  let r := p.control q 5 b
  let p := r.1
  match (if r.2 then (p.port q).pings.find? (leAt b 8 8) else none) with
  | some a =>
    let e := p.nomRx q phase
    let m := ((e - (a : Int)) - sx 64 (leAt b 16 8)) / 2
    p.updPort q fun x => { x with pings := AMap.erase x.pings (leAt b 8 8), paths := x.paths ++ [m] }
  | none => p
def execPong (p : Fin 16) (flit : List Byte) (phase : Nat) (s : State) : Host.Outcome State Fault Refusal :=
  onPkg (pongRx p flit phase) s

def Ident.parse (y : List Byte) : Ident :=
  { phys := leAt y 0 2 % 2 ^ 14, port := leAt y 2 1, part := leAt y 3 1, fence := bit (BitVec.ofNat 8 (leAt y 4 1)) 0,
    nonce := leAt y 8 4, txCorr := leAt y 12 4, rxCorr := leAt y 16 4 }
def Ident.same (a b : Ident) : Bool :=
  decide (a.phys = b.phys) && decide (a.port = b.port) && decide (a.nonce = b.nonce) && decide (a.part = b.part)

/-- What full training measured (R117, R287); true: LOOP_LONG. -/
def Pkg.measured (p : Pkg) (q : Nat) (i : Ident) : Pkg × Bool :=
  let path := median (p.port q).paths
  let own := (p.fget F.issynTimingTxCorr q : Int) + (p.fget F.issynTimingRxCorr q : Int)
  let ceil (v : Int) : Nat := ((v + 65535) / 65536).toNat
  let lat := ceil (path + (i.txCorr : Int) + (p.fget F.issynTimingRxCorr q : Int)) + 12
  let loop := ceil (2 * path + own + (i.txCorr : Int) + (i.rxCorr : Int))
  let p := p.updPort q fun x => { x with paths := [] }
  let p := p.fset F.issynLatencyPath q (wrapNat 32 path)
  let p := (p.fset F.issynLatencyLatTicks q (min 65535 lat)).fset F.issynLatencyLoopTicks q (min 65535 loop)
  if 2150 < loop then ((p.issynEv q 0x008B (some 8)).goDown q 2, true)
  else
    let above := match p.job.cur with
      | some c => p.planRuns && decide ((if p.fon F.issynCtrlMedium q then c.img.ceilOpt else c.img.ceilCu) < lat)
      | none => false
    (if above then p.issynEv q 0x0088 none else p, false)

/-- Record the partner (R290, R296). -/
def Pkg.recordPartner (p : Pkg) (q : Nat) (i : Ident) : Pkg :=
  let p := p.updPort q fun x => { x with partner := some i, lastIdent := some i }
  let p := p.fset F.issynPartnerAddr q i.phys
  let p := p.fset F.issynPartnerPort q i.port
  let p := p.fset F.issynPartnerPartId q i.part
  (p.fset F.issynPartnerNonce q i.nonce).fset F.issynPartnerValid q 1

/-- FOREIGN judged at a received IDENT (R290, R320); an IDENT answers when it changes. -/
def Pkg.judgeForeign (p : Pkg) (q : Nat) (i : Ident) : Pkg :=
  let f := decide (i.part ≠ p.fget F.issynPartPartId q) || i.fence || p.fon F.issynPartFence q
  if f = p.fon F.issynStatusForeign q then p
  else
    let p := (p.fset F.issynStatusForeign q (b2n f)).updPort q fun x => { x with pendIdent := 1 }
    if f then p.issynEv q 0x0087 (some 10) else p

/-- IDENT (R287, R290); one past the 200 µs of a fast retrain finds the attempt failed (R288). -/
def identRx (q : Nat) (b : List Byte) (p : Pkg) : Pkg :=
  let r := p.control q 1 b
  if !r.2 then r.1
  else if (p.port q).state = .retrain && decide ((p.port q).sinceNs + 200000 < p.rawNs) then retrainTimeout q r.1
  else
    let p := r.1
    let y := flitPayload b
    let i := Ident.parse y
    if (p.port q).state = .up then (p.recordPartner q i).judgeForeign q i
    else
      let (p, long) := if (p.port q).paths.isEmpty then (p, false) else p.measured q i
      if long then p
      else
        let p := p.fset F.issynLanemapRxMap q (leAt y 20 4)
        let x := p.port q
        let same := match x.partner with | some o => i.same o | none => false
        let p := (p.goUp q).recordPartner q i
        let p := if same || x.isEmpty then p
          else (p.fset F.issynStatusPartnerChanged q 1).issynEv q 0x0086 (some 10)
        p.judgeForeign q i
def execIdent (p : Fin 16) (flit : List Byte) (s : State) : Host.Outcome State Fault Refusal := onPkg (identRx p flit) s

/-- LANE (R292): requests are granted or refused, grants start their change. -/
def laneRx (q : Nat) (b : List Byte) (p : Pkg) : Pkg :=
  let r := p.control q 2 b
  if !r.2 then r.1
  else
    let p := r.1
    let y := flitPayload b
    let op := leAt y 0 1
    let lane := leAt y 1 1
    let answer (p : Pkg) (m : List Byte) : Pkg := p.updPort q fun x => { x with pendLane := x.pendLane ++ [m] }
    let grant (c : LaneChange) : List Byte := padTo 8 (leBytes 1 4 ++ leBytes 1 c.lane) ++ leBytes 8 c.block
    if op = 1 || op = 2 || op = 3 then
      match (p.port q).changes.find? fun c => c.tx with
      | some c => if c.op = op && c.lane = lane then answer p (grant c) else answer p (leBytes 1 5 ++ leBytes 1 lane)
      | none =>
        let c : LaneChange :=
          { op := op, lane := lane, block := (p.txBlocks q + 256) % 2 ^ 64, tx := true, granted := true }
        answer (p.updPort q fun x => { x with changes := x.changes ++ [c] }) (grant c)
    else if op = 4 then
      p.updPort q fun x =>
        { x with changes := x.changes.map fun c =>
            if !c.tx && !c.granted && c.lane = lane then { c with granted := true, block := leAt y 8 8 } else c }
    else p
def execLane (p : Fin 16) (flit : List Byte) (s : State) : Host.Outcome State Fault Refusal := onPkg (laneRx p flit) s

/-! Bell messages (R100 to R103). -/

/-- A received Bell flit of one type acts on the exchange; a foreign one is dropped and voids it, and so does one of no
known type, whichever command brings it (R100, R101). -/
def Pkg.bellFlit (p : Pkg) (q ty : Nat) (b : List Byte) (phase : Nat) : Pkg :=
  let m := flitPayload b
  if leAt m 0 1 ≠ ty && decide (1 ≤ leAt m 0 1) && decide (leAt m 0 1 ≤ 4) then p
  else
    let r := p.control q 3 b
    if r.2 then r.1.bellRx q m phase else r.1.bellBad q m
def execSync (p : Fin 16) (flit : List Byte) (phase : Nat) (s : State) : Host.Outcome State Fault Refusal :=
  onPkg (fun k => k.bellFlit p 1 flit phase) s
def execFollowUp (p : Fin 16) (flit : List Byte) (s : State) : Host.Outcome State Fault Refusal :=
  onPkg (fun k => k.bellFlit p 2 flit 0) s
def execDelayReq (p : Fin 16) (flit : List Byte) (phase : Nat) (s : State) : Host.Outcome State Fault Refusal :=
  onPkg (fun k => k.bellFlit p 3 flit phase) s
def execDelayResp (p : Fin 16) (flit : List Byte) (s : State) : Host.Outcome State Fault Refusal :=
  onPkg (fun k => k.bellFlit p 4 flit 0) s

/-! Management flits addressed here (R273, R275). -/

/-- Physical address of a PADDR, as rack, board and position. -/
def paddrPhys (a : Nat) : Nat := nbits a 22 9
/-- A MGMT flit names this package. -/
def Pkg.mgmtHere (p : Pkg) (b : List Byte) : Bool := decide (paddrPhys (flitPaddr b) = p.phys)

/-! Partitions (R319 to R321). -/

def Pkg.identDue (p : Pkg) (q : Nat) : Pkg := p.updPort q fun x => { x with pendIdent := 1 }

/-- A write of ISSYN.PART (R319, R320); true: rejected. -/
def Pkg.partWrite (p : Pkg) (q part : Nat) (fence : Bool) : Pkg × Bool :=
  let change := decide (part % 256 ≠ p.fget F.issynPartPartId q)
  if change && !(p.fon F.issynPartFence q && (p.port q).isEmpty) then (p.issynEv q 0x0092 (some 12), true)
  else
    let flip := decide (fence ≠ p.fon F.issynPartFence q)
    let p := (p.fset F.issynPartPartId q part).fset F.issynPartFence q (b2n fence)
    let p := if flip && fence then p.updPort q fun x => { x with fenceFrom := p.nextSlot } else p
    (if change || flip then p.identDue q else p, false)

/-- FENCE_SET (R319), PART_ID_WRITE and FENCE_CLEAR (R320): the Caretaker alone. -/
def execFenceSet (p : Fin 16) (care : Bool) (s : State) : Host.Outcome State Fault Refusal :=
  onPkg (fun k => if care then (k.partWrite p (k.fget F.issynPartPartId p) true).1 else k) s
def execPartIdWrite (p : Fin 16) (care : Bool) (v : Nat) (s : State) : Host.Outcome State Fault Refusal :=
  onPkg (fun k => if care then (k.partWrite p v (k.fon F.issynPartFence p)).1 else k) s
def execFenceClear (p : Fin 16) (care : Bool) (s : State) : Host.Outcome State Fault Refusal :=
  onPkg (fun k => if care then (k.partWrite p (k.fget F.issynPartPartId p) false).1 else k) s

/-! Management flits (R275, R318). -/

/-- Torus coordinates of a physical address (R308). -/
def torusX (ph : Nat) : Nat := 4 * (nbits ph 2 2) + nbits ph 1 0
def torusY (ph : Nat) : Nat := nbits ph 5 3
/-- Next port toward a package of this rack; none for this package or another rack. -/
def Pkg.mgmtHop (p : Pkg) (ph : Nat) : Option Nat :=
  if ph = p.phys || ph / 64 ≠ p.phys / 64 then none
  else
    let dx := (torusX ph + 8 - torusX p.phys) % 8
    let dy := (torusY ph + 8 - torusY p.phys) % 8
    if dx ≠ 0 then some (if dx ≤ 4 then 8 else 0) else some (if dy ≤ 4 then 10 else 2)
/-- Queue a MGMT payload at a port. -/
def Pkg.queueMgmt (p : Pkg) (q paddr : Nat) (pay : List Byte) : Pkg :=
  p.updPort q fun x => { x with pendMgmt := x.pendMgmt ++ [leBytes 3 paddr ++ pay] }
/-- A MGMT payload sent to a physical address, die 0 and fen 0 (R273). -/
def Pkg.sendMgmt (p : Pkg) (ph : Nat) (pay : List Byte) : Pkg :=
  match p.mgmtHop ph with
  | some q => p.queueMgmt q (ph * 2 ^ 9) pay
  | none => p
/-- A MGMT flit for another package: forwarded, or dropped (R318). -/
def Pkg.forwardMgmt (p : Pkg) (q paddr : Nat) (pay : List Byte) : Pkg :=
  match p.mgmtHop (paddrPhys paddr) with
  | some o => p.queueMgmt o paddr pay
  | none => (p.fadd F.fabStatMgmtDrop (q / 8) 1).log1 .fab (q / 8) 0x0094 0 none

end Sys2Proof.Machine
end

