-- ==== Sys2Proof/Machine/DigestLog.lean ====
section
/-! DEFINITION. The digest log: records, STEP records, trace, the comparison of a pupil with its tutor (R411 to R414,
R420, R421 to R424). -/
namespace Sys2Proof.Machine

open Sys2Proof

/-- The plan started last is a replay (R417). -/
def Pkg.replaying (p : Pkg) : Bool := match p.job.cur with | some c => c.replay.isSome | none => false

/-- Offset of the log ring in stack 0 (R413) and of the trace ring (R420). -/
def logBase : Nat := 0xBE8000000
def traceBase : Nat := 0xBEC000000

/-- Write one record at the head of the ring (R413, R414). -/
def Pkg.dlogRec (p : Pkg) (ty flags cause points step : Nat) (body : List Byte) : Pkg :=
  let h := p.fget F.dlogHeadIndex 0
  let fl := flags + 8 * b2n p.replaying
  let b := leBytes 1 ty ++ leBytes 1 fl ++ leBytes 2 cause ++ leBytes 4 points ++ leBytes 8 (step % 2 ^ 48) ++ padTo 48 body
  let p := p.memWrite 0 (logBase + 64 * h) b
  let p := p.fset F.dlogHeadIndex 0 ((h + 1) % 2 ^ 20)
  if h + 1 = 2 ^ 20 then p.fadd F.dlogHeadWraps 0 1 else p

/-- DIGEST_POINT_DROP (R409): at the end of its step by the fen's local tick, a point with an untaken beat. -/
def digestPointDrop (i : Nat) (p : Pkg) : Pkg :=
  match p.dig.open_[i]? with
  | none => p
  | some o =>
    match (p.points.map DPoint.parse)[o.idx]? with
    | none => p
    | some d =>
      let t := match p.physOf d.fen with | some f => p.local_ f | none => p.refCount
      if t < p.stepEnd o.step || o.due.isSome then p
      else
        let p := p.updDig fun g => { g with open_ := dropAt g.open_ i }
        let p := p.updStep o.step fun s => { s with incomplete := true }
        (p.fadd F.dlogStatIncomplete 0 1).dlog 0x00C0 0 none
def execDigestPointDrop (i : Nat) (s : State) : Host.Outcome State Fault Refusal := onPkg (digestPointDrop i) s

/-- Slots whose bit is set in a die's MASK beat: ACTIVE at byte 0, NEW at byte 128 (R411). -/
def maskSlots (b : List Byte) (off : Nat) : List Nat :=
  (List.range 1024).filter fun s => bit (b.getD (off + s / 8) 0#8) (s % 8)

/-- Digest of a slot over the dies whose MASK shows it ACTIVE. -/
def DigStep.slotSum (s : DigStep) (n : Nat) : Nat :=
  ((List.range 4).foldl (fun a d =>
    match s.mask.find? d with
    | some m => if bit (m.getD (n / 8) 0#8) (n % 8) then a + s.slotted.getD (d * 1024 + n) 0 else a
    | none => a) 0) % 2 ^ 128
def DigStep.plainSum (s : DigStep) : Nat := (s.plain.foldl (fun a x => a + x.2) 0) % 2 ^ 128
/-- ACTIVE and NEW slots of the step, on any die. -/
def DigStep.bitsAt (s : DigStep) (off : Nat) : List Nat :=
  (List.range 1024).filter fun n => s.mask.any fun m => bit (m.2.getD (off + n / 8) 0#8) (n % 8)
/-- The package digest (R411, R412). -/
def DigStep.digest (s : DigStep) : Nat :=
  (s.plainSum + ((s.bitsAt 0).foldl (fun a n => a + s.slotSum n) 0)) % 2 ^ 128
/-- A die with slotted terms and no MASK beat. -/
def DigStep.noMask (s : DigStep) : Bool := s.hasSlotted.any fun d => (s.mask.find? d).isNone

/-- Trace records of a step (R420). -/
def Pkg.traceRec (p : Pkg) (t : Nat × Nat) : Pkg :=
  match (p.points.map DPoint.parse)[t.1]? with
  | none => p
  | some d =>
    if 65536 ≤ p.dig.traceUsed then p.fadd F.dlogStatTraceDrop 0 1
    else
      let b := leBytes 4 t.1 ++ leBytes 1 d.fen ++ leBytes 1 d.kind ++ leBytes 2 0 ++ leBytes 16 t.2 ++ leBytes 8 0
      (p.memWrite 0 (traceBase + 32 * p.dig.traceUsed) b).updDig fun g => { g with traceUsed := g.traceUsed + 1 }

/-! Tutor and pupil. -/

def StepDig.init : StepDig :=
  { plain := 0, slots := [], ok := true, rec_ := 0, valid := [], got := [], total := none }

/-- The SDIG flits of a step on the tutor's copy port (R423). -/
def Pkg.sendSdig (p : Pkg) (k : Nat) (s : DigStep) : Pkg :=
  let es := (s.bitsAt 0).map fun n => leBytes 2 n ++ leBytes 16 (s.slotSum n)
  let gs := if es.isEmpty then [[]] else chunksOf 11 es
  let n := gs.length
  gs.zipIdx.foldl (fun (p : Pkg) x =>
    let (g, i) := x
    let pay := [0x50#8] ++ leBytes 1 (g.length + (if i + 1 = n then 128 else 0)) ++ leBytes 2 i ++ leBytes 4 0 ++
      leBytes 8 k ++ leBytes 16 s.plainSum ++ g.flatten
    p.queueMgmt p.dig.port (p.fget F.issynPartnerAddr p.dig.port * 2 ^ 9) pay) p

def Pkg.cleanReset (p : Pkg) : Pkg := p.fset F.dlogShadowCntClean 0 0

/-- Compare a step once both sides are known (R424). -/
def Pkg.compareStep (p : Pkg) (k : Nat) : Pkg :=
  match p.dig.own.find? k, p.dig.tutor.find? k with
  | some o, some t =>
    if !t.ok then p
    else
      let p := p.updDig fun g => { g with own := AMap.erase g.own k, tutor := AMap.erase g.tutor k }
      let same := decide (o.plain = t.plain) &&
        o.valid.all fun n => decide ((o.slots.find? fun x => decide (x.1 = n)) = (t.slots.find? fun x => decide (x.1 = n)))
      if !same then
        let a := logBase + 64 * o.rec_ + 1
        let (p, bs) := p.memGet 0 a 1
        let f := bs.getD 0 0#8
        let p := p.memWrite 0 a [f ||| 16#8]
        ((p.dlog 0x00C1 0 (some 8)).fadd F.dlogShadowCntMismatch 0 1).cleanReset
      else if o.ok && t.slots.all fun x => o.valid.contains x.1 then
        let p := p.fadd F.dlogShadowCntClean 0 1
        if max 1 (p.fget F.dlogShadowCfgCleanTarget 0) ≤ p.fget F.dlogShadowCntClean 0 && !p.fon F.dlogShadowPromotable 0 then
          (p.fset F.dlogShadowPromotable 0 1).dlog 0x00C3 0 none
        else p
      else p.cleanReset
  | _, _ => p

/-- Slots valid on a pupil after a step (R424). -/
def validAfter (old : List Nat) (s : DigStep) : List Nat :=
  let act := s.bitsAt 0
  let new := s.bitsAt 128
  (List.range 1024).filter fun n => act.contains n && (old.contains n || new.contains n)

/-- The STEP record of a step whose points are all closed or dropped (R411, R414). -/
def Pkg.stepRecord (p : Pkg) (k : Nat) (s : DigStep) : Pkg :=
  let inc := s.incomplete || s.noMask
  let p := if p.fon F.dlogTraceArmed 0 && decide (p.fget F.dlogTraceStep 0 = k) then
      (s.traces.foldl Pkg.traceRec p).fset F.dlogTraceArmed 0 0
    else p
  let h := p.fget F.dlogHeadIndex 0
  let fl := b2n s.defect.isSome + 2 * b2n inc + 4 * b2n s.poison
  let p := p.dlogRec 1 fl (s.defect.getD 0) s.points k
    (leBytes 16 s.digest ++ leBytes 8 (p.stepStart k) ++ leBytes 8 p.tb0)
  let p := p.fadd F.dlogStatDefective 0 (b2n s.defect.isSome)
  let p := p.updDig fun g => { g with steps := AMap.erase g.steps k }
  if p.dig.role = 1 then p.sendSdig k s
  else if p.dig.role = 2 && p.drive then
    let v := validAfter p.dig.valid s
    let o : StepDig :=
      { plain := s.plainSum, slots := (s.bitsAt 0).map fun n => (n, s.slotSum n), ok := s.defect.isNone, rec_ := h,
        valid := v, got := [], total := none }
    (p.updDig fun g => { g with valid := v, own := AMap.put g.own k o }).compareStep k
  else p

/-- DIGEST_STEP_RECORD (R414): the oldest step that has ended with no point open. -/
def digestStepRecord (p : Pkg) : Pkg :=
  match p.dig.steps with
  | [] => p
  | (k, s) :: _ =>
    if (p.dig.open_.any fun o => decide (o.step = k)) || (p.planRuns && decide (p.refCount < p.stepEnd k)) then p
    else p.stepRecord k s
def execDigestStepRecord (s : State) : Host.Outcome State Fault Refusal := onPkg digestStepRecord s

/-- SDIG (R423, R424). -/
def sdig (q : Nat) (b : List Byte) (p : Pkg) : Pkg :=
  let r := p.control q 6 b
  let y := flitPayload b
  if !p.mgmtHere b then p
  else if !r.2 || leAt y 0 1 ≠ 0x50 || r.1.dig.role ≠ 2 || r.1.dig.port ≠ q then r.1
  else
    let p := r.1
    let k := leAt y 8 8
    let i := leAt y 2 2
    let n := min 11 (leAt y 1 1 % 16)
    let last := decide (leAt y 1 1 / 128 = 1)
    let t := p.dig.tutor.getD k { StepDig.init with ok := false }
    if t.got.contains i then p
    else
      let es := (List.range n).map fun j => (leAt y (32 + 18 * j) 2, leAt y (34 + 18 * j) 16)
      let t := { t with plain := leAt y 16 16, slots := t.slots ++ es, got := i :: t.got,
                        total := if last then some (i + 1) else t.total }
      let t := { t with ok := decide (t.total = some t.got.length) }
      (p.updDig fun g => { g with tutor := AMap.put g.tutor k t }).compareStep k
def execSdig (p : Fin 16) (flit : List Byte) (s : State) : Host.Outcome State Fault Refusal := onPkg (sdig p flit) s

/-- SHADOW_LATE logged (R424). -/
def Pkg.shadowLate (p : Pkg) : Pkg := ((p.dlog 0x00C2 0 (some 9)).fadd F.dlogShadowCntLate 0 1).cleanReset

/-- SHADOW_LATE (R424): a step of the pupil whose SDIG is not complete by the end of the step after next. -/
def shadowLate (p : Pkg) : Pkg :=
  if p.dig.role ≠ 2 then p
  else
    match List.find? (fun x => decide (p.stepEnd (x.1 + 2) ≤ p.refCount)) p.dig.own with
    | some (k, _) => (p.updDig fun g => { g with own := AMap.erase g.own k, tutor := AMap.erase g.tutor k }).shadowLate
    | none => p
def execShadowLate (s : State) : Host.Outcome State Fault Refusal := onPkg shadowLate s

/-- SROLL (R423, R424): one script entry from the tutor; one for a boundary that has passed is late. -/
def sroll (q : Nat) (b : List Byte) (p : Pkg) : Pkg :=
  let r := p.control q 6 b
  let y := flitPayload b
  if !p.mgmtHere b then p
  else if !r.2 || leAt y 0 1 ≠ 0x51 || r.1.dig.role ≠ 2 || r.1.dig.port ≠ q then r.1
  else
    let p := r.1
    let e := sliceB y 8 160
    if p.drive && decide (leAt e 0 8 < p.roll.lastStep) then (p.shadowLate).fset F.dlogShadowBroken 0 1
    else { p with roll := { p.roll with script := p.roll.script ++ [e] } }
def execSroll (p : Fin 16) (flit : List Byte) (s : State) : Host.Outcome State Fault Refusal := onPkg (sroll p flit) s

end Sys2Proof.Machine
end

