-- ==== Sys2Proof/Machine/Weights.lean ====
section
/-! DEFINITION. The weights unit: sets and manifests, chunk chain, hash check, the weight pointer table and its switch
(R375 to R399). -/
namespace Sys2Proof.Machine

open Sys2Proof

/-! Manifests (R376, R377). -/

def WSet.shards (w : WSet) : Nat := leAt w.manifest 8 4
/-- A field of shard entry `i`. -/
def WSet.sh (w : WSet) (i off n : Nat) : Nat := leAt w.manifest (128 + 96 * i + off) n
def WSet.chunks (w : WSet) (i : Nat) : Nat := w.sh i 0x0C 4
def WSet.tier (w : WSet) (i : Nat) : Nat := w.sh i 6 1
def WSet.keeps (w : WSet) (i : Nat) : Bool := decide (w.sh i 4 2 = 0xFFFF) || decide (w.sh i 4 2 = w.wrank)
def mib : Nat := 1048576
/-- LEN of a chunk (R378). -/
def WSet.chunkLen (w : WSet) (i c : Nat) : Nat := min mib (w.sh i 0x10 8 - mib * c)
/-- UP or DOWN that is HOST or NONE. -/
def noPeer : Nat := 0xFFFF
/-- Shards whose chunks the package expects (R389). -/
def WSet.expected (w : WSet) : List Nat :=
  (List.range w.shards).filter fun i => w.keeps i || decide (w.down ≠ noPeer)
/-- Package address of a shard (R387, R393). -/
def WSet.addr (w : WSet) (i : Nat) : Nat :=
  let o := w.sh i 0x18 8
  if w.tier i = 2 then 2 ^ 63 + w.peatDest + o else nbits o 38 36 * 2 ^ 36 + w.dramDest + nbits o 35 0
def chunkKey (s c : Nat) : Nat := s * 2 ^ 32 + c

def Pkg.wset (p : Pkg) (n : Nat) : WSet := p.wgt.sets.getD n .init
def Pkg.updWset (p : Pkg) (n : Nat) (g : WSet → WSet) : Pkg :=
  { p with wgt := { p.wgt with sets := AMap.set WSet.init p.wgt.sets n (g (p.wset n)) } }
def Pkg.wlog (p : Pkg) (code : Nat) (k : Option Nat) : Pkg := p.log1 .wgt 0 code 0 k

/-- LOAD_WEIGHTS of the set is still in progress, so the set takes chunks (R385, R391). -/
def Pkg.taking (p : Pkg) (n : Nat) : Bool :=
  let w := p.wset n
  (decide (w.state = 1) || decide (w.state = 2)) && (p.runningNo w.cmd).isSome
def Pkg.setOfLoad (p : Pkg) (id : Nat) (host : Bool) : Option Nat :=
  (List.range 4).find? fun n =>
    p.taking n && decide ((p.wset n).loadId = id) && (!host || decide ((p.wset n).up = noPeer))

/-! Use of sets (R375). -/

/-- An active WPT entry points into the set's regions. -/
def Pkg.wptNames (p : Pkg) (w : WSet) : Bool :=
  (if p.wgt.side = 0 then p.wgt.sideA else p.wgt.sideB).any fun e =>
    let a := bits e.2 43 0
    if bit e.2 63 then decide (w.peatDest ≤ a) && decide (a < w.peatDest + leAt w.manifest 0x18 8)
    else decide (w.dramDest ≤ nbits a 35 0) && decide (nbits a 35 0 < w.dramDest + leAt w.manifest 0x10 8)
def WSet.hasSlab (w : WSet) : Bool := (List.range w.shards).any fun i => decide (w.tier i = 0) && w.keeps i
def Pkg.setUsed (p : Pkg) (n : Nat) : Bool :=
  let w := p.wset n
  (p.planRuns && p.wptNames w) ||
  (p.planRuns && w.hasSlab && (match p.job.cur with | some c => decide (c.wset = some n) | none => false)) ||
  (match p.job.next with | some c => decide (c.wset = some n) | none => false) ||
  (match p.wgt.pending with | some x => decide (x.1 = n) | none => false)
/-- IN_USE while a use holds, VERIFIED when the last one ends. -/
def Pkg.refreshSets (p : Pkg) : Pkg :=
  (List.range 4).foldl (fun (p : Pkg) n =>
    let st := (p.wset n).state
    if st = 2 || st = 4 then p.updWset n fun w => { w with state := if p.setUsed n then 4 else 2 } else p) p

/-! Sending down the chain (R383, R384). -/

def wackPayload (kind id s c : Nat) : List Byte :=
  [0x41#8] ++ leBytes 1 kind ++ leBytes 2 0 ++ leBytes 4 id ++ leBytes 4 s ++ leBytes 4 c
/-- The flits of a chunk image. -/
def wchunkFlits (id s c : Nat) (img : List Byte) : List (List Byte) :=
  (chunksOf 224 img).zipIdx.map fun x =>
    [0x40#8, 0#8] ++ leBytes 2 x.2 ++ leBytes 4 id ++ leBytes 4 s ++ leBytes 4 c ++ padTo 224 x.1

/-- Acknowledgement to the upstream package, or to a host frame (R386, R390). -/
def Pkg.ackUp (p : Pkg) (n kind s c : Nat) (frame : Option Nat) : Pkg :=
  let w := p.wset n
  if w.up = noPeer then
    match frame with
    | some f =>
      if kind ≤ 2 then
        { p with wgt := { p.wgt with frames := p.wgt.frames.write (f * 0x101000 + 4) (leBytes 4 kind) } }
      else p
    | none => p
  else p.sendMgmt w.up (wackPayload kind w.loadId s c)

/-- Send one chunk to DOWN. -/
def Pkg.sendChunk (p : Pkg) (n k : Nat) (o : ChunkOut) : Pkg :=
  let w := p.wset n
  let img := w.store.getD (chunkKey o.shard o.chunk) []
  let p := (wchunkFlits w.loadId o.shard o.chunk img).foldl (fun (p : Pkg) f => p.sendMgmt w.down f) p
  let p := p.fadd F.wgtErrResends 0 (b2n o.resend)
  p.updWset n fun w => { w with out := setAt w.out k { o with sends := o.sends + 1, sentAt := p.rawNs, resend := false } }
/-- The next thing to send: a pending re-send, or a new chunk. Fewer than 16 chunks may lack their CHUNK_ACK, which a
chunk that a SHARD_FAIL sends again lacks anew. -/
def Pkg.pumpOne (n : Nat) (p : Pkg) : Pkg :=
  let out := (p.wset n).out
  let full := decide (16 ≤ (out.filter fun o => decide (o.sends ≠ 0) && !o.acked && !o.abandoned).length)
  match findPos (fun (o : ChunkOut) => o.resend && !o.abandoned && !o.acked && !(full && decide (o.sends = 0))) out with
  | some k =>
    match out[k]? with
    | some o =>
      if 8 ≤ o.sends then
        (p.updWset n fun w => { w with out := setAt w.out k { o with abandoned := true, resend := false } }).wlog 0x00B9 (some 9)
      else p.sendChunk n k o
    | none => p
  | none =>
    if full then p
    else
      match findPos (fun (o : ChunkOut) => decide (o.sends = 0)) out with
      | some k => match out[k]? with | some o => p.sendChunk n k o | none => p
      | none => p
def Pkg.pump (p : Pkg) (n : Nat) : Pkg := (List.range ((p.wset n).out.length + 1)).foldl (fun p _ => Pkg.pumpOne n p) p

/-! Completion of a load (R391). -/

def Pkg.settleSet (p : Pkg) (n : Nat) : Pkg :=
  let w := p.wset n
  let kept := (List.range w.shards).filter w.keeps
  let p := if w.state = 1 && kept.all fun i => w.checked.contains i then
      (p.updWset n fun w => { w with state := 2 }).wlog 0x00B4 none
    else p
  let fwd := decide (w.down = noPeer) || (List.range w.shards).all fun i => w.acked.contains i
  let p := p.updWset n fun w => { w with forwarded := fwd }
  if (p.wset n).state = 2 && fwd && (p.runningNo w.cmd).isSome then
    ((p.updWset n fun w => { w with store := [], held := [], out := [] }).endNo w.cmd 0 0 0)
  else p

/-- Bytes in the staging ring (R387). -/
def WSet.staged (w : WSet) : Nat :=
  if w.down = noPeer then 0
  else ((w.held.filter fun x => !w.acked.contains x.1).map fun x => w.chunkLen x.1 x.2).foldl (· + ·) 0

/-- The shard hash once every chunk is held (R388). -/
def Pkg.checkShard (p : Pkg) (n i : Nat) : Pkg :=
  let w := p.wset n
  let cs := List.range (w.chunks i)
  if w.checked.contains i || !(cs.all fun c => w.held.contains (i, c)) then p
  else
    let h := sha384 ((cs.map fun c => w.store.getD (chunkKey i c) []).flatten)
    if h = sliceB w.manifest (128 + 96 * i + 0x30) 48 then
      let p := p.updWset n fun w => { w with checked := w.checked ++ [i] }
      p.ackUp n 4 i 0 none
    else
      let p := p.updWset n fun w =>
        { w with held := w.held.filter fun x => decide (x.1 ≠ i), out := w.out.filter fun o => decide (o.shard ≠ i), fails := AMap.put w.fails i (w.fails.getD i 0 + 1) }
      let p := ((p.ackUp n 5 i 0 none).wlog 0x00B2 none).fadd F.wgtErrHashFail 0 1
      if 3 ≤ (p.wset n).fails.getD i 0 then
        ((p.updWset n fun w => { w with state := 3, cause := 1 }).wlog 0x00B5 (some 9)).endNo w.cmd 0x0208 0 0
      else p

/-! Receiving chunks (R385, R386). -/

/-- NACK_INCOMPLETE of a partial chunk. -/
def Pkg.dropPartial (p : Pkg) (a : ChunkAsm) : Pkg :=
  let p := { p with wgt := { p.wgt with asm_ := p.wgt.asm_.filter fun b => decide (b ≠ a) } }
  let p := (p.wlog 0x00B1 none).fadd F.wgtErrIncomplete 0 1
  match p.setOfLoad a.loadId false with
  | some n => p.ackUp n 3 a.shard a.chunk none
  | none => p

/-- CHUNK_INCOMPLETE (R385): 2 ms without a flit. -/
def chunkIncomplete (i : Nat) (p : Pkg) : Pkg :=
  match p.wgt.asm_[i]? with
  | some a => if a.last + 2 * nsPerMs ≤ p.rawNs then p.dropPartial a else p
  | none => p
def execChunkIncomplete (i : Nat) (s : State) : Host.Outcome State Fault Refusal := onPkg (chunkIncomplete i) s

/-- WCHUNK (R383, R385). -/
def Pkg.takeWchunk (p : Pkg) (y : List Byte) : Pkg :=
  let id := leAt y 4 4
  let s := leAt y 8 4
  let c := leAt y 12 4
  match p.setOfLoad id false with
  | none => p
  | some n =>
    let w := p.wset n
    if w.shards ≤ s || w.chunks s ≤ c then p
    else
      let p := (p.wgt.asm_.filter fun a => decide (a.loadId = id) && !(decide (a.shard = s) && decide (a.chunk = c))).foldl
        Pkg.dropPartial p
      let a := (p.wgt.asm_.find? fun a => decide (a.loadId = id)).getD { loadId := id, shard := s, chunk := c, flits := [], last := 0 }
      let a := { a with flits := AMap.put a.flits (leAt y 2 2) (sliceB y 16 224), last := p.rawNs }
      let len := 64 + w.chunkLen s c
      let rest := p.wgt.asm_.filter fun b => decide (b.loadId ≠ id)
      if (List.range (cdiv len 224)).all fun i => (a.flits.find? i).isSome then
        let img := (((List.range (cdiv len 224)).map fun i => a.flits.getD i []).flatten).take len
        { p with wgt := { p.wgt with asm_ := rest, ready := p.wgt.ready ++ [{ loadId := id, bytes := img, frame := none }] } }
      else { p with wgt := { p.wgt with asm_ := rest ++ [a] } }
def wchunk (q : Nat) (b : List Byte) (p : Pkg) : Pkg :=
  let r := p.control q 6 b
  let y := flitPayload b
  if !p.mgmtHere b then p
  else if r.2 && leAt y 0 1 = 0x40 then r.1.takeWchunk y else r.1
def execWchunk (p : Fin 16) (flit : List Byte) (s : State) : Host.Outcome State Fault Refusal := onPkg (wchunk p flit) s

/-- The header of a chunk is well formed for its shard (R378, R385). -/
def WSet.headerOk (w : WSet) (b : List Byte) : Bool :=
  let s := leAt b 8 4
  let c := leAt b 0xC 4
  decide (leAt b 0 4 = 0x314B4357) && decide (leAt b 4 2 = 1) && decide (leAt b 6 2 = 0) && decide (s < w.shards) &&
  decide (c < w.chunks s) && decide (leAt b 0x10 4 = w.sh s 8 4) && decide (leAt b 0x14 4 = w.chunkLen s c) &&
  decide (leAt b 0x24 12 = 0) && decide (b.length = 64 + w.chunkLen s c)

/-- CHUNK_AUTHENTICATED (R378, R385 to R388): a whole chunk is stored, written and acknowledged, or refused. -/
def chunkAuthenticated (i : Nat) (p : Pkg) : Pkg :=
  match p.wgt.ready[i]? with
  | none => p
  | some x =>
    let pop (p : Pkg) : Pkg := { p with wgt := { p.wgt with ready := dropAt p.wgt.ready i } }
    match p.setOfLoad x.loadId x.frame.isSome with
    | none => pop p
    | some n =>
      let w := p.wset n
      let b := x.bytes
      let s := leAt b 8 4
      let c := leAt b 0xC 4
      let key := (List.find? (fun (z : Nat × KeySlot) => decide (z.2.id = leAt b 0x10 4)) p.wgt.keys).map fun z => z.2.key
      let plain := match key with
        | some k => if w.headerOk b then gcmOpen k (sliceB b 0x18 12) (b.take 0x30) (b.drop 64) (sliceB b 0x30 16) else none
        | none => none
      match plain with
      | none => (((pop p).wlog 0x00B0 none).fadd F.wgtErrTagFail 0 1).ackUp n 2 s c x.frame
      | some pt =>
        if w.held.contains (s, c) then ((pop p).updWset n fun w => { w with lastAuth := p.rawNs }).ackUp n 1 s c x.frame
        else if w.down ≠ noPeer && w.stageBytes < w.staged + w.chunkLen s c then p
        else
          let p := (pop p).updWset n fun w =>
            { w with held := w.held ++ [(s, c)], store := AMap.put w.store (chunkKey s c) b, lastAuth := p.rawNs,
                     out := if w.down = noPeer then w.out else w.out ++
                       [{ shard := s, chunk := c, sends := 0, sentAt := 0, acked := false, resend := false, abandoned := false }] }
          let a := w.addr s
          let p := if w.keeps s then p.memWrite (pkgCls a) (pkgAddr a + mib * c) pt else p
          let p := p.ackUp n 1 s c x.frame
          ((p.pump n).checkShard n s).settleSet n
def execChunkAuthenticated (i : Nat) (s : State) : Host.Outcome State Fault Refusal := onPkg (chunkAuthenticated i) s

/-- WACK (R384, R387). -/
def Pkg.takeWack (p : Pkg) (y : List Byte) : Pkg :=
  let kind := leAt y 1 1
  let s := leAt y 8 4
  let c := leAt y 12 4
  match p.setOfLoad (leAt y 4 4) false with
  | none => p
  | some n =>
    let here (o : ChunkOut) : Bool := decide (o.shard = s) && decide (o.chunk = c)
    let p := p.updWset n fun w =>
      if kind = 1 then { w with out := w.out.map fun o => if here o then { o with acked := true } else o }
      else if kind = 2 || kind = 3 then
        { w with out := w.out.map fun o => if here o && !o.acked then { o with resend := true } else o }
      else if kind = 4 then
        { w with acked := if w.acked.contains s then w.acked else w.acked ++ [s],
                 out := w.out.filter fun o => decide (o.shard ≠ s) }
      else if kind = 5 then
        { w with out := w.out.map fun o => if o.shard = s then { o with resend := true, acked := false, sends := if o.acked then 0 else o.sends } else o }
      else w
    (p.pump n).settleSet n
def wack (q : Nat) (b : List Byte) (p : Pkg) : Pkg :=
  let r := p.control q 6 b
  let y := flitPayload b
  if !p.mgmtHere b then p
  else if r.2 && leAt y 0 1 = 0x41 then r.1.takeWack y else r.1
def execWack (p : Fin 16) (flit : List Byte) (s : State) : Host.Outcome State Fault Refusal := onPkg (wack p flit) s

/-- CHUNK_RESEND_TIMEOUT (R384): 5 ms without a CHUNK_ACK. -/
def chunkResendTimeout (n i : Nat) (p : Pkg) : Pkg :=
  match (p.wset n).out[i]? with
  | some o =>
    if decide (o.sends ≠ 0) && !o.acked && !o.abandoned && decide (o.sentAt + 5 * nsPerMs ≤ p.rawNs) then
      (p.updWset n fun w => { w with out := setAt w.out i { o with resend := true } }).pump n
    else p
  | none => p
def execChunkResendTimeout (set i : Nat) (s : State) : Host.Outcome State Fault Refusal :=
  onPkg (chunkResendTimeout set i) s

/-- CHUNK_TIMEOUT (R389): 50 ms without an authenticated chunk while one is expected. -/
def chunkTimeout (n : Nat) (p : Pkg) : Pkg :=
  let w := p.wset n
  let missing := (w.expected.map fun i => ((List.range (w.chunks i)).filter fun c => !w.held.contains (i, c)).map fun c => (i, c)).flatten
  match missing with
  | (s, c) :: _ =>
    if p.taking n && decide (w.lastAuth + 50 * nsPerMs ≤ p.rawNs) then
      let p := p.updWset n fun w => { w with lastAuth := p.rawNs }
      ((p.fset F.wgtMissingShard 0 s).fset F.wgtMissingChunk 0 c).wlog 0x00B3 (some 8)
    else p
  | [] => p
def execChunkTimeout (set : Nat) (s : State) : Host.Outcome State Fault Refusal := onPkg (chunkTimeout set) s

/-- WEIGHT_FRAME_SCAN (R390). -/
def Pkg.scanFrame (p : Pkg) (f : Nat) : Pkg :=
  let a := f * 0x101000
  let m := p.wgt.frames
  let seq := ofLe (m.read a 4)
  if seq = 0 || seq = p.wgt.frameSeq.getD f 0 then p
  else
    let p := { p with wgt := { p.wgt with frameSeq := AMap.set 0 p.wgt.frameSeq f seq } }
    let id := ofLe (m.read (a + 8) 4)
    match p.setOfLoad id true with
    | some _ =>
      let len := min mib (ofLe (m.read (a + 0x40 + 0x14) 4))
      let x : ChunkIn := { loadId := id, bytes := m.read (a + 0x40) (64 + len), frame := some f }
      { p with wgt := { p.wgt with ready := p.wgt.ready ++ [x] } }
    | none => { p with wgt := { p.wgt with frames := m.write (a + 4) (leBytes 4 3) } }
def weightFrameScan (p : Pkg) : Pkg :=
  if 2 ≤ p.fget F.chipStage 0 && decide (p.power.state < 3) then (List.range 64).foldl Pkg.scanFrame p else p
def execWeightFrameScan (s : State) : Host.Outcome State Fault Refusal := onPkg weightFrameScan s

/-! LOAD_WEIGHTS (R381, R382, R444). -/

/-- The manifest is well formed (R376, R377). -/
def WSet.manifestOk (w : WSet) : Bool :=
  let m := w.manifest
  let n := leAt m 8 4
  let rc := leAt m 0xC 4
  let wpt := leAt m 0x20 4
  decide (leAt m 0 4 = 0x31464D57) && decide (leAt m 4 2 = 1) && decide (leAt m 6 2 = 0) &&
  decide (1 ≤ n) && decide (n ≤ 1048576) && decide (1 ≤ rc) && decide (rc ≤ 16384) &&
  decide (leAt m 0x10 8 % 2 ^ 30 = 0) && decide (leAt m 0x18 8 % 2 ^ 30 = 0) && decide (wpt ≤ 65536) &&
  decide (leAt m 0x24 92 = 0) && decide (m.length = 128 + 96 * n) &&
  (List.range n).all fun i =>
    let len := w.sh i 0x10 8
    let o := w.sh i 0x18 8
    let t := w.tier i
    decide (w.sh i 0 4 = i) && (decide (w.sh i 4 2 = 0xFFFF) || decide (w.sh i 4 2 < rc)) && decide (t ≤ 2) &&
    decide (len % 64 = 0) && decide (64 ≤ len) && decide (w.chunks i = cdiv len mib) && decide (o % 4096 = 0) &&
    decide (w.sh i 0x28 8 = 0) &&
    (if t = 2 then decide (o + len ≤ leAt m 0x18 8)
     else decide (nbits o 63 39 = 0) && decide (nbits o 35 0 + len ≤ leAt m 0x10 8)) &&
    (if t = 0 then decide (w.sh i 0x20 4 % 512 = 0) && decide (w.sh i 0x20 4 + len ≤ 10485760)
     else decide (w.sh i 0x24 4 = 0xFFFFFFFF) || decide (w.sh i 0x24 4 < wpt))

/-- Regions of relocated plans: DRAM offset and size, peat base and size. -/
def Pkg.planRegions (p : Pkg) : List (Nat × Nat × Nat × Nat) :=
  ((if p.planRuns then p.job.cur.toList else []) ++ p.job.next.toList).map fun c => (c.dramBase, c.img.dramBytes, c.peatBase, c.img.peatBytes)
def Pkg.setRegions (p : Pkg) (except_ : Nat) : List (Nat × Nat × Nat × Nat) :=
  ((List.range 4).filter fun n => decide (n ≠ except_) && decide ((p.wset n).state ≠ 0)).map fun n =>
    let w := p.wset n
    (w.dramDest, leAt w.manifest 0x10 8, w.peatDest, leAt w.manifest 0x18 8)
def overlaps (a n b m : Nat) : Bool := decide (0 < n) && decide (0 < m) && decide (a < b + m) && decide (b < a + n)

/-- The region check (R382). -/
def Pkg.regionsOk (p : Pkg) (n : Nat) (w : WSet) : Bool :=
  let d := leAt w.manifest 0x10 8
  let e := leAt w.manifest 0x18 8
  decide (w.dramDest + d ≤ 0xBC0000000) && decide (w.peatDest + e ≤ p.peatBytes) &&
  ((List.range w.shards).all fun i => decide (w.tier i = 2) || (p.fitted (nbits (w.sh i 0x18 8) 38 36) &&
    (p.stack (nbits (w.sh i 0x18 8) 38 36)).up)) &&
  (p.planRegions ++ p.setRegions n).all fun r => !overlaps w.dramDest d r.1 r.2.1 && !overlaps w.peatDest e r.2.2.1 r.2.2.2

/-- A chain neighbour lies in this rack, in this row or column (R382). -/
def Pkg.chainOk (p : Pkg) (ph : Nat) : Bool :=
  decide (ph = noPeer) || (decide (ph / 64 = p.phys / 64) &&
    (decide (torusX ph = torusX p.phys) || decide (torusY ph = torusY p.phys)))

/-- Status of LOAD_WEIGHTS: the first check that fails (R382). -/
def Pkg.loadWeightsCheck (p : Pkg) (n : Nat) (w : WSet) (expect : List Byte) : Nat :=
  if (p.wset n).state = 4 || ((List.range 4).any fun m => decide (m ≠ n) && decide ((p.wset m).state = 1) &&
      decide ((p.wset m).loadId = w.loadId)) then 0x0207
  else if !w.manifestOk then 0x0201
  else if !(expect.all fun b => decide (b = 0#8)) && decide (expect ≠ sha384 w.manifest) then 0x0202
  else if !((List.range w.shards).all fun i => p.wgt.keys.any fun k => decide (k.2.id = w.sh i 8 4)) then 0x0203
  else if !p.regionsOk n w then 0x0204
  else if !(p.chainOk w.up && p.chainOk w.down) then 0x0206
  else if w.down ≠ noPeer && decide (w.stageBytes < (((List.range w.shards).map w.chunks).foldl max 0 + 16) * mib) then 0x0205
  else 0

/-- A field of LOAD_WEIGHTS is wider than R381 gives it: WSET, WRANK, DRAM_DEST, PEAT_DEST, and the staging ring unless DOWN
is NONE. -/
def Cmd.loadWide (c : Cmd) : Bool :=
  decide (4 ≤ c.le 0x10 1) || decide (2 ^ 14 ≤ c.le 0x12 2) || decide (2 ^ 36 ≤ c.le 0x28 8) || decide (2 ^ 41 ≤ c.le 0x30 8) ||
  (decide (c.le 0x26 2 ≠ noPeer) && (decide (2 ^ 41 ≤ c.le 0x38 8) || decide (2 ^ 41 ≤ c.le 0x40 8)))
/-- The regions of LOAD_WEIGHTS are multiples of 2^30, its staging ring of 1 MiB (R381). -/
def Cmd.loadAligned (c : Cmd) : Bool :=
  decide (c.le 0x28 8 % 2 ^ 30 = 0) && decide (c.le 0x30 8 % 2 ^ 30 = 0) &&
  (decide (c.le 0x26 2 = noPeer) || (decide (c.le 0x38 8 % mib = 0) && decide (c.le 0x40 8 % mib = 0)))

/-- LOAD_WEIGHTS as taken: its field checks are done (R444). A misaligned region is refused with ERR_ADDRESS (R5, R440). -/
def Pkg.loadWeights (p : Pkg) (c : Cmd) : Pkg :=
  let n := c.le 0x10 1
  let up := c.le 0x24 2
  let down := c.le 0x26 2
  if (up ≠ noPeer || down ≠ noPeer) && p.fget F.chipStage 0 < 4 then p.final c 9 0 0
  else if !c.loadAligned then p.final c 4 0 0
  else
    let (p, got) := p.getInput (c.le 0x18 8) (c.le 0x20 4) 1
    match got with
    | .error e => p.final c e 0 0
    | .ok m =>
      let w : WSet :=
        { WSet.init with state := 1, loadId := c.le 0x14 4, wrank := c.le 0x12 2, manifest := m, up := up, down := down,
                         dramDest := c.le 0x28 8, peatDest := c.le 0x30 8, stageAddr := c.le 0x38 8,
                         stageBytes := c.le 0x40 8, lastAuth := p.rawNs, cmd := c.no }
      let st := p.loadWeightsCheck n w (sliceB c.rec_ 0x48 48)
      if st ≠ 0 then p.final c st 0 0
      else
        let old := p.wset n
        let p := if p.taking n then (p.endNo old.cmd 0x020D 0 0) else p
        let w := if p.taking n then { w with cause := 2 } else w
        ((p.goOn c).updWset n fun _ => w).settleSet n

/-! The weight pointer table (R393, R394, R396 to R399). -/

/-- A side with the kept shards of a set laid over it. -/
def WSet.overlay (w : WSet) (side : AMap W64) : AMap W64 :=
  ((List.range w.shards).filter fun i => w.keeps i && decide (w.tier i ≠ 0) && decide (w.sh i 0x24 4 ≠ 0xFFFFFFFF)).foldl
    (fun m i => AMap.set 0x8000000000#64 m (w.sh i 0x24 4) (BitVec.ofNat 64 (w.addr i))) side

/-- The WPT fill of R394. -/
def Pkg.fillWpt (p : Pkg) (n : Nat) : Pkg :=
  let m := (p.wset n).overlay []
  { p with wgt := if p.wgt.side = 0 then { p.wgt with sideA := m } else { p.wgt with sideB := m } }

/-- The inactive side built from the active one and a set (R397). -/
def Pkg.buildSide (p : Pkg) (n : Nat) : Pkg :=
  let w := p.wset n
  { p with wgt := if p.wgt.side = 0 then { p.wgt with sideB := w.overlay p.wgt.sideA }
                  else { p.wgt with sideA := w.overlay p.wgt.sideB } }

/-- Fens of the running plan, physical. -/
def Pkg.planFens (p : Pkg) : List Nat :=
  match p.job.cur with | some c => c.img.fenset.filterMap fun l => p.physOf l | none => []

/-- A Proctor after a weights switch (R196). -/
def Pkg.fenResume (p : Pkg) (f t : Nat) : Pkg :=
  let b := BitVec.ofNat 64 t
  (p.epochAdvance f).updFen f fun x =>
    { x with proc := { x.proc with pc := pcOf x.proc.csr.resume, tb := b, ct := b, loops := [], unpushed := [], st := .run, ready := t,
                                   held := none, waitB := none } }
/-- A Proctor at plan start (R197). -/
def Pkg.fenBegin (p : Pkg) (f t : Nat) : Pkg :=
  let b := BitVec.ofNat 64 t
  (p.epochAdvance f).updFen f fun x =>
    { x with proc := { x.proc with pc := x.proc.initPc, tb := b, ct := b, g := [], desc := [], loops := [], unpushed := [], st := .run,
                                   ready := t, held := none, waitB := none } }

/-- The advances due at a fen's local tick. -/
def Pkg.fenStarts (p : Pkg) (f : Nat) : Pkg :=
  match p.job.starts.find? f with
  | some (t, new) =>
    if t ≤ p.local_ f then
      let p := { p with job := { p.job with starts := AMap.erase p.job.starts f } }
      if new then p.fenBegin f t else p.fenResume f t
    else p
  | none => p
def Pkg.scheduleStarts (p : Pkg) (t : Nat) (new : Bool) : Pkg :=
  let fs := p.planFens
  let p := { p with job := { p.job with starts := fs.foldl (fun m f => AMap.put m f (t, new)) [] } }
  fs.foldl Pkg.fenStarts p

/-- The flip of the sides at a tick (R398). -/
def Pkg.flipSides (p : Pkg) (n t : Nat) : Pkg :=
  let p := { p with wgt := { p.wgt with side := 1 - p.wgt.side, pending := none } }
  let p := p.scheduleStarts t false
  let p := p.wlog 0x00B7 none
  (p.dlogRec 6 0 0 0 (p.stepOf t) (sha384 (p.wset n).manifest)).refreshSets

/-- WEIGHTS_SWITCHED (R398). -/
def weightsSwitched (p : Pkg) : Pkg :=
  match p.wgt.pending with
  | some (n, t, no) => if p.planRuns && decide (t ≤ p.refCount) then (p.flipSides n t).endNo no 0 0 0 else p
  | none => p
def execWeightsSwitched (s : State) : Host.Outcome State Fault Refusal := onPkg weightsSwitched s

/-- A pending switch is cancelled when its plan ends (R399). -/
def Pkg.cancelSwitch (p : Pkg) : Pkg :=
  match p.wgt.pending with
  | some (_, _, no) =>
    (({ p with wgt := { p.wgt with pending := none } }.wlog 0x00B8 none).endNo no 6 0 0).refreshSets
  | none => p

/-- SWITCH_WEIGHTS_AT as taken (R396, R397). -/
def Pkg.switchWeights (p : Pkg) (c : Cmd) : Pkg :=
  let n := c.le 0x10 1
  let t := c.le 0x18 8
  let w := p.wset n
  let rank := match p.job.cur with | some c => c.selfRank | none => 0
  let tier0 := (List.range w.shards).any fun i => decide (w.tier i = 0)
  if w.state ≠ 2 || w.wrank ≠ rank || tier0 then p.final c 0x020A 0 0
  else if !(p.tb1Run && decide (p.job.start ≤ t) && decide ((t - p.job.start) % max 1 p.stepTicks = 0) &&
      decide (p.tb1 + 1050000 ≤ t)) then p.final c 0x0209 0 0
  else if p.wgt.pending.isSome then p.final c 0x020B 0 0
  else
    let p := (p.goOn c).buildSide n
    { p with wgt := { p.wgt with pending := some (n, t, c.no) } }.refreshSets

end Sys2Proof.Machine
end

