-- ==== Sys2Proof/Machine/Roll.lean ====
section
/-! DEFINITION. The Roll: intake, commits, adapters, admission, batch table, egress (R328 to R353, R356 to R370,
R417, R423). -/
namespace Sys2Proof.Machine

open Sys2Proof

def Pkg.updRoll (p : Pkg) (g : Roll → Roll) : Pkg := { p with roll := g p.roll }
def Pkg.entry (p : Pkg) (i : Nat) : REntry := p.roll.entries.getD i .init
def Pkg.setEntry (p : Pkg) (i : Nat) (e : REntry) : Pkg :=
  p.updRoll fun r => { r with entries := AMap.set REntry.init r.entries i e }
def Pkg.updEnt (p : Pkg) (i : Nat) (g : REntry → REntry) : Pkg := p.setEntry i (g (p.entry i))
/-- The 256 bytes of an entry (R331, R368). -/
def REntry.bytes (e : REntry) : List Byte :=
  padTo 256 (leBytes 1 e.state ++ leBytes 1 e.cls ++
    leBytes 2 (b2n e.noAdapter + 2 * b2n e.specEn + 4 * b2n e.adChanged + 8 * b2n e.ttftMiss + 16 * b2n e.atRisk + 32 * b2n e.cancel) ++
    leBytes 1 e.cause ++ leBytes 1 e.msix ++ leBytes 2 e.slot ++ leBytes 8 e.hostTag ++ leBytes 2 e.adapter ++ leBytes 2 0 ++
    leBytes 4 e.gen ++ leBytes 8 e.seed ++ padTo 16 e.sampling ++ leBytes 8 e.promptAddr ++ leBytes 4 e.promptLen ++
    leBytes 4 e.maxNew ++ leBytes 4 e.committed ++ leBytes 4 e.prov ++ leBytes 8 e.kvPages ++
    padTo 16 (e.stops.map (leBytes 4)).flatten ++ leBytes 4 e.ttft ++ leBytes 4 e.tbt ++ leBytes 8 e.arrival ++
    leBytes 8 e.deadline ++ leBytes 8 e.firstTick ++ leBytes 8 e.lastTick ++ leBytes 8 e.firstNs ++ leBytes 8 e.lastNs ++
    leBytes 4 e.estTbt ++ leBytes 4 e.tbtMiss ++ leBytes 4 e.tokensOut ++ leBytes 4 e.acceptNo ++ leBytes 24 0 ++
    leBytes 1 e.depth ++ leBytes 1 e.runDepth ++ leBytes 2 e.accEst ++ leBytes 4 e.runs ++ leBytes 4 e.proposed ++
    leBytes 4 e.accepted)
/-- Word `w` of entry `i` as it is read: the codeword written with its upset cells (R219, R331). -/
def Pkg.entryWord (p : Pkg) (i w : Nat) : EccRead :=
  let d := leAt (p.entry i).bytes (8 * w) 8
  match p.roll.upset.find? (32 * i + w) with
  | none => .ok d
  | some u => eccDecode (eccEncode d ^^^ u)
/-- An entry has an uncorrectable word (R332). A word that decodes is taken as written: DESIGN CHOICE (log entry 129) for
three and more upset cells that pass for one. -/
def Pkg.entryBad (p : Pkg) (i : Nat) : Bool :=
  p.roll.upset.any fun x => decide (x.1 / 32 = i) && decide (p.entryWord i (x.1 % 32) = .bad)
/-- All 256 bytes of an entry are written anew: none of its cells is upset. -/
def Roll.fresh (i : Nat) (r : Roll) : Roll := { r with upset := r.upset.filter fun x => decide (x.1 / 32 ≠ i) }
def Pkg.bslot (p : Pkg) (s : Nat) : BSlot := p.roll.slots.getD s .init
def Pkg.updSlot (p : Pkg) (s : Nat) (g : BSlot → BSlot) : Pkg :=
  p.updRoll fun r => { r with slots := AMap.set BSlot.init r.slots s (g (p.bslot s)) }
def Pkg.adapter (p : Pkg) (h : Nat) : AdEnt := p.roll.adapters.getD h .init
def Pkg.updAd (p : Pkg) (h : Nat) (g : AdEnt → AdEnt) : Pkg :=
  p.updRoll fun r => { r with adapters := AMap.set AdEnt.init r.adapters h (g (p.adapter h)) }

/-- The ARM parameters of the running plan, and the rank it holds (R328). -/
def Pkg.armRec (p : Pkg) : Option (ArmRec × Nat) :=
  match p.job.cur with
  | some c => if p.planRuns then c.arm.map fun a => (a, c.selfRank) else none
  | none => none
/-- Those of the running plan, or of the armed one (R335). -/
def Pkg.armAny (p : Pkg) : Option (ArmRec × Nat) :=
  match p.armRec with
  | some a => some a
  | none => match p.job.next with | some c => c.arm.map fun a => (a, c.selfRank) | none => none
/-- Home slots under an ARM record (R328). -/
def homeSlots (a : ArmRec × Nat) : List Nat :=
  (List.range a.1.batchSlots).filter fun s => decide (a.1.home.getD s (2 ^ 16) = a.2)
def Pkg.homes (p : Pkg) : List Nat := match p.armRec with | some a => homeSlots a | none => []

/-- The Roll applies a script in place of its own decisions: a replay, or a pupil (R417, R424). -/
def Pkg.scripted (p : Pkg) : Bool := (p.planRuns && p.replaying) || (p.dig.role = 2 && p.drive)

/-! Egress (R343, R345, R346). -/

def Pkg.egSize (p : Pkg) : Nat := min 20 (max 10 (p.fget F.rollEgressCfg 0))
def Pkg.egPush (p : Pkg) (e : EgRec) : Pkg :=
  p.updRoll fun r => { r with backlog := r.backlog ++ [{ e with batch := r.batch }] }
/-! Adapters (R347 to R352). -/

def AdEnt.slot (e : AdEnt) (i : Nat) : AdSlot := if i = 0 then e.s0 else e.s1
def AdEnt.setSlot (e : AdEnt) (i : Nat) (s : AdSlot) : AdEnt := if i = 0 then { e with s0 := s } else { e with s1 := s }
/-- The slot that is CURRENT, and the slot that holds a generation. -/
def AdEnt.current (e : AdEnt) : Option Nat := if e.s0.st = 1 then some 0 else if e.s1.st = 1 then some 1 else none
def AdEnt.holding (e : AdEnt) (gen : Nat) : Option Nat :=
  if e.s0.st ≠ 0 && e.s0.gen = gen then some 0 else if e.s1.st ≠ 0 && e.s1.gen = gen then some 1 else none
/-- The slot that a new generation takes: the EMPTY one, or else the SPARE one. -/
def AdEnt.room (e : AdEnt) : Option Nat :=
  if e.s0.st = 0 then some 0 else if e.s1.st = 0 then some 1
  else if e.s0.st = 3 then some 0 else if e.s1.st = 3 then some 1 else none

/-- The 64 bytes of an entry (R347). -/
def AdEnt.bytes (e : AdEnt) : List Byte :=
  leBytes 1 (e.current.getD 0xFF) ++ leBytes 1 e.s0.st ++ leBytes 1 e.s1.st ++ leBytes 1 (b2n e.retired) ++ leBytes 4 0 ++
  leBytes 4 e.s0.gen ++ leBytes 4 e.s1.gen ++ leBytes 8 e.s0.addr ++ leBytes 8 e.s1.addr ++ leBytes 4 e.s0.len ++
  leBytes 4 e.s1.len ++ leBytes 4 e.s0.ref ++ leBytes 4 e.s1.ref ++ leBytes 16 0

/-- ADAPTER_RELEASED (R343, R349). -/
def Pkg.adRelease (p : Pkg) (h gen : Nat) : Pkg :=
  (p.egPush { kind := 5, cause := 0, entry := 0, intake := 0, hostTag := 0, value := h, pos := gen,
              vec := p.fget F.rollCtrlAdapterVec 0, idx := 0, n := 0 }).fadd F.rollAdapterStatReleases 0 1

/-- A slot loses `k` references; an OLD slot with none is released (R349). -/
def Pkg.adUnref (p : Pkg) (h gen k : Nat) : Pkg :=
  let e := p.adapter h
  match e.holding gen with
  | none => p
  | some i =>
    let s := e.slot i
    let s := { s with ref := s.ref - k }
    if s.st = 2 && s.ref = 0 then (p.updAd h fun e => e.setSlot i { s with st := 3 }).adRelease h s.gen
    else p.updAd h fun e => e.setSlot i s

/-- The former CURRENT slot becomes OLD, or SPARE and released when nothing is pinned to it. -/
def Pkg.adRetireSlot (p : Pkg) (h : Nat) (skip : Option Nat) : Pkg :=
  let e := p.adapter h
  match (List.range 2).find? fun i => decide ((e.slot i).st = 1) && decide (some i ≠ skip) with
  | none => p
  | some i =>
    let s := e.slot i
    if s.ref = 0 then (p.updAd h fun e => e.setSlot i { s with st := 3 }).adRelease h s.gen
    else p.updAd h fun e => e.setSlot i { s with st := 2 }

/-- GEN of the CURRENT slot; 0 when there is none. -/
def Pkg.adGen (p : Pkg) (h : Nat) : Nat :=
  match (p.adapter h).current with | some i => ((p.adapter h).slot i).gen | none => 0

/-- ADAPTER record of the digest log (R414). -/
def Pkg.adLog (p : Pkg) (h old new mode step : Nat) : Pkg :=
  p.dlogRec 5 0 0 0 step (leBytes 2 h ++ leBytes 2 0 ++ leBytes 4 old ++ leBytes 4 new ++ leBytes 1 mode)

/-- ACTIVE entries pinned to a generation. -/
def Pkg.pinned (p : Pkg) (h gen : Nat) : List (Nat × REntry) :=
  p.roll.entries.filter fun x =>
    decide (x.2.state = 2) && !x.2.noAdapter && decide (x.2.adapter = h) && decide (x.2.gen = gen)

/-- Slot `i` becomes CURRENT in NORMAL (0) or SWITCH_AT_STEP (1) mode. -/
def Pkg.adMakeCurrent (p : Pkg) (h i mode step : Nat) : Pkg :=
  let old := p.adGen h
  let p := p.updAd h fun e => { (e.setSlot i { e.slot i with st := 1 }) with retired := false }
  let gen := ((p.adapter h).slot i).gen
  let p := if mode = 1 then
      let es := p.pinned h old
      let p := es.foldl (fun (p : Pkg) x =>
        (p.updEnt x.1 fun e => { e with gen := gen, adChanged := true }).updSlot x.2.slot fun b => { b with adChanged := true }) p
      let p := p.updAd h fun e =>
        (List.range 2).foldl (fun (e : AdEnt) j =>
          let s := e.slot j
          if j = i then e.setSlot j { s with ref := s.ref + es.length }
          else if s.gen = old then e.setSlot j { s with ref := s.ref - es.length } else e) e
      (p.fadd F.rollAdapterStatSwitches 0 1).log1 .roll 0 0x00A1 0 none
    else p
  let p := p.adRetireSlot h (some i)
  (p.fadd F.rollAdapterStatPuts 0 1).adLog h old gen mode step

/-- A change at its boundary (R350 to R352); `stage`: only a SPARE generation is installed (R417). -/
def Pkg.applyChange (step : Nat) (stage : Bool) (p : Pkg) (c : AdChange) : Pkg :=
  if c.mode = 2 then
    let p := if stage then p
      else
        let old := p.adGen c.handle
        ((p.updAd c.handle fun e => { e with retired := true }).adRetireSlot c.handle none).adLog c.handle old 0 2 step
    p.endNo c.cmd 0 0 0
  else
    match (p.adapter c.handle).room with
    | none => p.endNo c.cmd 0x0401 0 0
    | some i =>
      let p := p.updAd c.handle fun e => e.setSlot i { st := 3, gen := c.gen, addr := c.addr, len := c.len, ref := 0 }
      let p := if stage then p else p.adMakeCurrent c.handle i c.mode step
      p.endNo c.cmd 0 i 0

/-- Changes due at boundary `step` act in take order (R350 to R352). -/
def Pkg.applyChanges (p : Pkg) (step : Nat) (stage : Bool) : Pkg :=
  let due := p.roll.changes.filter fun c => decide (c.mode ≠ 1) || decide (c.step ≤ step)
  let p := p.updRoll fun r => { r with changes := r.changes.filter fun c => decide (c.mode = 1) && decide (step < c.step) }
  due.foldl (Pkg.applyChange step stage) p

/-- The fitted stacks that hold the Roll's tables. -/
def Pkg.stacksUp (p : Pkg) : List Nat := (List.range 8).filter fun s => p.fitted s && (p.stack s).up
/-- The same bytes at an offset of every fitted stack. -/
def Pkg.writeStacks (p : Pkg) (o : Nat) (bs : List Byte) : Pkg :=
  p.stacksUp.foldl (fun (p : Pkg) s => p.memWrite 0 (s * 2 ^ 36 + o) bs) p

/-- The handles whose entry is not what the copies hold. -/
def Roll.stale (r : Roll) : List Nat :=
  ((r.adapters.map Prod.fst ++ r.copies.map Prod.fst).filter fun h =>
    decide (r.adapters.getD h .init ≠ r.copies.getD h .init)).eraseDups
/-- Adapter table copies: each entry that differs from its copies is written to all of them (R347, R349). DESIGN CHOICE (log
entry 132): an entry that never differed from an EMPTY one is not written. -/
def Pkg.publishAdapters (p : Pkg) : Pkg :=
  (p.roll.stale.foldl (fun (p : Pkg) h => p.writeStacks (0xBE0000000 + 64 * h) (p.adapter h).bytes) p).updRoll
    fun r => { r with copies := r.adapters }

/-! Closing a request (R330, R340). -/

/-- Cause of a failure by its event (R344). -/
def causeOf (code : Nat) : Nat :=
  if code = 0 then 0x15 else if code = 0x31 ∨ code = 0x32 then 0x10 else if code = 0x33 then 0x11
  else if code = 0x34 then 0x12 else if code = 0x37 then 0x13 else if code = 0x74 then 0x14
  else if code = 0x79 then 0x1B else if code = 0x36 then 0x1C else 0x1D

/-- Close a request: CLOSED until its FINAL record is posted, its slot DRAINING. -/
def Pkg.closeReq (p : Pkg) (i cause : Nat) : Pkg :=
  let e := p.entry i
  if e.state ≠ 1 && e.state ≠ 2 then p
  else
    let drain := match p.armRec with | some a => a.1.drainSteps | none => 0
    let p := if e.state = 2 then
        p.updSlot e.slot fun _ => if drain = 0 then .init else { BSlot.init with state := 2, entry := i, drain := drain }
      else p
    let p := p.setEntry i { e with state := 3, cause := cause, slot := 0xFFFF }
    let tag := if p.entryWord i 1 = .bad then 2 ^ 64 - 1 else e.hostTag
    let p := p.egPush { kind := 4, cause := cause, entry := i, intake := 0, hostTag := tag, value := e.tokensOut, pos := 0,
                        vec := e.msix, idx := 0, n := 0 }
    let p := p.fadd F.rollStatFailed 0 (b2n (decide (0x10 ≤ cause)))
    if e.state = 2 && !e.noAdapter then p.adUnref e.adapter e.gen 1 else p

/-- An entry is read: with an uncorrectable word its request closes (R332). -/
def Pkg.readEntry (p : Pkg) (i : Nat) : Pkg :=
  if p.entryBad i && ((p.entry i).state = 1 || (p.entry i).state = 2) then (p.closeReq i 0x1A).log1 .roll 0 0x00A3 0 (some 9)
  else p

/-! Posting (R343, R345, R346). -/

/-- A record is posted now: the ring is enabled and has room, the link carries it, and the package is no pupil. -/
def Pkg.egRoom (p : Pkg) : Bool :=
  p.fon F.rollCtrlEgressEn 0 && !p.drive && !p.host.d3hot &&
  decide (ringUsed (p.fget F.rollEgressHead 0) (p.fget F.rollEgressTail 0) < 2 ^ p.egSize)

/-- Deadlines at the posting of a TOKEN record (R346): the first record of a boundary acts for all of its tokens. -/
def REntry.tokenPosted (e : REntry) (now n idx : Nat) : REntry × Bool :=
  if idx ≠ 0 then ({ e with lastNs := now }, false)
  else if !e.posted then
    let miss := decide (e.ttft ≠ 0) && decide (e.ttft < now - e.arrival)
    ({ e with firstNs := now, lastNs := now, posted := true, ttftMiss := e.ttftMiss || miss }, miss)
  else
    let g := (now - e.lastNs) / max 1 n
    let est := (List.range n).foldl (fun (x : Int) _ => x + ((g : Int) - x) / 8) (e.estTbt : Int)
    let miss := if e.tbt ≠ 0 && e.tbt < g then n else 0
    ({ e with lastNs := now, tbtMiss := satAdd 32 e.tbtMiss miss, estTbt := wrapNat 32 est }, false)

/-- Post one record: its TIME and FLAGS are those of the posting; the entry of an open request is read for it (R332). -/
def Pkg.egPost (p : Pkg) (e : EgRec) : Pkg :=
  let now := p.tb0
  let p := if e.kind = 1 || e.kind = 3 then p.readEntry e.entry else p
  let p := if e.kind = 3 then
      let (x, miss) := (p.entry e.entry).tokenPosted now e.n e.idx
      let x := { x with atRisk := decide (0 < x.tbt) && decide (x.tbt < x.estTbt) }
      (p.setEntry e.entry x).fadd F.rollStatTtftMiss 0 (b2n miss)
    else p
  let h := p.fget F.rollEgressHead 0
  let sz := p.egSize
  let x := if e.kind = 1 || e.kind = 3 || e.kind = 4 then p.entry e.entry else .init
  let fl := ringPhase h sz + 2 * b2n x.atRisk + 4 * b2n x.adChanged + 8 * b2n x.ttftMiss
  let b := leBytes 1 e.kind ++ leBytes 1 fl ++ leBytes 1 e.cause ++ [0#8] ++ leBytes 2 e.entry ++ leBytes 2 e.intake ++
    leBytes 8 e.hostTag ++ leBytes 4 e.value ++ leBytes 4 e.pos ++ leBytes 8 now
  let p := p.hostWrite (p.fget F.rollEgressBase 0 + 32 * (h % 2 ^ sz)) b
  let p := p.fset F.rollEgressHead 0 (h + 1)
  let p := p.fset F.rollEgressHeadPhase 0 (ringPhase ((h + 1) % 2 ^ 32) sz)
  let p := p.perf .roll 0 0x802 1 none
  if e.kind = 4 && p.entry e.entry ≠ .init then
    (p.setEntry e.entry .init).updRoll (Roll.fresh e.entry)
  else p

/-- Post what fits, oldest first; the vectors of the records posted, with their batches. -/
def Pkg.egDrain : Nat → Pkg → List (Nat × Nat) → Pkg × List (Nat × Nat)
  | 0, p, vs => (p, vs)
  | k + 1, p, vs =>
    match p.roll.backlog with
    | [] => (p, vs)
    | e :: r =>
      if p.egRoom then
        Pkg.egDrain k ((p.updRoll fun x => { x with backlog := r }).egPost e)
          (if vs.contains (e.batch, e.vec) then vs else vs ++ [(e.batch, e.vec)])
      else (p, vs)
/-- A record of the batch and the vector waits. -/
def Pkg.egWaits (p : Pkg) (v : Nat × Nat) : Bool := p.roll.backlog.any fun e => decide ((e.batch, e.vec) = v)
/-- Post what fits, then raise the vectors of each boundary of which no record waits; later records are another batch. -/
def Pkg.egress (p : Pkg) : Pkg :=
  let r := Pkg.egDrain (3 * p.roll.backlog.length) p []
  let vs := r.2.filter fun v => !r.1.egWaits v
  (vs.foldl (fun (p : Pkg) v => p.raise v.2) r.1).updRoll fun x => { x with batch := x.batch + 1 }

/-- EGRESS_POST (R343, R345): the oldest record of the backlog once the ring has room. -/
def egressPost (p : Pkg) : Pkg :=
  match p.roll.backlog with
  | [] => p
  | e :: r =>
    if p.egRoom then
      let p := (p.updRoll fun x => { x with backlog := r }).egPost e
      if p.egWaits (e.batch, e.vec) then p else p.raise e.vec
    else p
def execEgressPost (s : State) : Host.Outcome State Fault Refusal := onPkg egressPost s

/-- EGRESS_TAIL_WRITE (R343). -/
def egressTailWrite (v : Nat) (p : Pkg) : Pkg :=
  if ringUsed (p.fget F.rollEgressHead 0) (v % 2 ^ 32) ≤ 2 ^ p.egSize then p.fset F.rollEgressTail 0 v else p
def execEgressTailWrite (v : Nat) (s : State) : Host.Outcome State Fault Refusal := onPkg (egressTailWrite v) s

/-! The depth controller (R370). -/

def depthGo (g est : Nat) : Nat → Nat → Nat → Nat
  | 0, _, d => d
  | k + 1, P, d =>
    let q := P * est / 65536
    if d < 8 && g ≤ q then depthGo g est k q (d + 1) else d

def Pkg.depthUpdate (p : Pkg) (e : REntry) (a d : Nat) : REntry :=
  if d = 0 then e
  else
    let sh := max 1 (p.fget F.rollSpecCfgEstShift 0)
    let est := (List.range (min a (d - 1) + 1)).foldl (fun (x : Int) r =>
      x + ((if r < a then 65536 else 0) - x) / ((2 ^ sh : Nat) : Int)) (e.accEst : Int)
    let est := est.toNat
    { e with accEst := est, runs := satAdd 32 e.runs 1, proposed := satAdd 32 e.proposed d,
             accepted := satAdd 32 e.accepted a, depth := depthGo (max 1 (p.fget F.rollSpecCfgGainMin 0)) est 8 est 1 }

def Pkg.depthPublish (p : Pkg) (e : REntry) : REntry :=
  let sm := match p.armRec with | some a => a.1.specMax | none => 0
  let d := if e.specEn then min (min e.depth sm) (e.maxNew - e.tokensOut - 1) else 0
  { e with runDepth := d, prov := d + 1 }

/-! Commits (R339, R361). -/

/-- One token: its count and its record; the cause with which the request closes, if it does. -/
def commitToken (e : REntry) (r : SampRec) (tick : Nat) : REntry × Option Nat :=
  let e := { e with tokensOut := e.tokensOut + 1, lastTick := tick,
                    firstTick := if e.tokensOut = 0 then tick else e.firstTick, committed := r.pos }
  if r.token ≠ 0xFFFFFFFF && e.stops.contains r.token then (e, some 2)
  else if e.maxNew ≤ e.tokensOut then (e, some 3)
  else (e, none)
/-- Tokens in order until the request closes; the records committed. -/
def commitRun (tick : Nat) : List SampRec → REntry → REntry × List SampRec × Option Nat
  | [], e => (e, [], none)
  | r :: rs, e =>
    match commitToken e r tick with
    | (e, some c) => (e, [r], some c)
    | (e, none) => let z := commitRun tick rs e; (z.1, r :: z.2.1, z.2.2)
/-- Drafts confirmed (R361). -/
def acceptedRun : List SampRec → Nat
  | [] => 0
  | r :: rs => if r.flags % 2 = 1 then 1 + acceptedRun rs else 0

/-- `commit_slot` of R361 for the request in a slot. -/
def Pkg.commitSlot (p : Pkg) (s tick : Nat) (recs : List SampRec) : Pkg :=
  let i := (p.bslot s).entry
  let e := p.entry i
  if recs.isEmpty then p
  else
    let d := e.runDepth
    let b := e.promptLen + e.tokensOut
    let keep := recs.filter fun r => decide (r.ridx ≤ d)
    let p := p.fadd F.rollSpecStatExtra 0 (recs.length - keep.length)
    let sorted := isort (fun (x y : SampRec) => decide (x.ridx ≤ y.ridx)) keep
    if sorted.map SampRec.ridx ≠ List.range (d + 1) || sorted.any fun r => decide (r.pos ≠ b + r.ridx) then p.closeReq i 0x16
    else if sorted.any fun r => decide (r.flags / 8 % 2 = 1) then p.closeReq i 0x15
    else if sorted.any fun r => decide (r.flags / 16 % 2 = 1) then p.closeReq i 0x17
    else
      let a := acceptedRun (sorted.take d)
      let (e, done, close) := commitRun tick (sorted.take (a + 1)) e
      let e := { e with prov := 0 }
      let e := if close.isNone then p.depthPublish (p.depthUpdate e a d) else e
      let p := p.setEntry i e
      let p := (p.fadd F.rollSpecStatRuns 0 (b2n (decide (d ≠ 0)))).fadd F.rollSpecStatAccepted 0 (if d = 0 then 0 else a)
      let p := p.perf .roll 0 0x800 done.length none
      let p := done.zipIdx.foldl (fun (p : Pkg) x =>
        p.egPush { kind := 3, cause := 0, entry := i, intake := 0, hostTag := e.hostTag, value := x.1.token, pos := x.1.pos,
                   vec := e.msix, idx := x.2, n := done.length }) p
      match close with
      | some c => p.closeReq i c
      | none => p

/-- SAMPLER_RECORD_TO_ROLL (R174, R329, R330). -/
def Pkg.takeRec (p : Pkg) (r : SampRec) : Pkg :=
  if p.homes.contains r.slot && decide ((p.bslot r.slot).state = 1) then p.updRoll fun x => { x with recs := x.recs ++ [r] }
  else p.fadd F.rollStatStray 0 1
def samplerRecordToRoll (i : Nat) (p : Pkg) : Pkg :=
  match p.roll.inbound[i]? with
  | none => p
  | some r =>
    if p.refCount < r.due then p else (p.updRoll fun x => { x with inbound := dropAt x.inbound i }).takeRec r
def execSamplerRecordToRoll (i : Nat) (s : State) : Host.Outcome State Fault Refusal := onPkg (samplerRecordToRoll i) s

/-! Intake (R333 to R336). -/

/-- The lowest FREE entry: one with no key below. -/
def firstFree (k : Nat) : AMap REntry → Nat
  | [] => k
  | (i, _) :: r => if i = k then firstFree (k + 1) r else k

/-- A request as its intake record gives it. -/
def REntry.ofRecord (r : List Byte) : REntry :=
  { REntry.init with
    cls := leAt r 1 1, noAdapter := bit (r.getD 2 0#8) 0, specEn := bit (r.getD 2 0#8) 1, msix := leAt r 4 1,
    slot := 0xFFFF, hostTag := leAt r 8 8, adapter := leAt r 0x10 2, seed := leAt r 0x18 8, sampling := sliceB r 0x20 16,
    promptAddr := leAt r 0x30 8, promptLen := leAt r 0x38 4, maxNew := leAt r 0x3C 4,
    stops := (List.range 4).map fun k => leAt r (0x40 + 4 * k) 4, kvPages := leAt r 0x50 8, ttft := leAt r 0x14 4,
    tbt := leAt r 0x58 4 }

def Pkg.reject (p : Pkg) (i cause value : Nat) (r : List Byte) : Pkg :=
  (p.egPush { kind := 2, cause := cause, entry := 0xFFFF, intake := i, hostTag := leAt r 8 8, value := value, pos := 0,
              vec := leAt r 4 1, idx := 0, n := 0 }).fadd F.rollStatRejected 0 1

/-- A record is well formed (row 1 of R335). -/
def recordOk (r : List Byte) : Bool :=
  decide (leAt r 0 1 = 1) && decide (leAt r 1 1 ≤ 3) && decide (leAt r 2 2 < 4) && decide (leAt r 5 3 = 0) &&
  decide (leAt r 0x2F 1 = 0) && decide (leAt r 0x5C 32 = 0) && decide (leAt r 0x38 4 ≠ 0) && decide (leAt r 0x3C 4 ≠ 0)

/-- A request placed in the lowest FREE entry as QUEUED (R335). -/
def Pkg.enqueue (p : Pkg) (i : Nat) (r : List Byte) : Pkg × Nat :=
  let k := firstFree 0 p.roll.entries
  let e := REntry.ofRecord r
  let e := { e with state := 1, arrival := p.tb0, acceptNo := p.roll.acceptNo % 2 ^ 32,
                    deadline := if e.ttft = 0 then 2 ^ 64 - 1 else (p.tb0 + e.ttft) % 2 ^ 64 }
  let p := (p.setEntry k e).updRoll fun x => { Roll.fresh k x with acceptNo := x.acceptNo + 1 }
  (p.egPush { kind := 1, cause := 0, entry := k, intake := i, hostTag := e.hostTag, value := 0, pos := 0, vec := e.msix,
              idx := 0, n := 0 }, k)

/-- A SUBMIT at an intake position (R335). -/
def Pkg.submit (p : Pkg) (i : Nat) (r : List Byte) : Pkg :=
  let e := REntry.ofRecord r
  if !recordOk r then p.reject i 0x20 0 r
  else
    match p.armAny with
    | none => p.reject i 0x21 0 r
    | some a =>
      if (homeSlots a).isEmpty then p.reject i 0x21 1 r
      else if a.1.maxCtx < e.promptLen + e.maxNew then p.reject i 0x22 0 r
      else if !e.noAdapter && ((p.adapter e.adapter).current.isNone || (p.adapter e.adapter).retired) then p.reject i 0x23 0 r
      else if 16384 ≤ firstFree 0 p.roll.entries then p.reject i 0x24 0 r
      else (p.enqueue i r).1

/-- A CANCEL at an intake position (R336). DESIGN CHOICE (log entry 130): as it ignores MSIX, its REJECTED record raises no
vector. -/
def Pkg.cancel (p : Pkg) (i : Nat) (r : List Byte) : Pkg :=
  let k := leAt r 0x12 2
  let p := p.readEntry k
  let e := p.entry k
  if (e.state = 1 || e.state = 2) && e.hostTag = leAt r 8 8 then
    let p := p.updEnt k fun e => { e with cancel := true }
    p.egPush { kind := 1, cause := 0, entry := k, intake := i, hostTag := e.hostTag, value := 0, pos := 0, vec := e.msix,
               idx := 0, n := 0 }
  else p.reject i 0x25 0 (setAt r 4 0xFF#8)

/-- The backlog can take no further record (R345). -/
def Pkg.egFull (p : Pkg) : Bool := decide (16384 ≤ p.roll.backlog.length) && !p.egRoom

/-- One position of the intake area, when it is new (R333); `op`: only records of this kind (2 CANCEL, 1 the rest). DESIGN
CHOICE (log entry 131): a position waits while the backlog has no place for its answer. -/
def Pkg.scanIntake (op : Option Nat) (p : Pkg) (i : Nat) : Pkg :=
  let r := p.roll.intake.read (128 * i) 128
  let seq := leAt r 0x7C 4
  let kind := if leAt r 0 1 = 2 then 2 else 1
  if seq = 0 || seq = p.roll.lastSeq.getD i 0 || p.egFull || (match op with | some k => decide (k ≠ kind) | none => false) then p
  else
    let p := p.updRoll fun x => { x with lastSeq := AMap.set 0 x.lastSeq i seq }
    if kind = 2 then p.cancel i r else p.submit i r

/-- The firmware scans: it runs from S2, in RUN, IDLE and SLEEP, and not while a script rules (R417, R471, R520). -/
def Pkg.scans (p : Pkg) : Bool := decide (2 ≤ p.fget F.chipStage 0) && decide (p.power.state < 3) && !p.scripted
def Pkg.scanAll (p : Pkg) : Pkg :=
  if p.scans && !p.roll.intake.isEmpty then (List.range 1024).foldl (Pkg.scanIntake none) p else p

/-- INTAKE_SCAN, SUBMIT and CANCEL (R333). -/
def execIntakeScan (s : State) : Host.Outcome State Fault Refusal := onPkg (fun p => p.scanAll.egress) s
def execSubmit (i : Nat) (s : State) : Host.Outcome State Fault Refusal :=
  onPkg (fun p => if p.scans && decide (i < 1024) then (p.scanIntake (some 1) i).egress else p) s
def execCancel (i : Nat) (s : State) : Host.Outcome State Fault Refusal :=
  onPkg (fun p => if p.scans && decide (i < 1024) then (p.scanIntake (some 2) i).egress else p) s

/-! Admission (R341, R369). -/

/-- Put a QUEUED request into a FREE slot with a generation. -/
def Pkg.letIn (p : Pkg) (k s gen : Nat) : Pkg :=
  let e := p.entry k
  let d0 := p.fget F.rollSpecCfgSpecDepthInit 0
  let e := { e with state := 2, slot := s, gen := gen, estTbt := e.tbt, committed := 0, prov := e.promptLen,
                    depth := if d0 = 0 then 1 else min 8 d0, accEst := p.fget F.rollSpecCfgEstInit 0, runDepth := 0,
                    runs := 0, proposed := 0, accepted := 0 }
  let p := (p.setEntry k e).updSlot s fun _ =>
    { BSlot.init with state := 1, entry := k, new := true, first := p.roll.lastStep - 1 }
  let p := if e.noAdapter then p
    else
      match (p.adapter e.adapter).holding gen with
      | some i => p.updAd e.adapter fun a => a.setSlot i { a.slot i with ref := (a.slot i).ref + 1 }
      | none => p
  let p := (List.range 4).foldl (fun (p : Pkg) d =>
    p.setSamp d ((p.samp d).write (0x200000 + 512 * s) ⟨padTo 16 e.sampling ++ leBytes 8 e.seed, false⟩)) p
  p.perf .roll 0 0x801 1 none

/-- The QUEUED entry that is admitted next: class, deadline, acceptance order. -/
def Pkg.candidate (p : Pkg) : Option Nat :=
  let qs := p.roll.entries.filter fun x => decide (x.2.state = 1) && !(p.roll.promised.any fun y => decide (y.2 = x.1))
  let le (a b : Nat × REntry) : Bool :=
    decide (a.2.cls < b.2.cls) || (decide (a.2.cls = b.2.cls) &&
      (decide (a.2.deadline < b.2.deadline) || (decide (a.2.deadline = b.2.deadline) && decide (a.2.acceptNo ≤ b.2.acceptNo))))
  match qs with
  | [] => none
  | x :: r => some (r.foldl (fun m y => if le m y then m else y) x).1

/-- A script entry of 160 bytes (R416). -/
def scriptEntry (step slot op mode gen : Nat) (record : List Byte) : List Byte :=
  leBytes 8 step ++ leBytes 2 slot ++ leBytes 1 op ++ leBytes 1 mode ++ leBytes 4 gen ++ leBytes 16 0 ++ padTo 128 record
/-- The intake record of a request, for a script entry. -/
def REntry.record (e : REntry) : List Byte :=
  [1#8] ++ leBytes 1 e.cls ++ leBytes 2 (b2n e.noAdapter + 2 * b2n e.specEn) ++ leBytes 1 e.msix ++ leBytes 3 0 ++
  leBytes 8 e.hostTag ++ leBytes 2 e.adapter ++ leBytes 2 0 ++ leBytes 4 e.ttft ++ leBytes 8 e.seed ++ padTo 16 e.sampling ++
  leBytes 8 e.promptAddr ++ leBytes 4 e.promptLen ++ leBytes 4 e.maxNew ++ (e.stops.map (leBytes 4)).flatten ++
  leBytes 8 e.kvPages ++ leBytes 4 e.tbt

/-- A tutor's decision: kept for the next boundary and mirrored on its copy port (R423). -/
def Pkg.mirror (p : Pkg) (e : List Byte) : Pkg :=
  let p := p.updRoll fun r => { r with script := r.script ++ [e] }
  p.queueMgmt p.dig.port (p.fget F.issynPartnerAddr p.dig.port * 2 ^ 9) ([0x51#8] ++ leBytes 7 0 ++ e)

/-- Admission to one FREE slot; an absent adapter closes its candidates (R341, R352). `next`: a tutor decides for the
boundary that follows. -/
def Pkg.admitOne (next : Option Nat) (s : Nat) : Nat → Pkg → Pkg
  | 0, p => p
  | k + 1, p =>
    match p.candidate with
    | none => p
    | some i =>
      let e := p.entry i
      let a := p.adapter e.adapter
      if !e.noAdapter && (a.current.isNone || a.retired) then Pkg.admitOne next s k (p.closeReq i 0x23)
      else
        let gen := if e.noAdapter then 0 else p.adGen e.adapter
        match next with
        | none => p.letIn i s gen
        | some step =>
          (p.updRoll fun r => { r with promised := AMap.put r.promised s i }).mirror (scriptEntry step s 1 0 gen e.record)
def Pkg.admission (p : Pkg) (next : Option Nat) : Pkg :=
  (p.homes.filter fun s => decide ((p.bslot s).state = 0) && (p.roll.promised.find? s).isNone).foldl
    (fun (p : Pkg) s => Pkg.admitOne next s (p.roll.entries.length + 1) p) p

/-! Scripts (R416, R417, R424). -/

/-- The request with a HOST_TAG. -/
def Pkg.byTag (p : Pkg) (tag : Nat) : Option Nat :=
  (List.find? (fun (x : Nat × REntry) => (decide (x.2.state = 1) || decide (x.2.state = 2)) && decide (x.2.hostTag = tag))
    p.roll.entries).map Prod.fst

/-- One script entry at its boundary. -/
def Pkg.scriptStep (step : Nat) (p : Pkg) (b : List Byte) : Pkg :=
  let op := leAt b 0x0A 1
  let s := leAt b 8 2
  let gen := leAt b 0x0C 4
  let r := sliceB b 0x20 128
  if op = 1 then
    let e := REntry.ofRecord r
    if p.dig.role = 1 then
      let p' := p.updRoll fun r => { r with promised := AMap.erase r.promised s }
      match p.roll.promised.find? s with
      | some k => if (p.entry k).state = 1 then p'.letIn k s gen else p'
      | none => p
    else if (p.bslot s).state ≠ 0 || 16384 ≤ firstFree 0 p.roll.entries then p.reject 0 0x20 0 r
    else if !e.noAdapter && ((p.adapter e.adapter).holding gen).isNone then p.reject 0 0x23 0 r
    else let (p, k) := p.enqueue 0 r; p.letIn k s gen
  else if op = 2 then
    match p.byTag (leAt r 8 8) with | some k => p.closeReq k 1 | none => p
  else if op = 3 then
    let h := leAt r 0x10 2
    let mode := leAt b 0x0B 1
    if p.dig.role = 1 then p
    else if mode = 2 then p.applyChange step false { mode := 2, handle := h, gen := 0, addr := 0, len := 0, step := step, cmd := 2 ^ 64 }
    else match (p.adapter h).holding gen with
      | some i => p.adMakeCurrent h i mode step
      | none => p
  else if op = 4 then
    if p.dig.role = 1 then p else (p.buildSide (gen % 4)).flipSides (gen % 4) (p.stepStart step)
  else p

/-- Entries of a replay's script. -/
def scriptEntries (b : List Byte) : List (List Byte) :=
  (List.range (leAt b 4 4)).map fun i => sliceB b (16 + 160 * i) 160
/-- The script in force: a replay's, or the entries held. -/
def Pkg.script (p : Pkg) : List (List Byte) :=
  match p.job.cur with
  | some c => match c.replay with | some r => scriptEntries r.1 | none => p.roll.script
  | none => p.roll.script
def Pkg.runScript (p : Pkg) (step : Nat) : Pkg :=
  let es := p.script.filter fun b => decide (leAt b 0 8 = step)
  let p := es.foldl (Pkg.scriptStep step) p
  p.updRoll fun r => { r with script := r.script.filter fun b => decide (step < leAt b 0 8) }

/-- A tutor's decisions at a boundary for the one that follows (R423). -/
def Pkg.tutorDecide (p : Pkg) (step : Nat) : Pkg :=
  let next := step + 1
  let p := (p.roll.entries.filter fun x => x.2.cancel && (decide (x.2.state = 1) || decide (x.2.state = 2))).foldl
    (fun (p : Pkg) x => p.mirror (scriptEntry next 0 2 0 0 x.2.record)) p
  let p := p.roll.changes.foldl (fun (p : Pkg) c =>
    if c.step = 0 || c.step = next then p.mirror (scriptEntry next 0 3 c.mode c.gen (leBytes 16 0 ++ leBytes 2 c.handle)) else p) p
  let p := p.updRoll fun r => { r with changes := r.changes.map fun c => if c.step = 0 then { c with step := next } else c }
  let p := match p.wgt.pending with
    | some (n, t, _) => if t = p.stepStart next then p.mirror (scriptEntry next 0 4 0 n []) else p
    | none => p
  p.admission (some next)
/-- A tutor's adapter changes whose step has come. -/
def Pkg.tutorChanges (p : Pkg) (step : Nat) : Pkg :=
  let due := p.roll.changes.filter fun c => decide (c.step ≠ 0) && decide (c.step ≤ step)
  let p := p.updRoll fun r => { r with changes := r.changes.filter fun c => decide (c.step = 0) || decide (step < c.step) }
  due.foldl (Pkg.applyChange step false) p

/-! The step boundary (R337 to R345). -/

/-- Requests that fail at the boundary that begins step `k`, by what an earlier step reports in which they were ACTIVE: batch
slot and cause (R340, R484). -/
def Pkg.failing (p : Pkg) (k : Nat) : List (Nat × Nat) :=
  let act := p.homes.filter fun s => decide ((p.bslot s).state = 1)
  act.filterMap fun s =>
    match p.dig.reports.find? fun r =>
        decide (r.2.2 < k) && decide ((p.bslot s).first ≤ r.2.2) && (decide (r.1 = none) || decide (r.1 = some s)) with
    | some r => some (s, causeOf r.2.1)
    | none => none

/-- Steps 1 to 3 of R337 on what step `k` delivered; `tick` is the boundary. -/
def Pkg.commitStep (p : Pkg) (tick : Nat) (closeCancels : Bool) : Pkg :=
  let due := p.roll.inbound.filter fun r => decide (r.due < tick)
  let p := p.updRoll fun x => { x with inbound := x.inbound.filter fun r => decide (tick ≤ r.due) }
  let p := due.foldl Pkg.takeRec p
  let recs := p.roll.recs.filter fun r => decide (r.due < tick)
  let p := p.updRoll fun x => { x with recs := x.recs.filter fun r => decide (tick ≤ r.due) }
  let p := (p.roll.upset.map fun x => x.1 / 32).foldl Pkg.readEntry p
  let k := p.stepOf tick
  let fails := p.failing k
  let act := p.homes.filter fun s => decide ((p.bslot s).state = 1)
  let p := (act.filter fun s => !(fails.any fun x => decide (x.1 = s))).foldl
    (fun (p : Pkg) s => p.commitSlot s tick (recs.filter fun r => decide (r.slot = s))) p
  let p := fails.foldl (fun (p : Pkg) x => p.closeReq (p.bslot x.1).entry x.2) p
  let p := p.updDig fun g => { g with reports := g.reports.filter fun r => decide (k ≤ r.2.2) }
  if closeCancels then
    (p.roll.entries.filter fun x => x.2.cancel).foldl (fun (p : Pkg) x => p.closeReq x.1 1) p
  else p

/-- A batch-table row (R342). -/
def Pkg.batchRow (p : Pkg) (s : Nat) : List Byte :=
  let b := p.bslot s
  if b.state ≠ 1 then List.replicate 64 0#8
  else
    let e := p.entry b.entry
    padTo 64 (leBytes 1 1 ++ leBytes 1 (b2n b.new + 2 * b2n b.adChanged + 4 * b2n e.noAdapter + 8 * b2n e.specEn) ++
      leBytes 2 b.entry ++ leBytes 2 e.adapter ++ leBytes 2 0 ++ leBytes 4 e.gen ++ leBytes 4 e.promptLen ++ leBytes 8 e.seed ++
      leBytes 8 e.promptAddr ++ leBytes 4 e.committed ++ leBytes 4 e.prov ++ leBytes 8 e.kvPages ++ leBytes 4 e.tokensOut)

/-- Step 7 of R337 for the step that begins. -/
def Pkg.publish (step : Nat) (p : Pkg) : Pkg :=
  let p := p.homes.foldl (fun (p : Pkg) s =>
    p.writeStacks (0xBF0000000 + step % 2 * 0x10000 + 64 * s) (p.batchRow s)) p
  let p := p.homes.foldl (fun (p : Pkg) s =>
    if (p.bslot s).new || (p.bslot s).adChanged then p.updSlot s fun b => { b with new := false, adChanged := false } else p) p
  p.publishAdapters

/-- Step 8 of R337 with the bound of R345; `had` records waited before the boundary. DESIGN CHOICE (log entry 131): FINAL records
beyond the bound wait, as it were, in their CLOSED entries, which hold all that they say. -/
def Pkg.postBoundary (had : Nat) (p : Pkg) : Pkg :=
  let room := if p.fon F.rollCtrlEgressEn 0 && !p.drive && !p.host.d3hot then
      2 ^ p.egSize - ringUsed (p.fget F.rollEgressHead 0) (p.fget F.rollEgressTail 0) else 0
  let p := if 16384 + room < p.roll.backlog.length then
      let act := p.roll.entries.filter fun x => decide (x.2.state = 2)
      let p := p.updRoll fun r =>
        { r with backlog := r.backlog.take had ++ (r.backlog.drop had).filter fun e =>
            !(decide (e.kind = 3) && act.any fun x => decide (x.1 = e.entry)) }
      let p := act.foldl (fun (p : Pkg) x => p.closeReq x.1 0x18) p
      p.log1 .roll 0 0x00A0 0 (some 8)
    else p
  p.egress

/-- DRAINING slots count down (R330). -/
def Pkg.drainSlots (p : Pkg) : Pkg :=
  p.roll.slots.foldl (fun (p : Pkg) x =>
    if x.2.state = 2 then
      p.updSlot x.1 fun b => if b.drain ≤ 1 then .init else { b with drain := b.drain - 1 }
    else p) p

/-- A pending change of the tutor role takes effect at a boundary (R423, R425). -/
def Pkg.roleBoundary (p : Pkg) (step : Nat) : Pkg :=
  if p.dig.pendingRole = 1 && p.dig.beginStep ≤ step then
    let p := (p.updDig fun g => { g with role := 1, pendingRole := 0 }).fset F.dlogShadowRole 0 1
    p.endOp 0x0058 0 0 0
  else if p.dig.pendingRole = 4 then
    let p := (p.updDig fun g => { g with role := 0, pendingRole := 0 }).fset F.dlogShadowRole 0 0
    p.endOp 0x0059 0 0 0
  else p

/-- The boundary that begins step `step` (R337). -/
def Pkg.boundary (p : Pkg) (step : Nat) : Pkg :=
  let had := p.roll.backlog.length
  let p := p.updRoll fun r => { r with lastStep := step + 1 }
  let p := (p.roleBoundary step).drainSlots
  let tutor := decide (p.dig.role = 1)
  let p := p.commitStep (p.stepStart step) (!p.scripted && !tutor)
  let p := p.scanAll
  let p :=
    if p.scripted then (p.applyChanges step true).runScript step
    else if tutor then (p.tutorChanges step).runScript step |>.tutorDecide step
    else (p.applyChanges step false).admission none
  let p := p.publish step
  p.postBoundary had

end Sys2Proof.Machine
end

