-- ==== Sys2Proof/Machine/Loader.lean ====
section
/-! DEFINITION. The loader: the image format and checks 1 to 8 of R50, relocation and checks 9 to 11, placement
(R29, R38 to R58, R177, R183, R198, R202, R247, R249, R251, R255, R270, R306, R312, R313, R407). -/
namespace Sys2Proof.Machine

open Sys2Proof

/-! The image file (R38 to R40). -/

def zeroAt (b : List Byte) (off n : Nat) : Bool := (sliceB b off n).all fun x => decide (x = 0#8)

/-- The directory: type, offset, length of every section (R39). -/
def imgDir (b : List Byte) : List (Nat × Nat × Nat) :=
  (List.range (leAt b 6 2)).map fun i => (leAt b (0x100 + 32 * i) 2, leAt b (0x108 + 32 * i) 8, leAt b (0x110 + 32 * i) 8)

/-- The header fields lie in their ranges and sets, reserved bytes are 0 (R38). -/
def imgHeaderOk (b : List Byte) : Bool :=
  decide (256 ≤ b.length) && decide (leAt b 0 4 = 0x31495454) && decide (leAt b 4 2 = 1) &&
  decide (1 ≤ leAt b 6 2) && decide (leAt b 6 2 ≤ 4096) && [12, 14, 16].contains (leAt b 0x0A 1) &&
  [6, 8].contains (leAt b 0x0B 1) && decide (leAt b 0x0E 2 < 2) && decide (1024 ≤ leAt b 0x10 4) &&
  decide (leAt b 0x10 4 ≤ 16777215) && decide (1 ≤ leAt b 0x18 4) && decide (leAt b 0x18 4 ≤ 16384) &&
  zeroAt b 0x30 16 && zeroAt b 0xA0 96

/-- Neighbours in offset order do not overlap. -/
def spansApart : List (Nat × Nat) → Bool
  | (a, n) :: (c, m) :: r => decide (a + n ≤ c) && spansApart ((c, m) :: r)
  | _ => true

/-- Sections lie apart, aligned and inside the file, behind the directory; types and counts are those of R40. -/
def imgDirOk (b : List Byte) : Bool :=
  let d := imgDir b
  let dend := 0x100 + 32 * leAt b 6 2
  let spans := (d.filter fun s => decide (s.2.2 ≠ 0)).map fun s => (s.2.1, s.2.2)
  decide (dend ≤ b.length) &&
  (d.all fun s => decide (s.2.1 % 256 = 0) && decide (dend ≤ s.2.1) && decide (s.2.1 + s.2.2 ≤ b.length) &&
    (decide (1 ≤ s.1 ∧ s.1 ≤ 8) || decide (0x80 ≤ s.1 ∧ s.1 ≤ 0xFF))) &&
  spansApart (isort (fun x y => decide (x.1 ≤ y.1)) spans) &&
  [1, 5, 6, 7, 8].all fun t => decide ((d.filter fun s => decide (s.1 = t)).length = 1)

def imgSec (b : List Byte) (s : Nat × Nat × Nat) : List Byte := sliceB b s.2.1 s.2.2
def imgSecs (b : List Byte) (t : Nat) : List (List Byte) := ((imgDir b).filter fun s => decide (s.1 = t)).map (imgSec b)
def imgOne (b : List Byte) (t : Nat) : List Byte := (imgSecs b t).headD []

/-- FENSET (R40). -/
def imgFens (b : List Byte) : List Nat :=
  let m := imgOne b 1
  (List.range 256).filter fun l => bit (m.getD (l / 8) 0#8) (l % 8)

/-- A CODE section (R202). -/
def codeOk (fens : List Nat) (c : List Byte) : Bool :=
  let n := leAt c 4 4
  let pc (o : Nat) : Bool := decide (leAt c o 4 % 8 = 0) && decide (leAt c o 4 < n)
  decide (0x40 ≤ c.length) && fens.contains (leAt c 0 2) && decide (n % 8 = 0) && decide (8 ≤ n) && decide (n ≤ 1048576) &&
  pc 8 && pc 0xC && pc 0x10 && decide (c.length = 0x40 + n)
def codePins (c : List Byte) : List Nat := (List.range 256).filter fun q => bit (c.getD (0x20 + q / 8) 0#8) (q % 8)
def codePinsOk (c : List Byte) : Bool :=
  decide ((codePins c).length ≤ 4) && (codePins c).all fun q => decide (q < cdiv (leAt c 4 4) 4096)

/-- A CONST record (R177). -/
structure ConstRec where
  kind : Nat
  fen : Nat
  dest : Nat
  data : List Byte
deriving DecidableEq, Repr

/-- The records of a CONST section; none when one is cut short. -/
def constRecs : Nat → List Byte → Option (List ConstRec)
  | _, [] => some []
  | 0, _ => none
  | k + 1, b =>
    let n := leAt b 4 4
    if b.length < 32 + n || n = 0 then none
    else
      (constRecs k (b.drop (32 + cdiv n 32 * 32))).map fun r =>
        { kind := leAt b 0 1, fen := leAt b 1 1, dest := leAt b 8 8, data := sliceB b 32 n } :: r
def imgConsts (b : List Byte) : List (Option (List ConstRec)) := (imgSecs b 3).map fun s => constRecs (s.length / 32 + 1) s
def constOk (fens : List Nat) (r : Option (List ConstRec)) : Bool :=
  match r with
  | none => false
  | some l => l.all fun c => decide (1 ≤ c.kind ∧ c.kind ≤ 3) && (decide (c.kind ≠ 1) || fens.contains c.fen)

/-- RELOC sections (R53). -/
def relocOk (s : List Byte) : Bool := decide (s.length % 16 = 0) && (chunksOf 16 s).all fun r => decide (leAt r 2 2 = 0)

/-- No key twice. -/
def distinct : List Nat → Bool
  | [] => true
  | a :: r => !r.contains a && distinct r

/-- Records of 8 bytes behind an 8-byte header with COUNT (R247, R249). -/
def rec8 (s : List Byte) : List (List Byte) := (chunksOf 8 (s.drop 8)).take (leAt s 0 4)
def rec8Ok (s : List Byte) : Bool := decide (8 ≤ s.length) && decide (8 + 8 * leAt s 0 4 ≤ s.length)

def sluiceSecOk (fens : List Nat) (s : List Byte) : Bool :=
  let r := rec8 s
  rec8Ok s && (r.all fun x => fens.contains (leAt x 0 1) && decide (leAt x 1 1 < 4) && decide (leAt x 2 1 ≤ 1)) &&
  distinct (r.map fun x => leAt x 0 1 * 4 + leAt x 1 1)

/-- Refresh windows: tick, stack, planning bank (R249). -/
def windows (s : List Byte) : List (Nat × Nat × Nat) := (rec8 s).map fun x => (leAt x 0 4, leAt x 4 1, leAt x 5 1 % 16)
/-- Starts of one stack in order: 8 ticks apart, at most four in any tick. -/
def startsOk : List Nat → Bool
  | [] => true
  | a :: r =>
    (match r.head? with | some b => decide (a + 8 ≤ b) | none => true) &&
    (match r[3]? with | some b => decide (a + 160 ≤ b) | none => true) && startsOk r
def apart160 : List Nat → Bool
  | a :: b :: r => decide (a + 160 ≤ b) && apart160 (b :: r)
  | _ => true
def rising : List Nat → Bool
  | a :: b :: r => decide (a ≤ b) && rising (b :: r)
  | _ => true
def refreshSecOk (stepTicks : Nat) (s : List Byte) : Bool :=
  let w := windows s
  rec8Ok s && rising (w.map Prod.fst) && (w.all fun x => decide (x.1 + 160 ≤ stepTicks) && decide (x.2.1 < 8)) &&
  (List.range 8).all fun k =>
    let u := w.filter fun x => decide (x.2.1 = k)
    startsOk (u.map Prod.fst) && (List.range 16).all fun bk => apart160 ((u.filter fun x => decide (x.2.2 = bk)).map Prod.fst)

/-- DIGEST entries (R407). -/
def digestPoints (s : List Byte) : List (List Byte) := (chunksOf 32 (s.drop 16)).take (leAt s 0 4)
def pointOk (fens : List Nat) (stepTicks : Nat) (b : List Byte) : Bool :=
  let d := DPoint.parse b
  let units := d.beats / max 1 d.ub
  fens.contains d.fen && decide (d.kind ≤ 4) &&
  (if d.kind = 2 then decide (1 ≤ d.nrun ∧ d.nrun ≤ 9) else decide (d.nrun = 1)) &&
  decide (d.saddr % 512 = 0) && decide (1 ≤ d.beats) && decide (d.saddr + 512 * d.beats ≤ 10485760) &&
  decide (1 ≤ d.ub) && decide (d.beats % d.ub = 0) && decide (d.tick < stepTicks) &&
  (decide (d.kind ≠ 3 ∧ d.kind ≠ 4) || decide (d.beats = 1)) &&
  (if d.kind = 1 then decide (d.slot0 + units ≤ 1024)
   else if d.kind = 2 then decide (d.slot0 + (units - 1) / max 1 d.nrun < 1024) else true)
def digestSecOk (fens : List Nat) (stepTicks : Nat) (s : List Byte) : Bool :=
  let n := leAt s 0 4
  decide (16 + 32 * n ≤ s.length) && decide (1 ≤ n ∧ n ≤ 65536) && (digestPoints s).all (pointOk fens stepTicks)

/-! The SLOTS section (R270, R306). -/

/-- Bytes of one slot bitmap. -/
def slotBytes (stepTicks : Nat) : Nat := cdiv (cdiv (nslot stepTicks) 8) 8 * 8
def portsOf (mask : Nat) : List Nat := (List.range 16).filter fun q => decide (mask / 2 ^ q % 2 = 1)

/-- Bit indexes set in the bitmap of the i-th port that has a table. -/
def slotBits (stepTicks : Nat) (s : List Byte) (i : Nat) : List Nat :=
  let t := sliceB s (16 + i * slotBytes stepTicks) (slotBytes stepTicks)
  (t.zipIdx.map fun x => ((List.range 8).filter fun k => bit x.1 k).map fun k => 8 * x.2 + k).flatten
/-- Where the transit table of each port with a table begins, and its reserved slots. -/
def transitSpans : Nat → List (Nat × List Nat) → List (Nat × Nat × List Nat)
  | _, [] => []
  | o, (q, l) :: r => (q, o, l) :: transitSpans (o + cdiv l.length 8 * 8) r

/-- Outputs of a logical fen that cross a causeway between two compute dies, in the order N, S, E, W (R306). -/
def crossings (w l : Nat) : List Nat :=
  let r := l / w
  let c := l % w
  (if r = 8 then [0] else []) ++ (if r = 7 then [1] else []) ++ (if c + 1 = w / 2 then [2] else []) ++
  (if c = w / 2 then [3] else [])

structure SlotSec where
  nslot : Nat
  mask : Nat
  slots : List (Nat × List Nat)
  /-- start of the fabric part -/
  fab : Nat
  plog : Nat
  transitLen : Nat
  spans : List (Nat × Nat × List Nat)
  /-- start of the router patterns -/
  pat : Nat
deriving DecidableEq, Repr

def SlotSec.parse (stepTicks : Nat) (s : List Byte) : SlotSec :=
  let mask := leAt s 4 2
  let qs := portsOf mask
  let fab := 16 + qs.length * slotBytes stepTicks
  let slots := qs.zipIdx.map fun x => (x.1, slotBits stepTicks s x.2)
  let tl := leAt s (fab + 8) 8
  { nslot := leAt s 0 4, mask := mask, slots := slots, fab := fab, plog := leAt s fab 1, transitLen := tl,
    spans := transitSpans (fab + 16) slots, pat := fab + 16 + tl }

/-- Length of a pattern in bytes. -/
def SlotSec.patLen (x : SlotSec) : Nat := 2 ^ x.plog / 4

def slotSecOk (single : Bool) (w stepTicks : Nat) (fens : List Nat) (s : List Byte) : Bool :=
  let x := SlotSec.parse stepTicks s
  let n := nslot stepTicks
  decide (16 ≤ s.length) && decide (x.nslot = n) && (decide (x.mask = 0) || !single) && decide (x.fab + 16 ≤ s.length) &&
  (x.slots.all fun p => p.2.all fun k => decide (k < n)) && decide (4 ≤ x.plog ∧ x.plog ≤ 12) &&
  decide (x.transitLen = (x.slots.map fun p => cdiv p.2.length 8 * 8).foldl (· + ·) 0) &&
  (x.spans.all fun p => (sliceB s p.2.1 p.2.2.length).all fun b =>
    decide (b = 0xFF#8) || ((portsOf x.mask).contains b.toNat && decide (b.toNat ≠ p.1))) &&
  decide (s.length = x.pat + x.patLen * (5 * fens.length + ((fens.map fun l => (crossings w l).length).foldl (· + ·) 0)))

/-- The patterns of the fens in order: key fen * 8 + output. -/
def patternsAt (s : List Byte) (len : Nat) : Nat → List Nat → AMap (List Byte)
  | _, [] => []
  | o, k :: r => (k, sliceB s o len) :: patternsAt s len (o + len) r

/-! Tables and image. -/

def imgTables (b : List Byte) : PlanTables :=
  let st := leAt b 0x10 4
  let fens := imgFens b
  let s := imgOne b 6
  let x := SlotSec.parse st s
  let ks := (fens.map fun l => (List.range 5).map fun o => l * 8 + o).flatten
  let cs := (fens.map fun l => (crossings (leAt b 0x0A 1) l).map fun o => l * 8 + o).flatten
  { portMask := x.mask, slots := x.slots, transit := x.spans.map fun p => (p.1, (sliceB s p.2.1 p.2.2.length).map BitVec.toNat),
    plog := x.plog, patterns := patternsAt s x.patLen x.pat ks,
    chan := patternsAt s x.patLen (x.pat + x.patLen * ks.length) cs,
    refresh := windows (imgOne b 7),
    sluices := (rec8 (imgOne b 5)).foldl (fun m r => AMap.put m (leAt r 0 1 * 4 + leAt r 1 1) (leAt r 2 1, leAt r 4 4)) [],
    points := digestPoints (imgOne b 8) }
def imgParse (b : List Byte) : Image :=
  { bytes := b, hash := sliceB b 0x40 48, manifest := sliceB b 0x70 48, contract := leAt b 8 2,
    single := decide (leAt b 0x0E 2 % 2 = 1), stepTicks := leAt b 0x10 4, slack := leAt b 0x14 4,
    rankCount := leAt b 0x18 4, ceilCu := leAt b 0x1C 2, ceilOpt := leAt b 0x1E 2, dramBytes := leAt b 0x20 8,
    peatBytes := leAt b 0x28 8, dir := imgDir b, fenset := imgFens b }

/-- Check 1 of R50. -/
def imgFormatOk (b : List Byte) : Bool :=
  imgHeaderOk b && imgDirOk b && decide ((imgOne b 1).length = 32) &&
  (let fens := imgFens b
   let st := leAt b 0x10 4
   let codes := imgSecs b 2
   (codes.all (codeOk fens)) && distinct (codes.map fun c => leAt c 0 2) && decide (codes.length = fens.length) &&
   ((imgConsts b).all (constOk fens)) && ((imgSecs b 4).all relocOk) && sluiceSecOk fens (imgOne b 5) &&
   slotSecOk (decide (leAt b 0x0E 2 % 2 = 1)) (leAt b 0x0A 1) st fens (imgOne b 6) && refreshSecOk st (imgOne b 7) &&
   digestSecOk fens st (imgOne b 8))

/-- Check 2: IMAGE_HASH (R38). -/
def imgHashOk (b : List Byte) : Bool :=
  let h := sliceB b 0 0x40 ++ List.replicate 48 0#8 ++ sliceB b 0x70 0x90
  decide (sha384 (h ++ sliceB b 0x100 (32 * leAt b 6 2) ++ ((imgDir b).map (imgSec b)).flatten) = sliceB b 0x40 48)

/-! Capacity (R50, R55, R241, R256). -/

/-- Stacks that remain in use (R486, R491). -/
def Pkg.stacksLeft (p : Pkg) : List Nat := (List.range 8).filter fun s => p.fitted s && (p.stack s).up

/-- Regions in use: those of the running plan and of weight sets. -/
def Pkg.busyRegions (p : Pkg) : List (Nat × Nat × Nat × Nat) :=
  ((if p.planRuns then p.job.cur.toList else []).map fun c => (c.dramBase, c.img.dramBytes, c.peatBase, c.img.peatBytes)) ++ p.setRegions 4

/-- The lowest multiple of 2^30 at which `size` bytes lie below `limit` and outside every busy run. -/
def gapAt (busy : List (Nat × Nat)) (size limit : Nat) : Option Nat :=
  if size = 0 then some 0
  else ((List.range (limit / 2 ^ 30 + 1)).map fun k => k * 2 ^ 30).find? fun a =>
    decide (a + size ≤ limit) && busy.all fun r => !overlaps a size r.1 r.2
def Pkg.placeBases (p : Pkg) (img : Image) : Option (Nat × Nat) :=
  let r := p.busyRegions
  match gapAt (r.map fun x => (x.1, x.2.1)) img.dramBytes 0xBC0000000,
        gapAt (r.map fun x => (x.2.2.1, x.2.2.2)) img.peatBytes p.peatBytes with
  | some a, some b => some (a, b)
  | _, _ => none

/-- Ways of a fen's instruction cache that are retired for the next placement (R198, R205). -/
def Pkg.retiredWays (p : Pkg) (f : Nat) : List Nat :=
  let r := (p.fen f).proc.icache.retired
  let w := p.fget F.fenIcacheRetiredWay f
  if p.fon F.fenIcacheRetire f && !r.contains w then r ++ [w] else r

/-- A CONST destination lies in its slab or region (R177). -/
def Pkg.constFits (p : Pkg) (img : Image) (c : ConstRec) : Bool :=
  let n := c.data.length
  if c.kind = 1 then decide (c.dest + n ≤ 10485760)
  else if c.kind = 2 then
    decide (nbits c.dest 63 39 = 0) && p.stacksLeft.contains (nbits c.dest 38 36) && decide (nbits c.dest 35 0 + n ≤ img.dramBytes)
  else decide (c.dest + n ≤ img.peatBytes)

/-- Check 8. -/
def Pkg.imgFits (p : Pkg) (img : Image) : Bool :=
  let codes := imgSecs img.bytes 2
  (codes.all fun c => codePinsOk c &&
    (match p.mapFen (leAt c 0 2) with
     | some f => decide ((codePins c).length < 4) || decide ((p.retiredWays f).length < 2)
     | none => true)) &&
  ((imgConsts img.bytes).all fun r => (r.getD []).all (p.constFits img)) && (p.placeBases img).isSome

/-! Refresh cover (R248, R251). -/

/-- tREFW of a band in ns. -/
def trefw (band : Nat) : Nat := 32000000 / 2 ^ band
/-- Windows per step that each planning bank needs in a band. -/
def Pkg.windowsNeeded (p : Pkg) (stepTicks band : Nat) : Nat :=
  cdiv (4096 * stepTicks * 2 * (20 * (if p.reduced then 2 else 1))) (21 * trefw band)
/-- The table covers a band for a stack. -/
def Pkg.covers (p : Pkg) (img : Image) (w : List (Nat × Nat × Nat)) (s band : Nat) : Bool :=
  (List.range 16).all fun bk =>
    decide (p.windowsNeeded img.stepTicks band ≤ (w.filter fun x => decide (x.2.1 = s) && decide (x.2.2 = bk)).length)
/-- The highest band covered. -/
def Pkg.cover (p : Pkg) (img : Image) (w : List (Nat × Nat × Nat)) (s : Nat) : Option Nat :=
  ([2, 1, 0].find? fun b => p.covers img w s b)
/-- Check 7. -/
def Pkg.refreshOk (p : Pkg) (img : Image) (w : List (Nat × Nat × Nat)) : Bool :=
  p.stacksLeft.all fun s =>
    let b := p.fget F.sdramThermBand s
    decide (b < 3) && p.covers img w s b
/-- SDRAM.THERM.COVER of every stack. -/
def Pkg.setCover (p : Pkg) (img : Image) (w : List (Nat × Nat × Nat)) : Pkg :=
  p.stacksLeft.foldl (fun (p : Pkg) s => p.fset F.sdramThermCover s ((p.cover img w s).getD 0)) p

/-- Checks 1 to 8 of R50: the status of the first that fails, 0 when all pass. -/
def Pkg.loadCheck (p : Pkg) (b : List Byte) : Nat :=
  let img := imgParse b
  let st := img.stepTicks
  if !imgFormatOk b then 0x0101
  else if !imgHashOk b then 0x0102
  else if !(img.contract = 1 || (img.contract = 2 && p.part.b0)) then 0x0103
  else if !(leAt b 0x0A 1 = p.meshW && leAt b 0x0B 1 ≤ p.stacksLeft.length &&
      (img.fenset.all fun l => decide (l < 16 * p.meshW)) && leAt b 0x0C 2 = img.fenset.length) then 0x0104
  else if img.slack < cdiv (3 * st) 100 then 0x0106
  else if (SlotSec.parse st (imgOne b 6)).slots.any fun q => q.2.any fun k => decide (k % 16 = 15) then 0x0107
  else if !p.refreshOk img (windows (imgOne b 7)) then 0x0109
  else if !p.imgFits img then 0x010B
  else 0

/-! Job states (R451). -/

def Pkg.updJob (p : Pkg) (g : Job → Job) : Pkg := { p with job := g p.job }
def Pkg.jobTo (p : Pkg) (st : Nat) : Pkg := p.updJob fun j => { j with state := st }

/-- LOAD_PLAN as taken, its field checks done (R50, R444). -/
def Pkg.loadPlan (p : Pkg) (c : Cmd) : Pkg :=
  if 3 ≤ p.job.state && p.job.state ≤ 5 then p.final c 7 0 0
  else if pkgCls (c.le 0x10 8) ≠ 0 then p.final c 4 0 0
  else
    let (p, got) := p.getInput (c.le 0x10 8) (c.le 0x18 8) 1
    match got with
    | .error e => p.final c e 0 0
    | .ok b =>
      let st := p.loadCheck b
      if st ≠ 0 then p.final c st 0 0
      else
        let img := imgParse b
        let tab := imgTables b
        let p := (p.updJob fun j => { j with image := some (img, tab), next := none }).jobTo 1
        let p := if p.planRuns then p else p.setCover img tab.refresh
        p.done c (leAt img.hash 0 8) 0

/-! RELOCATE (R51 to R56). -/

/-- Width of a relocation field (R54). -/
def relocWidth (t : Nat) : Option Nat := if t = 1 || t = 2 || t = 3 then some 8 else if t = 4 then some 2 else none
def imgRelocs (b : List Byte) : List (List Byte) := ((imgSecs b 4).map (chunksOf 16)).flatten
/-- Check 11. -/
def relocsOk (img : Image) : Bool :=
  (imgRelocs img.bytes).all fun r =>
    match relocWidth (leAt r 0 1), img.dir[leAt r 1 1]? with
    | some w, some s => decide (leAt r 4 4 + w ≤ s.2.2)
    | _, _ => false
/-- Base of the adapter table (R347). -/
def adapterBase : Nat := 0xBE0000000

/-- One relocation record applied to the loaded copy (R54). -/
def applyReloc (dir : List (Nat × Nat × Nat)) (db pb rank : Nat) (b r : List Byte) : List Byte :=
  match relocWidth (leAt r 0 1), dir[leAt r 1 1]? with
  | some w, some s =>
    let v := (if leAt r 0 1 = 1 then db else if leAt r 0 1 = 2 then pb else if leAt r 0 1 = 3 then adapterBase else rank) + leAt r 8 8
    let o := s.2.1 + leAt r 4 4
    b.take o ++ leBytes w v ++ b.drop (o + w)
  | _, _ => b
/-- The loaded copy of a relocated plan's file. -/
def PlanInst.patched (n : PlanInst) : List Byte :=
  (imgRelocs n.img.bytes).foldl (applyReloc n.img.dir n.dramBase n.peatBase n.selfRank) n.img.bytes

/-- Check 10: every port with a table has a measured latency within its ceiling. -/
def Pkg.latencyOk (p : Pkg) (img : Image) (mask : Nat) : Bool :=
  (portsOf mask).all fun q =>
    let l := p.fget F.issynLatencyLatTicks q
    decide (0 < l) && decide (l ≤ if p.fon F.issynCtrlMedium q then img.ceilOpt else img.ceilCu)

/-- Logical fens that R29 leaves without a physical fen. -/
def Pkg.unmappedFens (p : Pkg) (img : Image) : List Nat := img.fenset.filter fun l => (p.mapFen l).isNone

/-- The rank table of a RELOCATE record (R312, R313). -/
def rankTable (b : List Byte) (self : Nat) : RankTable :=
  ((chunksOf 8 b).zipIdx.filterMap fun x =>
    let w := setBits (BitVec.ofNat 64 (leAt x.1 0 8) &&& 0x3FFF7F#64) 1 1 (b2n (decide (x.2 = self)))
    if w = 0#64 then none else some (x.2, w))

/-! Placement (R51, R198, R255). -/

/-- Repair of one listed row (R255). -/
def Pkg.pprRow (s : Nat) (p : Pkg) (k : Nat) : Pkg :=
  let x := p.stack s
  if x.sparesUsed.getD (spareKey k) 0 = 0 then
    let p := p.setStack s { x with sparesUsed := AMap.put x.sparesUsed (spareKey k) 1, ceCount := AMap.erase x.ceCount k,
                                   repairList := x.repairList.filter fun r => r ≠ k }
    let bad := p.dram.raw.filter fun w => decide (w.1 / 2 ^ 36 = s) && decide ((sdramMap w.1).rowKey = k)
    let p := bad.foldl (fun (p : Pkg) w =>
      match eccDecode w.2 with
      | .ok d => p.dramPut w.1 d
      | .corrected d => p.dramPut w.1 d
      | .bad => p.dramPoison w.1) p
    ((p.fset F.sdramPprPending s (p.stack s).repairList.length).fadd F.sdramPprDone s 1).log1 .sdram s 0x0077 0 none
  else ((p.fset F.sdramPprSparesOut s 1).log1 .sdram s 0x0078 0 none).replace 3
def Pkg.ppr (p : Pkg) : Pkg :=
  p.stacksLeft.foldl (fun (p : Pkg) s => (p.stack s).repairList.foldl (Pkg.pprRow s) p) p

/-- A fen reset (R468, R469). Fetches of its instruction cache end with it. -/
def Fen.reset (f : Fen) : Fen :=
  let e := f.emptied
  { e with clk := .init, hard := false,
           proc := { e.proc with icache := { e.proc.icache with lines := [], lru := [], pins := [], want := [], bad := [] } } }
def Pkg.dropFetches (p : Pkg) (f : Nat) : Pkg :=
  let req (r : DReq) : Bool := decide (r.fen = f) && decide (r.slu = 4)
  let ret (r : DRet) : Bool := decide (r.fen = f) && decide (r.slu = 4)
  { p with
    mesh := p.mesh.filter fun m => !(m.reqs.any req || m.rets.any ret),
    dram := { p.dram with queue := p.dram.queue.filter fun r => !req r, returns := p.dram.returns.filter fun r => !ret r,
                          out := p.dram.out.filter fun z => !ret z.2 } }
def Pkg.fenReset (p : Pkg) (f : Nat) : Pkg :=
  if p.fused f then p
  else
    let p := (p.updFen f Fen.reset).dropFetches f
    (p.setReg .fen f 0x118 0#64).setReg .fen f 0x120 0#64

/-- Pinned pages of a code, one per way from way 0 (R198). -/
def pinLines (ways pins : List Nat) : AMap Nat :=
  ((ways.zip pins).map fun x => (List.range 64).map fun s => (x.1 * 64 + s, x.2 * 64 + s)).flatten

/-- The code of one logical fen goes to the loader-reserved area of its die's stacked DRAM, and its pinned pages into the
cache (R198, R241). -/
def Pkg.placeCode (n : PlanInst) (p : Pkg) (c : List Byte) : Pkg :=
  match n.fmap.find? (leAt c 0 2) with
  | none => p
  | some f =>
    let ret := p.retiredWays f
    let ic : ICache := { (p.fen f).proc.icache with retired := ret, spareInUse := !ret.isEmpty }
    let ways := ic.ways.filter fun w => decide (w < 4)
    let ic := { ic with pins := codePins c, lines := pinLines ways (codePins c) }
    let p := p.updFen f fun x =>
      let r : ProcCsr :=
        { x.proc.csr with
          entry := BitVec.ofNat 64 (leAt c 0xC 4), resume := BitVec.ofNat 64 (leAt c 0x10 4),
          selfFen := BitVec.ofNat 64 (leAt c 0 2), selfRank := BitVec.ofNat 64 n.selfRank,
          dramBase := BitVec.ofNat 64 n.dramBase, peatBase := BitVec.ofNat 64 n.peatBase,
          adapterBase := BitVec.ofNat 64 adapterBase }
      { x with proc := { x.proc with code := sliceB c 0x40 (leAt c 4 4), initPc := leAt c 8 4, icache := ic, csr := r } }
    (p.memWrite 0 (codeAddr f) (sliceB c 0x40 (leAt c 4 4))).fset F.fenIcacheSpareInUse f (b2n (!ret.isEmpty))

/-- One CONST record (R177). -/
def Pkg.placeConst (n : PlanInst) (p : Pkg) (c : ConstRec) : Pkg :=
  if c.kind = 1 then
    match n.fmap.find? c.fen with
    | some f => p.slabWrite f c.dest c.data false
    | none => p
  else if c.kind = 2 then p.memWrite 0 (c.dest + n.dramBase) c.data
  else p.memWrite 1 (c.dest + n.peatBase) c.data

/-- FEN.MAP and the steering of every clocked fen (R51, R60). -/
def Pkg.placeMap (n : PlanInst) (p : Pkg) (f : Nat) : Pkg :=
  if p.fused f then p
  else
    match List.find? (fun (x : Nat × Nat) => decide (x.2 = f)) n.fmap with
    | some (l, _) => (p.fset F.fenMapLogical f l).fset F.fenMapMapped f 1
    | none => (p.fset F.fenMapLogical f 0).fset F.fenMapMapped f 0

/-- The placement of a plan on the fens usable now; none when check 9 fails as the marks stand (R51, R52). -/
def Pkg.place (p : Pkg) (n : PlanInst) : Option (Pkg × PlanInst) :=
  if !n.acceptHoles && !(p.unmappedFens n.img).isEmpty then none
  else
    let n := { n with fmap := n.img.fenset.filterMap fun l => (p.mapFen l).map fun f => (l, f), placed := true }
    let p := (List.range 4).foldl (fun p d => Pkg.dredgeFinish d p) p
    let p := (List.range 288).foldl Pkg.fenReset p
    let p := (List.range 288).foldl (fun (p : Pkg) f => if p.fused f then p else p.setReg .fen f 0x108 0#64) p
    let p := (List.range 288).foldl (Pkg.placeMap n) p
    let b := n.patched
    let p := (imgSecs b 2).foldl (Pkg.placeCode n) p
    let p := (imgConsts b).foldl (fun (p : Pkg) r => (r.getD []).foldl (Pkg.placeConst n) p) p
    some ({ p with rank := n.rt }, n)

/-- RELOCATE as taken, its field checks done but the rank (R50 to R56, R444). -/
def Pkg.relocate (p : Pkg) (c : Cmd) : Pkg :=
  match p.job.image with
  | none => p.final c 7 0 0
  | some (img, tab) =>
    let self := c.le 0x10 2
    let holes := decide (c.le 0x12 2 % 2 = 1)
    if !(p.job.state = 1 || p.job.state = 2) then p.final c 7 0 0
    else if img.rankCount ≤ self then p.final c 2 0 0
    else
      let p := if p.planRuns then p else p.ppr
      let (p, got) := p.getInput (c.le 0x18 8) (8 * img.rankCount) 1
      match got with
      | .error e => p.final c e 0 0
      | .ok rt =>
        if !holes && !(p.unmappedFens img).isEmpty then p.final c 0x0105 0 0
        else if !p.latencyOk img tab.portMask then p.final c 0x0108 0 0
        else if !relocsOk img then p.final c 0x010A 0 0
        else
          match p.placeBases img with
          | none => p.final c 0x010B 0 0
          | some (db, pb) =>
            let n : PlanInst :=
              { img := img, tab := tab, selfRank := self, acceptHoles := holes, dramBase := db, peatBase := pb, fmap := [],
                rt := rankTable rt self, placed := false, filled := false, wset := none, arm := none, startTick := 0,
                stepBase := 0, replay := none }
            if p.planRuns then
              ((p.updJob fun j => { j with next := some n }).jobTo 2).done c db pb
            else
              match p.place n with
              | some (p, n) => ((p.updJob fun j => { j with next := some n }).jobTo 2).done c db pb
              | none => p.final c 0x0105 0 0

/-- INIT, ENTRY and RESUME of every fen of a plan take the values of the CODE header; START_TICK and STEP_TICKS are
set (R183, R197). -/
def Pkg.startCsrs (p : Pkg) (n : PlanInst) : Pkg :=
  (imgSecs n.img.bytes 2).foldl (fun (p : Pkg) c =>
    match n.fmap.find? (leAt c 0 2) with
    | none => p
    | some f => p.updFen f fun x =>
      let r : ProcCsr :=
        { x.proc.csr with
          entry := BitVec.ofNat 64 (leAt c 0xC 4), resume := BitVec.ofNat 64 (leAt c 0x10 4),
          startTick := BitVec.ofNat 64 n.startTick, stepTicks := BitVec.ofNat 64 n.img.stepTicks }
      { x with proc := { x.proc with csr := r } }) p

end Sys2Proof.Machine
end

