-- ==== Sys2Proof/Machine/Job.lean ====
section
/-! DEFINITION. The job: ARM and its tree, START_AT, the handover, plan end, ABORT, replay, shadowing
(R114, R115, R328, R353, R394, R395, R415 to R425, R451 to R462). -/
namespace Sys2Proof.Machine

open Sys2Proof

/-- Log at JOB with the TB2 count (R467). -/
def Pkg.jlog (p : Pkg) (code info : Nat) (k : Option Nat) : Pkg := p.log .job 0 code p.bell.tb2.count info k

/-- A command that waits for its event; the ROM runs LOAD_PLAN, RELOCATE, ARM, TIME_REBASE and SHADOW_BEGIN one at a
time (R441). -/
def Pkg.groupBusy (p : Pkg) : Bool :=
  p.host.running.any fun c => [0x0010, 0x0011, 0x0012, 0x0058, 0x0060].contains c.opcode

/-! ARM (R453 to R457). -/

/-- One copy of an ARM on a port (R452, R453). -/
def Pkg.armCopy (c : Cmd) (fwd : Nat) (p : Pkg) (q : Nat) : Pkg :=
  let ph := p.fget F.issynPartnerAddr q
  if p.portOpen q && p.fon F.issynPartnerValid q && decide (ph / 64 = p.phys / 64) then
    let r := sliceB c.rec_ 0x10 0x28 ++ leBytes 2 fwd
    (p.queueMgmt q (ph * 2 ^ 9) ([0x60#8] ++ leBytes 7 0 ++ leBytes 8 c.tag ++ r)).fadd F.jobStatForwarded 0 1
  else p
/-- Forwarding along the row and the column (R453). -/
def Pkg.armForward (p : Pkg) (c : Cmd) : Pkg :=
  let f := c.le 0x38 2
  let rh := nbits f 6 4
  let ch := nbits f 14 12
  let p := if rh = 0 then p else p.armCopy c (f - 16) (nbits f 3 0)
  if ch = 0 then p else p.armCopy c (f - 16 * rh - 2 ^ 12) (nbits f 11 8)

/-- JOB_ID of plans in states 3 to 7 (R455). -/
def Pkg.liveJobs (p : Pkg) : List Nat :=
  (p.job.arming.toList.map fun c => c.1.le 0x10 8) ++
  ((p.job.next.toList ++ (if p.planRuns then p.job.cur.toList else [])).filterMap fun n => n.arm.map fun a => a.jobId)

/-- Home list of an ARM record: ranks of 2 bytes. -/
def homeRanks (b : List Byte) : List Nat := (chunksOf 2 b).map ofLe

/-- The end of an ARM that is not ready (R455, R457). -/
def Pkg.armFail (p : Pkg) (c : Cmd) (status r0 : Nat) : Pkg :=
  let p := (p.jlog 0x00E1 0 (some 8)).final c status r0 0
  p.armReport (c.le 0x10 8) status r0 0
/-- Refused after check 1: back to RELOCATED, the claim on the set ends. -/
def Pkg.armBack (p : Pkg) (c : Cmd) (status r0 : Nat) : Pkg :=
  let p := (p.updJob fun j => { j with arming := none, next := j.next.map fun n => { n with wset := none } }).jobTo 2
  (p.refreshSets).armFail c status r0

/-- The ready digest (R456). -/
def readyDigest (n : PlanInst) (c : Cmd) (home : List Byte) : List Byte :=
  (sha384 (n.img.hash ++ n.img.manifest ++ sliceB c.rec_ 0x10 8 ++ sliceB c.rec_ 0x28 8 ++ sha384 home ++
    aesCmac (sliceB c.rec_ 0x18 16) (sliceB c.rec_ 0x10 8) ++ leBytes 2 n.img.contract ++ leBytes 4 n.img.stepTicks ++
    leBytes 4 n.img.rankCount)).take 16

/-- A set that carries the plan's weights (R395). -/
def Pkg.armSet (p : Pkg) (n : PlanInst) : Option Nat :=
  (List.range 4).find? fun i =>
    let w := p.wset i
    (decide (w.state = 2) || decide (w.state = 4)) && decide (w.wrank = n.selfRank) && decide (sha384 w.manifest = n.img.manifest)

/-- TB2 is fit for a handover (R114, check 5). -/
def Pkg.tb2Ready (p : Pkg) : Bool :=
  p.bell.tb2.state = .locked || p.bell.tb2.state = .self || p.bell.tb2.state = .follow

/-- Checks 2 to 4 of R455, once no stack is in training (R473); a claim on the weight set says that they have passed. -/
def Pkg.armChecks (p : Pkg) (c : Cmd) (n : PlanInst) : Pkg :=
  if p.training.isSome then p
  else if !p.refreshOk n.img n.tab.refresh then p.armBack c 0x0109 0
  else
    match p.armSet n with
    | none => p.armBack c 0x020C 0
    | some i =>
      let p := (p.early c).updJob fun j => { j with next := some { n with wset := some i } }
      let p := if p.planRuns then p else p.fillWpt i
      p.refreshSets

/-- Check 5 passed: the package is ready (R114, R455 to R457). -/
def Pkg.armDone (p : Pkg) (c : Cmd) (home : List Byte) (n : PlanInst) : Pkg :=
  let d := readyDigest n c home
  let a : ArmRec :=
    { jobId := c.le 0x10 8, dkey := sliceB c.rec_ 0x18 16, batchSlots := c.le 0x28 2, drainSteps := c.le 0x2A 1,
      specMax := c.le 0x2B 1, maxCtx := c.le 0x2C 4, home := homeRanks home, params := sliceB c.rec_ 0x28 8 }
  let r0 := leAt d 0 8
  let r1 := leAt d 8 8
  let p := (p.updJob fun j => { j with arming := none, ready := d, next := some { n with arm := some a, filled := false } }).jobTo 4
  let p := (p.fset F.jobReady0DigestLo 0 r0).fset F.jobReady1DigestHi 0 r1
  let p := (p.dlogRec 2 0 0 0 0 n.img.hash).dlogRec 3 0 0 0 0 n.img.manifest
  let p := (p.jlog 0x00E0 0 none).final c 0 r0 r1
  p.armReport a.jobId 0 r0 r1

/-- ARM_READY (R455): the checks that wait, then readiness. -/
def armReady (p : Pkg) : Pkg :=
  match p.job.arming, p.job.next with
  | some (c, _), some n =>
    let p := if n.wset.isNone then p.armChecks c n else p
    match p.job.arming, p.job.next with
    | some (c, h), some n => if n.wset.isSome && p.tb2Ready then p.armDone c h n else p
    | _, _ => p
  | _, _ => p
def execArmReady (s : State) : Host.Outcome State Fault Refusal := onPkg armReady s

/-- ARM_TIMEOUT (check 5 of R455): TB2 not fit within 2 s after take. -/
def armTimeout (p : Pkg) : Pkg :=
  match p.job.arming, p.job.next with
  | some (c, _), some n =>
    if n.wset.isSome && !p.tb2Ready && decide (c.takenNs + 2000 * nsPerMs ≤ p.rawNs) then p.armBack c 7 1 else p
  | _, _ => p
def execArmTimeout (s : State) : Host.Outcome State Fault Refusal := onPkg armTimeout s

/-- ARM as taken: forwarding, duplicates, then check 1 (R453, R455, R441, R443, R444). `bad`: a reserved field is set. -/
def Pkg.arm (p : Pkg) (c : Cmd) (bad : Bool) : Pkg :=
  let p := p.armForward c
  let slots := c.le 0x28 2
  if p.liveJobs.contains (c.le 0x10 8) then (p.fadd F.jobStatDupArm 0 1).final c 7 2 0
  else if p.groupBusy then p.armFail c 3 0
  else
    match p.job.next with
    | none => p.armFail c 7 0
    | some n =>
      if p.job.state ≠ 2 then p.armFail c 7 0
      else if !n.img.single && p.fget F.chipStage 0 < 5 then p.armFail c 9 0
      else if bad || slots = 0 || 1024 < slots || 8 < c.le 0x2B 1 || nbits (c.le 0x38 2) 7 7 = 1 || nbits (c.le 0x38 2) 15 15 = 1 then
        p.armFail c 2 0
      else
        let (p, got) := p.getInput (c.le 0x30 8) (2 * slots) 1
        match got with
        | .error e => p.armFail c e 0
        | .ok h =>
          if (homeRanks h).any fun r => decide (n.img.rankCount ≤ r) then p.armFail c 2 0
          else
            let p := { p with host := { p.host with running := p.host.running ++ [c] } }
            armReady ((p.updJob fun j => { j with arming := some (c, h) }).jobTo 3)

/-- A command record that a copy of an ARM carries: TAG and record bytes 0x10 to 0x39 (R453). -/
def armOfCopy (y : List Byte) : List Byte :=
  leBytes 2 0x0012 ++ leBytes 6 0 ++ sliceB y 8 8 ++ padTo 496 (sliceB y 16 42)
/-- The record of a copy is taken (R453). -/
def Pkg.takeArmCopy (p : Pkg) (y : List Byte) : Pkg :=
  let c : Cmd :=
    { no := p.host.nextNo, path := .link, opcode := 0x0012, flags := 0, tag := leAt y 8 8, rec_ := armOfCopy y,
      takenNs := p.rawNs, silent := false }
  let p := { p with host := { p.host with nextNo := p.host.nextNo + 1 } }
  ((p.fadd F.hostStatTaken 0 1).arm c false).careCompletions
/-- ARM_COPY: a MGMT flit with byte 0 of 0x60 for this package. -/
def armCopyRx (q : Nat) (b : List Byte) (p : Pkg) : Pkg :=
  let r := p.control q 6 b
  let y := flitPayload b
  if !p.mgmtHere b then p
  else if r.2 && leAt y 0 1 = 0x60 then r.1.takeArmCopy y else r.1
def execArmCopy (p : Fin 16) (flit : List Byte) (s : State) : Host.Outcome State Fault Refusal := onPkg (armCopyRx p flit) s

/-! The end of a plan (R353, R414, R418). -/

/-- Commands whose firing tick is `t` or later leave the queues; started ones go on (R418). -/
def Fen.dropFrom (t : Nat) (x : Fen) : Fen :=
  let k (q : List QCmd) : List QCmd := q.filter fun c => decide (c.fire < t)
  { x with qTe := k x.qTe, qVe := k x.qVe, qSm := k x.qSm, qLx := k x.qLx,
           proc := { x.proc with st := .idle, held := none, waitB := none } }
def Pkg.stopFens (p : Pkg) (t : Nat) : Pkg :=
  let p := p.planFens.foldl (fun (p : Pkg) f => p.updFen f (Fen.dropFrom t)) p
  let p := (List.range 4).foldl (fun (p : Pkg) d =>
    let x := p.samp d
    p.setSamp d { x with queue := x.queue.filter fun c => decide (c.fire < t) }) p
  p.updJob fun j => { j with starts := [] }

/-- STEP records of the steps that have ended, before their plan leaves the package: the digest unit folds the closed
points it still works on first (R414). -/
def Pkg.finishSteps (p : Pkg) : Pkg :=
  let p := p.foldPoints fun o => o.due.isSome
  let ended := p.dig.steps.filter fun x => decide (p.stepEnd x.1 ≤ p.refCount)
  ended.foldl (fun (p : Pkg) x =>
    let n := (p.dig.open_.filter fun o => decide (o.step = x.1)).length
    let p := (p.updDig fun g => { g with open_ := g.open_.filter fun o => decide (o.step ≠ x.1) }).fadd F.dlogStatIncomplete 0 n
    let p := (List.range n).foldl (fun (p : Pkg) _ => p.dlog 0x00C0 0 none) p
    p.stepRecord x.1 { x.2 with incomplete := x.2.incomplete || decide (n ≠ 0) }) p

/-- END record (R414). -/
def Pkg.endRec (p : Pkg) (cause : Nat) : Pkg := p.dlogRec 7 0 0 0 (p.stepOf p.refCount) (leBytes 1 cause)

/-- The plan that ran becomes the relocated plan again, unless a next plan stands in its place (R451). -/
def Pkg.plannedBack (p : Pkg) : Pkg :=
  if p.job.state < 6 && !p.drive then p
  else
    let n := p.job.cur.map fun c => { c with arm := none, wset := none, filled := false, replay := none, startTick := 0, stepBase := 0 }
    (p.updJob fun j => { j with next := n, image := j.cur.map fun c => (c.img, c.tab) }).jobTo 2

/-- No plan runs any more: records, switch, throttle, provisional sums, roles, uses of weight sets. -/
def Pkg.planOver (p : Pkg) (cause : Nat) : Pkg :=
  let p := p.endRec cause
  let p := (p.cancelSwitch).cancelThrottle
  let p := p.plannedBack
  let p := (p.fset F.jobStateTb1Run 0 0).fset F.bellCtrlDrive 0 0
  let p := p.updDig fun g => { g with prov := [], role := 0, pendingRole := 0, halted := false, valid := [], reports := [] }
  (p.fset F.dlogShadowRole 0 0).refreshSets

/-- Every ACTIVE request closes with ABORTED and every slot is FREE (R353). -/
def Pkg.closeActive (p : Pkg) : Pkg :=
  let p := (p.roll.entries.filter fun x => decide (x.2.state = 2)).foldl (fun (p : Pkg) x => p.closeReq x.1 0x19) p
  p.updRoll fun r => { r with slots := [], recs := [], inbound := [], promised := [] }

/-- DISARM at the boundary that begins step `k`: a tutor closes its CANCEL_PENDING requests like any package, and no copy of
an adapter entry is written (R349, R353). -/
def Pkg.disarmAt (p : Pkg) (k : Nat) : Pkg :=
  let t := p.stepStart k
  let had := p.roll.backlog.length
  let cause := if p.dig.role = 2 && p.drive then 4 else 1
  let p := if p.dig.halted then p else p.commitStep t (!p.scripted)
  let p := p.closeActive
  let p := p.scanAll
  let p := p.applyChanges k false
  let p := p.postBoundary had
  let p := if p.dig.halted then p else p.stopFens t
  let p := p.updJob fun j => { j with disarmReq := false }
  let replay := p.runningOp 0x0050
  let p := p.planOver cause
  let p := match replay with | some c => p.final c 0 0 0 | none => p
  let p := (p.endOp 0x0059 0 0 0)
  let p := if cause = 1 then
      (p.host.running.filter fun c => decide (c.opcode = 0x0014)).foldl (fun (p : Pkg) c => p.final c 0 0 0) p
    else p
  p.endOp 0x0058 6 0 0

/-- A boundary has come that was not acted on yet. -/
def Pkg.boundaryDue (p : Pkg) : Bool := p.planRuns && decide (p.stepStart p.roll.lastStep ≤ p.refCount)

/-- DISARM_EFFECT (R353, R425): at the next step boundary. -/
def disarmEffect (p : Pkg) : Pkg := if p.job.disarmReq && p.boundaryDue then p.disarmAt p.roll.lastStep else p
def execDisarmEffect (s : State) : Host.Outcome State Fault Refusal := onPkg disarmEffect s

/-- STEP_BOUNDARY (R337, R353, R418): a halted replay has none but the one that ends it. -/
def stepBoundary (p : Pkg) : Pkg :=
  if !p.boundaryDue then p
  else if p.job.disarmReq then p.disarmAt p.roll.lastStep
  else if p.dig.halted then p.updRoll fun r => { r with lastStep := r.lastStep + 1 }
  else p.boundary p.roll.lastStep
def execStepBoundary (s : State) : Host.Outcome State Fault Refusal := onPkg stepBoundary s

/-! The start of a plan (R114, R115, R197, R394, R414). -/

/-- Every fen's hole neighbours are filled once per step (R58): fens next to a logical fen that has no physical one. -/
def hasHoleNeighbour (w : Nat) (holes : List Nat) (l : Nat) : Bool :=
  let r := l / w
  let c := l % w
  (decide (0 < r) && holes.contains (l - w)) || (decide (r < 15) && holes.contains (l + w)) ||
  (decide (0 < c) && holes.contains (l - 1)) || (decide (c + 1 < w) && holes.contains (l + 1))
def Pkg.holeFill (p : Pkg) : Pkg :=
  match p.job.cur with
  | none => p
  | some n =>
    let holes := n.img.fenset.filter fun l => (n.fmap.find? l).isNone
    if holes.isEmpty then p
    else
      let hit := n.fmap.filter fun x => hasHoleNeighbour p.meshW holes x.1
      let p := hit.foldl (fun (p : Pkg) x => (p.logFen x.2 0x0032 0 none).fadd F.fenSkipHoleFill x.2 1) p
      if hit.isEmpty then p else p.defect p.refCount 0x0032

/-- A step begins in deficit (R253). -/
def Pkg.deficitStep (p : Pkg) : Pkg :=
  p.stacksLeft.foldl (fun (p : Pkg) s =>
    if p.fon F.sdramThermDeficit s then (p.fadd F.sdramStatDeficitSteps s 1).defect p.refCount 0x0074 else p) p

/-- What happens in the tick in which the step with counter `k` begins. -/
def Pkg.stepBegins (p : Pkg) (k : Nat) : Pkg :=
  if p.dig.halted then p else ((p.openPoints k).holeFill).deficitStep

/-- A plan starts on its driving base at tick `t` with step counter `n.stepBase`. -/
def Pkg.startPlan (p : Pkg) (n : PlanInst) (t : Nat) : Pkg :=
  let p := p.updJob fun j => { j with cur := some n, next := none, image := none, start := t }
  let p := p.updDig fun g => { g with open_ := [], steps := [], prov := [], halted := false, reports := [], traceUsed := 0 }
  let p := p.updRoll fun r => { r with lastStep := n.stepBase, recs := [], inbound := [] }
  let p := p.setCover n.img n.tab.refresh
  let p := (p.startCsrs n).scheduleStarts t true
  let p := p.dlogRec 4 0 0 0 n.stepBase
    (leBytes 8 n.startTick ++ leBytes 8 n.stepBase ++ leBytes 2 n.img.contract ++ leBytes 2 n.selfRank)
  ((p.stepBegins n.stepBase).refreshSets).bellPulse

/-- A refused handover: START_AT or REPLAY ends, the plan stays armed (R115, R458). -/
def Pkg.refuseStart (p : Pkg) (info r0 r1 : Nat) : Pkg :=
  let p := (p.bellRefuse info).jobTo 4
  let p := (p.fset F.bellHandoverStatArmed 0 0).fset F.jobStartTick 0 0
  (p.endOp 0x0013 0x010C r0 r1).endOp 0x0050 0x010C r0 r1

/-- The deferred placement has to be done, and R29 as the marks stand leaves a fen without a place (R52). -/
def Pkg.placeFails (p : Pkg) (n : PlanInst) : Bool := !n.placed && !n.acceptHoles && !(p.unmappedFens n.img).isEmpty

/-- A plan armed in state STARTING at its handover tick (R114, R115, R394, R52). -/
def Pkg.handoverAt (p : Pkg) (t : Nat) : Pkg :=
  match p.job.next with
  | none => p
  | some n =>
    if p.planRuns then p.refuseStart 0 0x0056 0
    else if p.placeFails n then (p.jlog 0x00E5 0x0105 (some 10)).refuseStart 2 0x00E5 0x0105
    else if !(n.placed && n.filled) then (p.wlog 0x00B6 (some 10)).refuseStart 1 0x00B6 0
    else
      let p := (p.bellHandover).cancelThrottle
      let p := (List.range 16).foldl Pkg.portHandover (p.fset F.bellHandoverStatArmed 0 0)
      let p := (p.fset F.jobStateTb1Run 0 1).jobTo 6
      let p := (p.finishSteps).startPlan { n with startTick := t } t
      p.endOp 0x0013 0 0 0
/-- HANDOVER. -/
def handover (p : Pkg) : Pkg :=
  match p.bell.handoverTick with
  | some t => if p.job.state = 5 && decide (t ≤ p.bell.tb2.count) then p.handoverAt t else p
  | none => p
def execHandover (s : State) : Host.Outcome State Fault Refusal := onPkg handover s

/-- DEFERRED_PLACEMENT (R52): once the next plan is armed and no plan runs. -/
def deferredPlacement (p : Pkg) : Pkg :=
  match p.job.next with
  | some n =>
    if n.arm.isSome && !n.placed && !p.planRuns then
      let p := p.ppr
      match p.place n with
      | some (p, n) =>
        let p := p.updJob fun j => { j with next := some n }
        let p := p.setCover n.img n.tab.refresh
        match n.wset with | some i => p.fillWpt i | none => p
      | none =>
        let p := p.jlog 0x00E5 0x0105 (some 10)
        if p.job.state = 5 then p.refuseStart 2 0x00E5 0x0105 else p
    else p
  | none => p
def execDeferredPlacement (s : State) : Host.Outcome State Fault Refusal := onPkg deferredPlacement s

/-- One kept TIER 0 shard to its slab, read through the stack's controller; a word it cannot correct is stored poisoned
(R254, R394). -/
def Pkg.fillShard (w : WSet) (n : PlanInst) (p : Pkg) (i : Nat) : Pkg :=
  match n.fmap.find? (w.sh i 7 1) with
  | some f =>
    let a := w.addr i % 2 ^ 39
    let n := w.sh i 0x10 8
    let bad := p.badWords 0 a n
    let (p, bs) := p.memGet 0 a n
    bad.foldl (fun (p : Pkg) x => p.slabWrite f (w.sh i 0x20 4 + (x - a)) (List.replicate 8 0#8) true)
      (p.slabWrite f (w.sh i 0x20 4) bs false)
  | none => p
/-- SLAB_FILL (R394). -/
def slabFill (p : Pkg) : Pkg :=
  match p.job.next with
  | some n =>
    if n.arm.isSome && n.placed && !n.filled && !p.planRuns then
      let w := match n.wset with | some i => p.wset i | none => .init
      let p := ((List.range w.shards).filter fun i => decide (w.tier i = 0) && w.keeps i).foldl (Pkg.fillShard w n) p
      p.updJob fun j => { j with next := some { n with filled := true } }
    else p
  | none => p
def execSlabFill (s : State) : Host.Outcome State Fault Refusal := onPkg slabFill s

/-! START_AT and its cancellation (R458 to R460). -/

/-- The handover tick is loaded (R114, R458). -/
def Pkg.loadStart (p : Pkg) (t : Nat) : Pkg :=
  let p := ({ p with bell := { p.bell with handoverTick := some t } }).fset F.bellHandoverTick 0 t
  let p := p.fset F.bellHandoverStatArmed 0 1
  (p.fset F.jobStartTick 0 t).jobTo 5
def Pkg.startAt (p : Pkg) (c : Cmd) : Pkg :=
  let t := c.le 0x10 8
  if p.job.state ≠ 4 || p.drive then p.final c 7 0 0
  else if t < p.bell.tb2.count + 2100000 then p.final c 8 0 0
  else (p.goOn c).loadStart t

/-- The start is cancelled (R459). -/
def Pkg.cancelStart (p : Pkg) : Pkg :=
  if p.job.state = 5 then
    let p := { p with bell := { p.bell with handoverTick := none } }.fset F.bellHandoverStatArmed 0 0
    let p := (p.endOp 0x0013 6 0 0).endOp 0x0050 6 0 0
    ((p.fset F.jobStartTick 0 0).jlog 0x00E2 0 none).fadd F.jobStatCancelled 0 1
  else p
/-- Nothing is armed any more; the plan is RELOCATED (R459, R375). -/
def Pkg.unarm (p : Pkg) : Pkg :=
  let p : Pkg := match p.job.arming with
    | some (c, _) => (p.updJob fun j => { j with arming := none }).armFail c 6 0
    | none => p
  let p : Pkg := p.updJob fun j =>
    { j with next := j.next.map fun n => { n with arm := none, wset := none, filled := false, replay := none, stepBase := 0 } }
  let p : Pkg := if p.dig.pendingRole = 2 then (p.updDig fun g => { g with pendingRole := 0 }).endOp 0x0058 6 0 0 else p
  (p.jobTo 2).refreshSets

/-- START_GUARD (R460). -/
def startGuard (p : Pkg) : Pkg :=
  let g := p.fget F.jobGuardGuardTicks 0
  match p.bell.handoverTick with
  | some t =>
    if p.job.state = 5 && decide (g ≠ 0) && decide (t ≤ p.bell.tb2.count + g) && decide (p.bell.tb2.count < t) &&
        (decide (p.mgUp = 0) || !p.care.everMsg || decide (p.care.lastMsg + g < p.tb1)) then
      ((p.cancelStart).unarm).jlog 0x00E3 0 (some 9)
    else p
  | none => p
def execStartGuard (s : State) : Host.Outcome State Fault Refusal := onPkg startGuard s

/-- A start whose tick has come is made before a cancellation acts (R459). -/
def Pkg.settleStart (p : Pkg) : Pkg := handover p

/-- DISARM as taken (R353, R442, R459). -/
def Pkg.disarm (p : Pkg) (c : Cmd) : Pkg :=
  let was := p.job.state
  let p := p.settleStart
  let tgt := if c.le 0x10 1 = 1 && was = 5 && p.job.state = 6 then 2 else c.le 0x10 1
  if tgt = 1 then
    if p.drive then
      let p := p.early c
      (((p.stopFens p.refCount).closeActive).planOver 1 |>.endOp 0x0058 6 0 0).final c 0 0 0
    else if 3 ≤ p.job.state && p.job.state ≤ 5 then ((p.early c).cancelStart.unarm).final c 0 0 0
    else p.final c 7 0 0
  else if p.tb1Run then
    let p := (p.goOn c).updJob fun j => { j with disarmReq := true }
    if p.dig.pendingRole = 1 then (p.updDig fun g => { g with pendingRole := 0 }).endOp 0x0058 6 0 0 else p
  else p.final c 7 0 0

/-! ABORT (R461, R462). -/

/-- One fen: its epoch advances, every queue and sluice is empty, its Proctor IDLE (R148, R196, R198, R239). -/
def Pkg.abortFen (p : Pkg) (f : Nat) : Pkg :=
  let p := p.epochAdvance f
  let x := p.fen f
  let p := p.fadd F.fenCmdStatSquashed f (x.qTe.length + x.qVe.length + x.qSm.length + x.qLx.length)
  p.updFen f fun x =>
    { x with qTe := [], qVe := [], qSm := [], qLx := [],
             proc := { x.proc with st := .idle, held := none, waitB := none, icache := { x.proc.icache with pins := [] } } }

/-- Flits that no router will pass on are gone with the plan: those a failed hop lost and those at a failed fen (R487). -/
def Pkg.dropLost (p : Pkg) : Pkg :=
  let dead (m : MFlit) : Bool := decide (2 ^ 64 ≤ m.left) ||
    (match m.route with | (a, _) :: _ => (match p.physOf a with | some f => (p.fen f).hard | none => true) | [] => false)
  { p with mesh := p.mesh.filter fun m => !dead m }

/-- ABORT's effects on the plan and the ports (R461). -/
def Pkg.abortPlan (p : Pkg) : Pkg :=
  let ran := p.planRuns
  let p := if ran then p.finishSteps else p
  let p := ((List.range 288).filter fun f => !p.fused f && p.fon F.fenMapMapped f).foldl Pkg.abortFen p
  let p := p.updJob fun j => { j with starts := [], disarmReq := false }
  let p := (List.range 4).foldl (fun (p : Pkg) d => p.setSamp d { p.samp d with queue := [] }) p
  let p := (List.range 16).foldl Pkg.portAbort p
  let p := (p.closeActive).egress
  let p := p.cancelStart
  let p := p.endOp 0x0058 6 0 0
  let p := p.updDig fun g => { g with pendingRole := 0 }
  let p := if 3 ≤ p.job.state && p.job.state ≤ 5 && !p.drive then p.unarm else p
  let p := if ran then (p.planOver 2).endOp 0x0050 6 0 0 else p
  let p := (p.endOp 0x0059 0 0 0).endOp 0x0014 0 0 0
  let p := p.updDig fun g => { g with open_ := [], steps := [], prov := [] }
  (p.updJob fun j => { j with cur := none }).refreshSets.dropLost

/-- ABORT as taken; it is never refused. -/
def Pkg.abort (p : Pkg) (c : Cmd) : Pkg :=
  let p := ((p.early c).settleStart).abortPlan
  let p := (p.fadd F.jobStatAborts 0 1).jlog 0x00E4 0 none
  p.final c 0 0 0

/-! Replay (R415 to R418). -/

/-- The script is well formed (R416). -/
def scriptOk (b : List Byte) : Bool :=
  let es := scriptEntries b
  decide (leAt b 0 4 = 0x31535052) && decide (b.length = 16 + 160 * leAt b 4 4) && rising (es.map fun e => leAt e 0 8) &&
  es.all fun e => decide (1 ≤ leAt e 0x0A 1 ∧ leAt e 0x0A 1 ≤ 4) && decide (leAt e 8 2 < 1024) && decide (leAt e 0x0B 1 ≤ 2)

def Pkg.replay (p : Pkg) (c : Cmd) : Pkg :=
  let t := c.le 0x10 8
  let base := c.le 0x18 8
  match p.job.next with
  | none => p.final c 0x0301 0 0
  | some n =>
    if p.job.state ≠ 4 then p.final c 0x0301 0 0
    else if t < p.bell.tb2.count + 2100000 then p.final c 8 0 0
    else
      let (p, got) := p.getInput (c.le 0x20 8) (c.le 0x28 4) 1
      match got with
      | .error e => p.final c e 0 0
      | .ok b =>
        if !scriptOk b then p.final c 0x0302 0 0
        else if c.le 0x30 8 < base then p.final c 0x0303 0 0
        else
          let p := (p.goOn c).updJob fun j =>
            { j with next := some { n with stepBase := base, replay := some (b, c.le 0x30 8, c.le 0x38 4) } }
          p.loadStart t

/-- REPLAY_HALTED (R418). -/
def replayHalted (p : Pkg) : Pkg :=
  match p.job.cur with
  | some n =>
    match n.replay with
    | some (_, hs, ht) =>
      let t := p.stepStart hs + ht
      if p.tb1Run && !p.dig.halted && decide (hs ≠ 2 ^ 48 - 1) && decide (t ≤ p.refCount) then
        let p := (p.stopFens t).updDig fun g => { g with halted := true }
        let p := if p.job.state = 6 then p.jobTo 7 else p
        ((p.endRec 3).dlog 0x00C4 0 none).endOp 0x0050 0 0 0
      else p
    | none => p
  | none => p
def execReplayHalted (s : State) : Host.Outcome State Fault Refusal := onPkg replayHalted s

/-! Shadowing (R421 to R425). -/

def Pkg.shadowBegin (p : Pkg) (c : Cmd) : Pkg :=
  let role := c.le 0x10 1
  let ok := if role = 1 then p.tb1Run && !p.dig.halted else p.job.state = 4 && !p.drive && p.bell.tb2.state = .locked
  if !ok then p.final c 0x0304 0 0
  else
    let p := (p.goOn c).updDig fun g => { g with pendingRole := role, port := c.le 0x11 1 % 16, beginStep := c.le 0x18 8 }
    let p := (p.fset F.dlogShadowPort 0 (c.le 0x11 1)).fset F.dlogShadowCntClean 0 0
    (p.fset F.dlogShadowPromotable 0 0).fset F.dlogShadowBroken 0 0

/-- SHADOW_START (R422): the pupil's plan starts on TB2. The tick at which this happens is the boundary that begins
BEGIN_STEP. -/
def shadowStart (p : Pkg) : Pkg :=
  match p.job.next with
  | some n =>
    if p.dig.pendingRole = 2 && p.job.state = 4 && n.placed && n.filled && !p.planRuns then
      let t := p.bell.tb2.count
      let b := p.dig.beginStep
      let p := p.fset F.bellCtrlDrive 0 1
      let p := (p.updDig fun g => { g with role := 2, pendingRole := 0, tutor := [], own := [], valid := [] }).fset F.dlogShadowRole 0 2
      let p := (List.range 16).foldl (fun (p : Pkg) q =>
        p.updPort q fun x => { x with ordTx := b * (n.tab.slots.getD q []).length }) p
      let p := p.startPlan { n with startTick := t - b * n.img.stepTicks, stepBase := b } t
      p.endOp 0x0058 0 0 0
    else p
  | none => p
def execShadowStart (s : State) : Host.Outcome State Fault Refusal := onPkg shadowStart s

/-- SHADOW_END (R425). -/
def Pkg.shadowEnd (p : Pkg) (c : Cmd) : Pkg :=
  if p.drive then (p.goOn c).updJob fun j => { j with disarmReq := true }
  else if p.dig.role = 1 then (p.goOn c).updDig fun g => { g with pendingRole := 4 }
  else
    let p := if p.dig.pendingRole ≠ 0 then (p.updDig fun g => { g with pendingRole := 0 }).endOp 0x0058 6 0 0 else p
    p.done c 0 0

/-- TIME_REBASE (R110). -/
def Pkg.timeRebase (p : Pkg) (c : Cmd) : Pkg :=
  let b := decide (c.le 0x10 1 = 2)
  if p.baseBusy b then p.final c 0x0421 0 0
  else (p.rebase b (if c.le 0x11 1 = 2 then some (c.le 0x18 8) else none)).done c 0 0

end Sys2Proof.Machine
end

