-- ==== Sys2Proof/Machine/Reset.lean ====
section
/-! DEFINITION. Cold and warm reset, firmware and patch trust, the bring-up stages, full-rate training, lost stacks and
channels (R468 to R480, R486, R490, R506, R543, R544, R551, R552). -/
namespace Sys2Proof.Machine

open Sys2Proof

/-! Signed headers (R551, R552). -/

/-- A signed object of a kind is trusted. -/
def trusted (part : Part) (kind : Nat) (b : List Byte) : Bool :=
  let k := leAt b 5 1
  let m := sliceB b 0x80 384
  let s := sliceB b 0x200 48
  let d := sha384 (sliceB b 0 0x80)
  decide (leAt b 0 4 = 0x47534D46) && decide (leAt b 4 1 = kind) && decide (k < 4) &&
  decide (part.revoked / 2 ^ (4 * (kind - 1) + k) % 2 = 0) &&
  decide (part.keyHash.getD (kind * 8 + k * 2) [] = sha384 m) && decide (part.keyHash.getD (kind * 8 + k * 2 + 1) [] = sha384 s) &&
  Config.rsaPssVerify m d (sliceB b 0x230 384) && Config.slhDsaVerify s d (sliceB b 0x3B0 16224) &&
  decide (sha384 (sliceB b 0x4310 (leAt b 0x0C 4)) = sliceB b 0x10 48)

/-- The image of a firmware slot. -/
def FwSlot.bytes (s : FwSlot) : List Byte :=
  if s.factory then Config.factoryImage s.version
  else
    let h := s.image.read 0 0x4310
    h ++ s.image.read 0x4310 (leAt h 0x0C 4)
/-- Its version and rollback index, and whether it may boot (R506). -/
def FwSlot.ver (s : FwSlot) : Nat := if s.factory then s.version else ofLe (s.image.read 8 4)
def FwSlot.roll (s : FwSlot) : Nat := if s.factory then s.rollback else ofLe (s.image.read 6 2)
def FwSlot.trusted (part : Part) (s : FwSlot) : Bool := s.factory || Sys2Proof.Machine.trusted part 1 s.bytes
def FwSlot.boots (part : Part) (s : FwSlot) : Bool := s.trusted part && decide (part.fwFuses ≤ s.roll)

def Flash.slot (f : Flash) (i : Nat) : FwSlot := if i = 0 then f.slotA else f.slotB
def Flash.setSlot (f : Flash) (i : Nat) (s : FwSlot) : Flash := if i = 0 then { f with slotA := s } else { f with slotB := s }

/-- The slot that the ROM boots, none for the recovery path, and the slots that failed (R506, R478). -/
def bootSlot (part : Part) (f : Flash) : Option Nat × List Nat :=
  if part.bootMode = 1 || part.bootMode = 3 then (none, [])
  else
    let a := f.prefer
    let b := 1 - f.prefer
    if (f.slot a).boots part then (some a, [])
    else if (f.slot b).boots part then (some b, [a])
    else (none, [a, b])

/-! Cold reset (R468, R476). -/

/-- The registers that a cold reset loads from pins and flash. -/
def Pkg.bootRegs (p : Pkg) : Pkg :=
  let p := (p.fset F.chipStrapsRackId 0 p.part.rackId).fset F.chipStrapsBoardId 0 p.part.boardId
  let p := (p.fset F.chipStrapsPosId 0 p.part.posId).fset F.chipStrapsBootMode 0 p.part.bootMode
  let b := bootSlot p.part p.care.flash
  let s := b.1.getD 0
  let p := (p.fset F.careStatusSlot 0 s).fset F.careStatusRecovery 0 (b2n b.1.isNone)
  let t := b.1.isSome && (p.care.flash.slot s).trial
  (p.fset F.careStatusTrial 0 (b2n t)).fset F.careStatusUpdate 0 (b2n t)

/-- The package after a cold reset: what outlives one is the part, board flash, the VAUX-domain latches, cells that are
stuck, row repairs of the stacks, and host memory. Dredge begins at the lowest clocked fen of each die (R230, R232). -/
def Pkg.coldState (p : Pkg) : Pkg :=
  let fens := p.fens.filterMap fun x =>
    if x.2.slab.stuck.isEmpty then none else some (x.1, { Fen.init with slab := { Slab.init with stuck := x.2.slab.stuck } })
  let stackList := p.dram.stackList.filterMap fun x =>
    if x.2.sparesUsed.isEmpty then none else some (x.1, { Stack.init with sparesUsed := x.2.sparesUsed })
  let ports := (List.range 16).map fun q => (q, { Port.init with nonce := (p.port q).nonce + 1 })
  let log := p.care.flash.log
  let next := match log.getLast? with | some r => r.seq + 1 | none => 0
  let f := p.power
  let pw : Power :=
    { Power.init with en := f.en, pg := f.pg, rising := f.rising, wakeAfter := f.wakeAfter, latchTrip := f.latchTrip, latchPg := f.latchPg,
                      latchSeq := f.latchSeq, tripPin := f.tripPin, vaux := f.vaux }
  let low (d : Nat) : Nat := ((List.range 72).find? fun j => !p.fused (d * 72 + j)).getD 0
  let q : Pkg := { Pkg.init with
    part := p.part, fens := fens, dram := { Dram.init with stackList := stackList }, ports := ports,
    care := { Care.init with flash := p.care.flash, log := log, nextSeq := next },
    host := { HostIf.init with mem := p.host.mem }, power := pw, free := p.free }
  ((List.range 4).foldl (fun (q : Pkg) d =>
    (q.setDredge d { Dredge.init with fen := d * 72 + low d, nextFen := low d }).dredgePos d) q).bootRegs

/-- COLD_RESET (R468, R477, R586): the edge of the last power-good, with the straps sampled at it. -/
def coldReset (rack board pos mode : Nat) (p : Pkg) : Pkg :=
  if p.power.en = 15 && p.power.vaux then
    ({ p with part := { p.part with rackId := rack % 256, boardId := board % 16, posId := pos % 4, bootMode := mode % 4 },
              power := { p.power with pg := 15, rising := true, wakeAfter := false } }).coldState
  else p
def execColdReset (rack board pos mode : Nat) (s : State) : Host.Outcome State Fault Refusal :=
  .next { s with pkg := coldReset rack board pos mode s.pkg }

/-! Warm reset (R469, R470, R476, R477). -/

/-- Registers of a block other than its performance counters go to their reset values; ST fields stay (R13). -/
def Pkg.stField (p : Pkg) (f : Fld) (i : Nat) (g : Pkg → Pkg) : Pkg :=
  let v := p.fget f i
  (g p).fset f i v
def Pkg.clearRegs (p : Pkg) (b : Blk) (i : Nat) : Pkg :=
  let base := b.base i
  { p with regs := p.regs.filter (fun x =>
             !(decide (base ≤ x.1) && decide (x.1 < base + 0x4000) && (decide (x.1 < base + 0x080) || decide (base + 0x100 ≤ x.1)))),
           irqSum := p.irqSum.filter (fun k => k ≠ base / 0x4000) }

/-- A fen under a warm reset. -/
def Pkg.fenWarm (p : Pkg) (f : Nat) : Pkg :=
  if p.fused f then p else (p.fenReset f).updFen f fun x => { x with proc := { x.proc with ep := 0#64 } }

/-- New strap values (R477). -/
def Pkg.resample (p : Pkg) (rack board pos mode : Nat) : Pkg :=
  let old := p.phys
  let p := { p with part := { p.part with rackId := rack % 256, boardId := board % 16, posId := pos % 4, bootMode := mode % 4 } }
  let p := (p.fset F.chipStrapsRackId 0 rack).fset F.chipStrapsBoardId 0 board
  let p := (p.fset F.chipStrapsPosId 0 pos).fset F.chipStrapsBootMode 0 mode
  if p.phys = old then p else (p.fset F.chipResetStrapChanged 0 1).log0 .chip 0 0x00F3 0 (some 8)

/-- Commands in progress: those of the host vanish with its registers, the others end. -/
def Pkg.endCommands (p : Pkg) : Pkg :=
  let isHost (c : Cmd) : Bool := match c.path with | .slot _ => true | _ => false
  let p := { p with host := { p.host with running := p.host.running.filter (fun c => !isHost c),
                                          taken := p.host.taken.filter (fun c => !isHost c), cplQ := [] } }
  p.host.running.foldl (fun (p : Pkg) c => p.final c 6 0 0) p

/-- A Markbook under a warm reset (R538): MARK.CFG is cleared and RESET acts. -/
def Pkg.markReset (p : Pkg) (d : Nat) : Pkg :=
  let p := p.setMark d { p.mark d with sample := 0, written := 0, lastRec := none }
  p.setReg .mark d 0x108 0#64
def Pkg.markWarm (p : Pkg) (d : Nat) : Pkg :=
  let p := (p.markReset d).setReg .mark d 0x100 0#64
  p.setMark d { p.mark d with countdown := 0, open_ := [] }

/-- WARM_RESET; a region that Dredge tests is restored first (R230), and no plan is loaded after it (R261); before S2 it only
delays link training. The completion ring is off from the start: with PERST_N asserted nothing reaches host memory. -/
def warmReset (rack board pos mode : Nat) (p : Pkg) : Pkg :=
  if p.fget F.chipStage 0 < 2 then p
  else
    let p := (List.range 4).foldl (fun p d => Pkg.dredgeFinish d p) p
    let intake := p.roll.intake
    let p := { p with roll := { Roll.init with copies := p.roll.copies }, wgt := { p.wgt with sets := [] } }
    let p := (p.stField F.hostPatchRejected 0 fun p => p.clearRegs .host 0).abortPlan
    let frames := p.wgt.frames
    let seqs := p.wgt.frameSeq
    let p := { p with rank := [], mesh := [] }
    let p := p.endCommands
    let p := (List.range 288).foldl Pkg.fenWarm p
    let p := (List.range 4).foldl (fun (p : Pkg) d => p.setSamp d { p.samp d with queue := [], run := none }) p
    let p := { p with dram := { p.dram with queue := [], returns := [], out := [] }, perfPend := [] }
    let p := p.stField F.hostPatchRejected 0 fun p => p.clearRegs .host 0
    let p := ((p.clearRegs .roll 0).clearRegs .job 0).clearRegs .wgt 0
    let p := (List.range 4).foldl Pkg.markWarm p
    let p := { p with job := .init, roll := { Roll.init with intake := intake, copies := p.roll.copies },
                      wgt := { Wgt.init with frames := frames, frameSeq := seqs },
                      dig := { Dig.init with traceUsed := p.dig.traceUsed } }
    let p := (List.range 8).foldl (fun (p : Pkg) s => p.fset F.sdramThermCover s 7) (p.fset F.dlogShadowRole 0 0)
    let p := { p with host := { HostIf.init with mem := p.host.mem, slotMem := p.host.slotMem, nextNo := p.host.nextNo, taken := p.host.taken,
                                                 running := p.host.running, careCpl := p.host.careCpl,
                                                 patchLevel := p.host.patchLevel, patchCount := p.host.patchCount } }
    let p := (List.range 16).foldl Pkg.portAbort p
    let p := p.resample rack board pos mode
    let p := (p.fset F.chipResetLast 0 1).fadd F.chipResetWarmCount 0 1
    (p.log0 .chip 0 0x00F4 0 none).careCompletions
def execWarmReset (rack board pos mode : Nat) (s : State) : Host.Outcome State Fault Refusal :=
  onPkg (warmReset rack board pos mode) s

/-! Stages (R471 to R474, R490). -/

/-- A plan is armed, being armed, or running. -/
def Pkg.planArmed (p : Pkg) : Bool :=
  p.planRuns || p.job.arming.isSome || (match p.job.next with | some n => n.arm.isSome | none => false)
/-- Stacks at full rate. -/
def Pkg.fullRate (p : Pkg) (s : Nat) : Bool := decide (p.fget F.chipStageStacksFull 0 / 2 ^ s % 2 = 1)

/-- Full-rate training takes the next stack, or waits for a plan to leave (R473). -/
def Pkg.trainNext (p : Pkg) : Pkg :=
  if p.fget F.chipStage 0 ≠ 2 || p.training.isSome then p
  else
    match p.stacksLeft.find? fun s => !p.fullRate s with
    | none => p.fset F.chipStageS3Held 0 0
    | some s => if p.planArmed then p.fset F.chipStageS3Held 0 1 else ({ p with training := some s }).fset F.chipStageS3Held 0 0

/-- STACK_TRAINING_DONE (R473). -/
def stackTrainingDone (s : Nat) (p : Pkg) : Pkg :=
  if p.training = some s then
    let m := p.fget F.chipStageStacksFull 0
    let p := { p with training := none }.fset F.chipStageStacksFull 0 (if p.fullRate s then m else m + 2 ^ s)
    ((armReady p).trainNext).careCompletions
  else p
def execStackTrainingDone (st : Fin 8) (s : State) : Host.Outcome State Fault Refusal := onPkg (stackTrainingDone st) s

/-- The patch bundle (R447, R448, R552): level and count, or its refusal. The level is the bundle's VERSION. -/
def Pkg.applyBundle (p : Pkg) : Pkg :=
  let b := p.care.flash.bundle
  if p.part.bootMode = 2 || b.isEmpty then p
  else if trusted p.part 2 b && decide (p.part.patchFuses ≤ leAt b 6 2) then
    let n := p.freeNat % 33
    let p := { p.freeNext with host := { p.host with patchLevel := leAt b 8 4, patchCount := n },
                               part := { p.part with patchFuses := min 32 (leAt b 6 2) } }
    p.log0 .host 0 0x00D3 0 none
  else (p.fset F.hostPatchRejected 0 1).log0 .host 0 0x00D2 0 (some 8)
/-- SHA-384 of the bundle applied, zeros without one. -/
def Pkg.bundleHash (p : Pkg) : List Byte :=
  if p.host.patchLevel = 0 && p.host.patchCount = 0 then List.replicate 48 0#8 else sha384 p.care.flash.bundle
/-- The running Caretaker image. -/
def Pkg.fwImage (p : Pkg) : List Byte :=
  if p.fon F.careStatusRecovery 0 then [] else (p.care.flash.slot (p.fget F.careStatusSlot 0)).bytes

/-- Identity (R542 to R544). -/
def Pkg.identity (p : Pkg) : Pkg :=
  let cdi := hmac384 p.part.uds (sha384 Config.maskRom ++ p.bundleHash ++ sha384 p.fwImage)
  let ok := match p.care.flash.cert with | none => true | some c => decide (sha384 c = p.part.certHash)
  let p := { p with spdm := { p.spdm with cdi := cdi, certOk := ok } }
  if ok then p.fset F.secStatusIdValid 0 1 else p.log0 .sec 0 0x0164 0 (some 8)

/-- The records of board flash are written back (R60, R223, R476, R490). -/
def Pkg.writeBack (p : Pkg) : Pkg :=
  let f := p.care.flash
  let p := f.failed.foldl (fun (p : Pkg) i => if p.fused i || decide (288 ≤ i) then p else p.markFailed i) p
  let p := f.rmap.foldl (fun (p : Pkg) x => { p with regs := AMap.set 0#64 p.regs x.1 x.2 }) p
  let p := (List.range 288).foldl (fun (p : Pkg) i =>
    if (f.rmap.any fun x => decide (Blk.base .fen i ≤ x.1) && decide (x.1 < Blk.base .fen i + 0x4000)) then p.sparesCount i else p) p
  let p := f.ways.foldl (fun (p : Pkg) x => { p with regs := AMap.set 0#64 p.regs x.1 x.2 }) p
  [1, 2, 4].foldl (fun (p : Pkg) n => if f.replace / 2 ^ n % 2 = 1 then p.replace n else p) p

/-- The latched causes of the VAUX domain are logged and cleared (R589). -/
def Pkg.logLatches (p : Pkg) : Pkg :=
  let w := p.power
  let p := match w.latchTrip with | some d => p.log0 .chip 0 0x0170 d (some 11) | none => p
  let p := match w.latchPg with | some i => p.log0 .chip 0 0x0171 i (some 11) | none => p
  let p := match w.latchSeq with | some m => p.log0 .chip 0 0x0172 m (some 11) | none => p
  { p with power := { p.power with latchTrip := none, latchPg := none, latchSeq := none } }

/-- What the Caretaker does once its firmware runs (R471). DESIGN CHOICE (log entry 126): it is then that it sets MEDIUM on
the global ports (R309). -/
def Pkg.enterS1 (p : Pkg) : Pkg :=
  let p := p.fset F.careStatusMgUp 0 3
  let p := [6, 7, 14, 15].foldl (fun (p : Pkg) q => p.fset F.issynCtrlMedium q 1) p
  let p := (bootSlot p.part p.care.flash).2.foldl (fun (p : Pkg) s => p.log0 .care 0 0x0124 s (some 10)) p
  (((p.logLatches).writeBack).applyBundle).identity

/-- MRDIMM modules are read (R256, R471); PPR shows the repair resources of the stacks (R490). -/
def Pkg.enterS3 (p : Pkg) : Pkg :=
  let p := (List.range 8).foldl (fun (p : Pkg) c =>
    let g := p.part.modules.getD c 256
    (p.fset (F.peatModCapGib.nth (c % 4)) (c / 4) g).fset (F.peatModPresent.nth (c % 4)) (c / 4) (b2n (decide (g ≠ 0)))) p
  if p.stacksLeft.any fun s => !(p.stack s).sparesUsed.isEmpty then p.replace 3 else p

/-- A port has ended its first full training in UP or DOWN, or is not enabled (R471). -/
def Pkg.portTrained (p : Pkg) (q : Nat) : Bool :=
  !p.fon F.issynCtrlEnable q || (p.port q).state = .up || (p.port q).partner.isSome || decide (p.fget F.issynStatusDownCause q ≠ 0)

/-- Condition for the stage after the present one. -/
def Pkg.stageReady (p : Pkg) : Nat → Bool
  | 1 => true
  | 2 => !p.fon F.careStatusRecovery 0
  | 3 => p.training.isNone && p.stacksLeft.all p.fullRate
  | 4 => (List.range 16).all p.portTrained
  | 5 => p.bell.tb1.everLocked || p.bell.tb1.everSelf
  | _ => false

/-- FULL service, with its event (R474). -/
def Pkg.fullService (p : Pkg) : Pkg := (p.fset F.chipStageService 0 3).log0 .chip 0 0x00F2 0 none

/-- STAGE_ENTERED (R471). -/
def stageEntered (p : Pkg) : Pkg :=
  let k := p.fget F.chipStage 0 + 1
  if !p.stageReady k then p
  else
    let p := p.fset F.chipStage 0 k
    let p := p.fset F.chipStageStageMs 0 (min (2 ^ 32 - 1) (p.rawNs / nsPerMs))
    let p := p.log0 .chip 0 0x00F0 k none
    if k = 1 then p.enterS1
    else if k = 2 then (p.fset F.chipStageService 0 1).trainNext
    else if k = 3 then p.enterS3
    else if k = 5 && p.fget F.chipStageService 0 = 2 then p.fullService
    else p
def execStageEntered (s : State) : Host.Outcome State Fault Refusal := onPkg stageEntered s

/-- FULL_RATE (R474). -/
def fullRate (p : Pkg) : Pkg :=
  if 4 ≤ p.fget F.chipStage 0 && p.fget F.chipStageService 0 = 1 && !p.planArmed then
    let p := (p.fset F.chipStageService 0 2).log0 .chip 0 0x00F1 0 none
    if p.fget F.chipStage 0 = 5 then p.fullService else p
  else p
def execFullRate (s : State) : Host.Outcome State Fault Refusal := onPkg fullRate s

/-! Hard failures of memory (R486, R491). -/

/-- STACK_LOST. -/
def stackLost (s : Nat) (p : Pkg) : Pkg :=
  if p.fitted s && (p.stack s).up then
    let p := p.updStack s fun x => { x with up := false }
    let p := { p with training := if p.training = some s then none else p.training }
    let p := ((p.log0 .sdram s 0x0111 s (some 9)).fault F.chipFaultStack).replace 5
    ((armReady p).trainNext).careCompletions
  else p
def execStackLost (st : Fin 8) (s : State) : Host.Outcome State Fault Refusal := onPkg (stackLost st) s

/-- PEAT_LOST. -/
def peatLost (c : Nat) (p : Pkg) : Pkg :=
  let m := F.peatModPresent.nth (c % 4)
  if c < 8 && p.fon m (c / 4) then
    (((p.fset m (c / 4) 0).log0 .peat (c / 4) 0x0112 c (some 9)).fault F.chipFaultPeat).replace 6
  else p
def execPeatLost (c : Nat) (s : State) : Host.Outcome State Fault Refusal := onPkg (peatLost c) s

end Sys2Proof.Machine
end

