-- ==== Sys2Proof/Machine/Power.lean ====
section
/-! DEFINITION. Power states: refusers, entry, commit, abort, exit; the sequencing of the rail enables (R520 to R528,
R582, R586 to R589). -/
namespace Sys2Proof.Machine

open Sys2Proof

def Pkg.updPower (p : Pkg) (g : Power → Power) : Pkg := { p with power := g p.power }

/-! Refusers (R524). -/

def Pkg.rollBusy (p : Pkg) : Nat := (p.roll.entries.filter fun x => decide (x.2.state = 1 ∨ x.2.state = 2)).length
/-- A port in UP that still has, or lately had, traffic. -/
def Pkg.partnerBusy (p : Pkg) (q : Nat) : Bool :=
  let x := p.port q
  x.state = .up &&
    (!x.replay.isEmpty || !x.rx.isEmpty || !x.stag.isEmpty ||
     (match x.lastData with | some t => decide (p.rawNs < t + nsPerMs) | none => false))
/-- The first refuser that holds for a target, with its detail. Whether a stack controller holds postponed refreshes is a
free value. -/
def Pkg.refuser (p : Pkg) (target : Nat) : Option (Nat × Nat) :=
  if p.rollBusy ≠ 0 || !p.roll.backlog.isEmpty then some (1, p.rollBusy)
  else if (3 ≤ p.job.state && p.job.state ≤ 7) || p.tb1Run then some (2, p.job.state)
  else if target < 2 then none
  else
    match (List.range 16).find? p.partnerBusy with
    | some q => some (3, q)
    | none =>
      if p.fon F.careStatusUpdate 0 then
        let s := p.fget F.careStatusSlot 0
        some (4, if p.fon F.careStatusTrial 0 then s else 1 - s)
      else if 4 ≤ target then none
      else (p.stacksLeft.find? fun s => decide (p.freeNat / 2 ^ s % 2 = 1)).map fun s => (5, s)

/-- What CHIP.PWR and CHIP.PWR_REF show of a refusal or abort (R527). -/
def Pkg.noteRefusal (p : Pkg) (target : Nat) (r : Nat × Nat) (abort : Bool) : Pkg :=
  let p := (p.fset F.chipPwrLastRefuser 0 r.1).fset F.chipPwrLastAbort 0 (b2n abort)
  let p := (p.fset F.chipPwrLastTarget 0 target).fset F.chipPwrLastDetail 0 r.2
  let p := p.fset F.chipPwrLastTb0 0 p.tb0
  if abort then (p.fadd (F.chipPwrRefAborted.nth (r.1 - 1)) 0 1).log0 .chip 0 0x0143 r.1 (some 10)
  else (p.fadd (F.chipPwrRefRefused.nth (r.1 - 1)) 0 1).log0 .chip 0 0x0142 r.1 none

/-- An entry is under way. -/
def Pkg.entering (p : Pkg) : Bool := p.power.cmd.isSome
/-- A wake event (R523, R526). -/
def Pkg.wake (p : Pkg) : Pkg :=
  if p.entering || (1 ≤ p.power.state && p.power.state ≤ 3) then p.updPower fun w => { w with wakeHeld := true } else p

/-- POWER_STATE as taken, its field checked (R523, R524). -/
def Pkg.powerState (p : Pkg) (c : Cmd) : Pkg :=
  let t := c.le 0x10 1
  if t = 0 then
    if p.power.state = 0 && !p.entering then p.done c 0 0 else (p.goOn c).wake
  else if p.power.state ≠ 0 || p.entering then p.final c 7 0 0
  else
    match p.refuser t with
    | some r => (((p.noteRefusal t r false).freeNext)).final c 0x0441 r.1 0
    | none => ((p.freeNext).goOn c).updPower fun w => { w with target := t, cmd := some c, committed := false }

/-- Preparation has no work left: Dredge has restored its region and, below IDLE, the controllers have drained (R230,
R525). -/
def Pkg.prepared (p : Pkg) : Bool :=
  (List.range 4).all (fun d => decide ((p.dredge d).phase = 0)) &&
  (decide (p.power.target < 2) || (p.dram.queue.isEmpty && p.mesh.all fun m => m.reqs.isEmpty))

/-- The event ring goes to board flash (R501, R522). -/
def Pkg.flushLog (p : Pkg) : Pkg := { p with care := { p.care with flash := { p.care.flash with log := p.care.log } } }

/-- POWER_ENTRY_COMMIT (R525). -/
def powerEntryCommit (p : Pkg) : Pkg :=
  match p.power.cmd with
  | some c =>
    let t := p.power.target
    if p.power.committed || !p.prepared || (p.refuser t).isSome then p
    else
      let p := (p.updPower fun w => { w with committed := true }).log0 .chip 0 0x0140 t none
      let p := if t = 4 then p.flushLog else p
      if 2 ≤ t then (p.final c 0 0 0).careCompletions else p
  | none => p
def execPowerEntryCommit (s : State) : Host.Outcome State Fault Refusal := onPkg powerEntryCommit s

/-- POWER_ABORTED (R525). -/
def powerAborted (p : Pkg) : Pkg :=
  match p.power.cmd with
  | some c =>
    match (if p.power.committed then none else p.refuser p.power.target) with
    | some r =>
      let p := p.noteRefusal p.power.target r true
      let p := p.updPower fun w => { w with target := 0, cmd := none, wakeHeld := false }
      let p := (p.freeNext).final c 0x0441 r.1 1
      (p.endOp 0x0080 0 0 0).careCompletions
    | none => p
  | none => p
def execPowerAborted (s : State) : Host.Outcome State Fault Refusal := onPkg powerAborted s

/-! Sequencing of the enables. -/

/-- Release of the enables begins: the highest one that is driven falls. -/
def Power.release (w : Power) : Power := { w with rising := false, en := w.en / 2 }
/-- The package falls into its cold state and the enables are released. -/
def Pkg.powerDown (p : Pkg) : Pkg := (p.updPower Power.release).coldState

/-- TB1 and TB2 under SLEEP and DEEP (R521). -/
def TBase.sleep (x : TBase) : TBase := { x with state := .hold, trim := x.integ, slave := none, lastUse := x.count }
def TBase.wakeUp (x : TBase) : TBase := { x with state := .free, phaseStepped := false, steps := 255 }

/-- The state that has been entered takes effect (R520 to R522). -/
def Pkg.enterPower (p : Pkg) (t : Nat) : Pkg :=
  let held := p.power.wakeHeld
  let p := p.updPower fun w => { w with state := t, target := t, committed := false, cmd := none }
  if t = 4 then ((p.updPower fun w => { w with wakeAfter := held }).powerDown).updPower fun w => { w with state := 4, target := 4 }
  else
    let p := if 2 ≤ t then
        let p := { p with bell := { p.bell with tb1 := p.bell.tb1.sleep, tb2 := p.bell.tb2.sleep } }
        p.stacksLeft.foldl (fun (p : Pkg) s => p.updStack s fun x => { x with selfRefresh := true }) p
      else p
    if t = 3 then
      (List.range 288).foldl (fun (p : Pkg) f => p.updFen f fun x =>
        { x with proc := { x.proc with icache := { x.proc.icache with lines := [], lru := [], want := [], bad := [] } } }) p
    else p

/-- POWER_ENTRY_DONE (R525, R526). -/
def powerEntryDone (p : Pkg) : Pkg :=
  match p.power.cmd with
  | some c =>
    if p.power.committed then
      let t := p.power.target
      let p := if t = 1 then (p.final c 0 0 0).careCompletions else p
      p.enterPower t
    else p
  | none => p
def execPowerEntryDone (s : State) : Host.Outcome State Fault Refusal := onPkg powerEntryDone s

/-- POWER_EXIT (R521, R523, R526): a wake event has come in the state. -/
def powerExit (p : Pkg) : Pkg :=
  let t := p.power.state
  if 1 ≤ t && t ≤ 3 && p.power.wakeHeld && !p.entering then
    let p := p.updPower fun w => { w with state := 0, target := 0, wakeHeld := false }
    let p := p.log0 .chip 0 0x0141 t none
    let p := if 2 ≤ t then
        let p := p.stacksLeft.foldl (fun (p : Pkg) s => p.updStack s fun x => { x with selfRefresh := false }) p
        ((List.range 16).filter fun q => p.fon F.issynCtrlEnable q).foldl Pkg.retrain p
      else p
    let p := if t = 3 then { p with bell := { p.bell with tb1 := p.bell.tb1.wakeUp, tb2 := p.bell.tb2.wakeUp } } else p
    (p.endOp 0x0080 0 0 0).careCompletions
  else p
def execPowerExit (s : State) : Host.Outcome State Fault Refusal := onPkg powerExit s

/-- A command that acts on the VAUX domain: it also reaches a dark package. -/
def onPower (f : Pkg → Pkg) (s : State) : Host.Outcome State Fault Refusal := .next { s with pkg := f s.pkg }

/-- WAKE_N (R523, R582, R586, R588): a falling edge. -/
def wakeN (p : Pkg) : Pkg :=
  let p := p.updPower fun w => { w with tripPin := false }
  if p.on then p.wake
  else if p.power.rising && decide (p.power.en ≠ 0) then p
  else p.updPower fun w => { w with wakeAfter := true }
def execWakeN (s : State) : Host.Outcome State Fault Refusal := onPower wakeN s

/-- POWER_UP_START (R586): VAUX has entered its range, or a falling edge of WAKE_N is held, and no enable is driven. -/
def powerUpStart (p : Pkg) : Pkg :=
  let w := p.power
  if w.en = 0 && (!w.vaux || (w.wakeAfter && !w.tripPin)) then
    p.updPower fun w => { w with vaux := true, en := 1, pg := 0, rising := true, wakeAfter := false }
  else p
def execPowerUpStart (s : State) : Host.Outcome State Fault Refusal := onPower powerUpStart s

/-- PWR_EN_STEP (R582, R586, R587): the next enable rises, or falls. -/
def pwrEnStep (p : Pkg) : Pkg :=
  p.updPower fun w =>
    if w.en = 0 then w
    else if w.rising then (if w.en < 15 then { w with en := 2 * w.en + 1 } else w)
    else { w with en := w.en / 2 }
def execPwrEnStep (s : State) : Host.Outcome State Fault Refusal := onPower pwrEnStep s

/-- PWR_SEQ_TIMEOUT (R586): not all of the inputs `pg` are high. -/
def pwrSeqTimeout (pg : Nat) (p : Pkg) : Pkg :=
  let w := p.power
  if w.rising && decide (w.en = 15) && decide (w.pg ≠ 15) && decide (pg ≠ 15) then
    p.updPower fun w => { w.release with latchSeq := some pg }
  else p
def execPwrSeqTimeout (pg : Fin 16) (s : State) : Host.Outcome State Fault Refusal := onPower (pwrSeqTimeout pg) s

/-- PG_LOST (R587, R588): a power-good falls while its enables are driven and rising or up. -/
def pgLost (i : Nat) (p : Pkg) : Pkg :=
  let w := p.power
  if w.rising && decide (w.en / 2 ^ i % 2 = 1) then
    (p.updPower fun w => { w with latchPg := some i, pg := if w.pg / 2 ^ i % 2 = 1 then w.pg - 2 ^ i else w.pg }).powerDown
  else p
def execPgLost (i : Fin 4) (s : State) : Host.Outcome State Fault Refusal := onPower (pgLost i) s

/-- Die of a thermal sensor: 256 fen sensors by the full grade's grid, then 14 per compute die and 4 per edge die (R497). -/
def sensorDie (n : Nat) : Nat :=
  if n < 256 then (if n / 16 < 8 then 0 else 2) + (if n % 16 < 8 then 0 else 1)
  else if n < 312 then (n - 256) / 14
  else 4 + (n - 312) / 4
/-- THERMTRIP (R582). -/
def thermtrip (n : Nat) (p : Pkg) : Pkg :=
  if n < 320 && p.power.vaux && decide (p.power.en ≠ 0) then
    (p.updPower fun w => { w with tripPin := true, latchTrip := some (sensorDie n) }).powerDown
  else p
def execThermtrip (sensor : Nat) (s : State) : Host.Outcome State Fault Refusal := onPower (thermtrip sensor) s

/-- VAUX is gone: every enable falls and the latches clear (R580, R582, R588). -/
def vauxLoss (p : Pkg) : Pkg :=
  (p.updPower fun w => { w with vaux := false, en := 0, pg := 0, rising := false, wakeAfter := false, tripPin := false,
                                latchTrip := none, latchPg := none, latchSeq := none }).coldState

end Sys2Proof.Machine
end

