-- ==== Sys2Proof/Machine/HostIf.lean ====
section
/-! DEFINITION. The host interface: the memory window and the other areas of BAR2, the scan of the command queues, and
the commands of the ROM with the checks that come before those of the chapter that owns each (R428 to R449, R534,
R549, R550, R595). -/
namespace Sys2Proof.Machine

open Sys2Proof

/-! BAR2 (R433, R434). -/

/-- Answer of a read: bytes, Unsupported Request, poisoned. -/
def Pkg.answer (p : Pkg) (bs : List Byte) (ur poison : Bool) : Pkg :=
  { p with host := { p.host with resp := p.host.resp ++ [(bs, ur, poison)] } }
/-- A host request refused under R433 or R434. -/
def Pkg.urRead (p : Pkg) : Pkg := (p.fadd F.hostStatUr 0 1).answer [] true false
def Pkg.urWrite (p : Pkg) : Pkg := (p.fadd F.hostStatUr 0 1).hostUr

/-- Package address of a window byte: class and address. -/
def Pkg.winAddr (p : Pkg) (w off : Nat) : Nat × Nat :=
  (p.fget (F.hostMwinClass.nth w) 0, p.fget (F.hostMwinBase.nth w) 0 / 2 ^ 30 * 2 ^ 30 + off)
/-- Some byte of a run may not be written: unmapped, loader-reserved, or in a weight set. -/
def Pkg.badWrite (p : Pkg) (cls a n : Nat) : Bool :=
  (List.range n).any fun i => !p.atomMapped cls ((a + i) / 64 * 64) true || p.inWeights cls (a + i) || decide (2 ^ 44 ≤ a + i)

/-- Bytes enabled in a write, with their place. -/
def enabled (be : List Bool) (data : List Byte) : List (Nat × Byte) :=
  ((data.zip be).zipIdx.filter fun x => x.1.2).map fun x => (x.2, x.1.1)
/-- Enabled bytes stored in a buffer. -/
def putBytes (m : Memory) (off : Nat) (l : List (Nat × Byte)) : Memory := l.foldl (fun m x => m.write (off + x.1) [x.2]) m

/-- Sizes of the areas by number: memory windows 0 and 1, intake records, command slots, weight frames. -/
def areaSize (w : Nat) : Nat := if w < 2 then 2 ^ 30 else if w = 2 then 131072 else if w = 3 then 4096 else if w = 4 then 64 * 0x101000 else 0

/-- Words of stacked DRAM read through their controller. -/
def Pkg.windowRead (p : Pkg) (a n : Nat) : Pkg × List Byte × Bool :=
  let b := a / 8 * 8
  if inWpt (a % 2 ^ 36) || inWpt ((a + (n - 1)) % 2 ^ 36) then (p, p.memRead 0 a n, false)
  else
    let r := Pkg.dramReadGo ((a + n + 7) / 8 - a / 8) b p
    (r.1, sliceB r.2.1 (a - b) n, r.2.2)

/-- MEMORY_WINDOW_READ: a host read of area `w` of BAR2. -/
def memoryWindowRead (w off len : Nat) (p : Pkg) : Pkg :=
  if p.host.d3hot || areaSize w < off + len then p.urRead
  else if w < 2 then
    let (cls, a) := p.winAddr w off
    if p.power.state = 3 || p.badRun cls a len then p.urRead
    else if cls = 0 then
      let r := p.windowRead (a % 2 ^ 39) len
      r.1.answer r.2.1 false r.2.2
    else
      let b := a % 2 ^ 41 / 64 * 64
      let r := Pkg.peatGo ((a % 2 ^ 41 + len - b + 63) / 64) b p
      r.1.answer (sliceB r.2.1 (a % 2 ^ 41 - b) len) false r.2.2
  else if w = 2 then p.answer (p.roll.intake.read off len) false false
  else if w = 3 then p.answer (p.host.slotMem.read off len) false false
  else p.answer (p.wgt.frames.read off len) false false
def execMemoryWindowRead (w off len : Nat) (s : State) : Host.Outcome State Fault Refusal := onPkg (memoryWindowRead w off len) s

/-- A write touches the SEQ word of a command slot. -/
def touchesSeq (off : Nat) (l : List (Nat × Byte)) : Bool := l.any fun x => decide (0x1FC ≤ (off + x.1) % 512)

/-- MEMORY_WINDOW_WRITE: a posted write to area `w` of BAR2. -/
def memoryWindowWrite (w off : Nat) (be : List Bool) (data : List Byte) (ep : Bool) (p : Pkg) : Pkg :=
  let l := enabled be data
  if ep || p.host.d3hot || areaSize w < off + data.length then p.urWrite
  else if w < 2 then
    let (cls, a) := p.winAddr w off
    if p.power.state = 3 || p.badWrite cls a data.length then p.urWrite
    else l.foldl (fun (p : Pkg) x => p.memWrite cls (a + x.1) [x.2]) p
  else if w = 2 then p.updRoll fun r => { r with intake := putBytes r.intake off l }
  else if w = 3 then
    let p := { p with host := { p.host with slotMem := putBytes p.host.slotMem off l } }
    if p.power.state = 3 && touchesSeq off l then p.wake else p
  else { p with wgt := { p.wgt with frames := putBytes p.wgt.frames off l } }
def execMemoryWindowWrite (w off : Nat) (be : List Bool) (data : List Byte) (ep : Bool) (s : State) :
    Host.Outcome State Fault Refusal := onPkg (memoryWindowWrite w off be data ep) s

/-! Function Level Reset and the link. -/

/-- FUNCTION_LEVEL_RESET (R432). -/
def functionLevelReset (p : Pkg) : Pkg :=
  let hush (c : Cmd) : Cmd := match c.path with | .slot _ => { c with silent := true } | _ => c
  let hushC (c : Cpl) : Cpl := match c.path with | .slot _ => { c with silent := true } | _ => c
  let p := p.stField F.hostPatchRejected 0 fun p => p.clearRegs .host 0
  let p := p.fset F.rollCtrlEgressEn 0 0
  let h := p.host
  let p := { p with host := { h with lastSeq := [], taken := h.taken.map hush, running := h.running.map hush,
                                     cplQ := h.cplQ.map hushC } }
  Pkg.cplDrain p.host.cplQ.length p
def execFunctionLevelReset (s : State) : Host.Outcome State Fault Refusal := onPkg functionLevelReset s

/-- HOST_LINK_CHANGE (R429): the Caretaker logs it; the event code is a free value, since the manual names none. -/
def hostLinkChange (gen width : Nat) (p : Pkg) : Pkg :=
  if p.host.linkGen = gen && p.host.linkWidth = width then p
  else
    let p := { p with host := { p.host with linkGen := gen, linkWidth := width } }
    (p.freeNext).log0 .care 0 (p.freeNat % 4096) 0 none
def execHostLinkChange (gen width : Nat) (s : State) : Host.Outcome State Fault Refusal := onPkg (hostLinkChange gen width) s

/-- D3HOT (R430): what waits goes on when the function returns to D0. -/
def d3hot (v : Bool) (p : Pkg) : Pkg :=
  let p := { p with host := { p.host with d3hot := v } }
  if v then p else (Pkg.cplDrain p.host.cplQ.length p).egress
def execD3hot (v : Bool) (s : State) : Host.Outcome State Fault Refusal := onPkg (d3hot v) s

/-! Taking commands (R435 to R438, R504, R523). -/

/-- Opcodes that run outside RUN without waking the package. -/
def quiet (op : Nat) : Bool := [0x0001, 0x0071, 0x0080].contains op

/-- One record is taken. -/
def Pkg.take (p : Pkg) (path : CmdPath) (r : List Byte) : Pkg :=
  let op := leAt r 0 2
  let c : Cmd :=
    { no := p.host.nextNo, path := path, opcode := op, flags := leAt r 2 2, tag := leAt r 8 8, rec_ := padTo 512 r,
      takenNs := p.rawNs, silent := false }
  let p := { p with host := { p.host with nextNo := p.host.nextNo + 1, taken := p.host.taken ++ [c] } }
  let p := p.fadd F.hostStatTaken 0 1
  if quiet op || (p.entering && (op = 0x0014 || op = 0x0015)) then p else p.wake

def cmdOnSlot (n : Nat) (x : CmdPath) : Bool := decide (x = .slot n)
/-- A slot's command is in progress until its FINAL completion is posted. -/
def Pkg.slotBusy (p : Pkg) (n : Nat) : Bool :=
  (p.host.taken.any fun c => cmdOnSlot n c.path) || (p.host.running.any fun c => cmdOnSlot n c.path) ||
  (p.host.cplQ.any fun c => cmdOnSlot n c.path && !c.silent)
def Pkg.scanSlot (p : Pkg) (n : Nat) : Pkg :=
  let r := p.host.slotMem.read (512 * n) 512
  let s := leAt r 0x1FC 4
  if s = 0 || decide (s = p.host.lastSeq.getD n 0) || p.slotBusy n then p
  else { p with host := { p.host with lastSeq := AMap.put p.host.lastSeq n s } }.take (.slot n) r

/-- With no plan running, adapter changes act at the next scan (R444); the copies follow at the next boundary (R349). -/
def Pkg.scanAdapters (p : Pkg) : Pkg :=
  if p.planRuns || p.roll.changes.isEmpty then p
  else p.applyChanges 0 false

/-- The Roll core scans: Caretaker path first, then slots 0 to 7. -/
def Pkg.scanning (p : Pkg) : Bool := decide (2 ≤ p.fget F.chipStage 0) && decide (p.power.state < 3)
def commandSlotScan (p : Pkg) : Pkg :=
  if !p.scanning then p
  else
    let p := p.scanAdapters
    let q := p.care.cmdQ
    let p := { p with care := { p.care with cmdQ := [] } }
    let p := q.foldl (fun (p : Pkg) x => p.take .care x.2) p
    ((List.range 8).foldl Pkg.scanSlot p).careCompletions
def execCommandSlotScan (s : State) : Host.Outcome State Fault Refusal := onPkg commandSlotScan s

/-! Checks that come first (R440, R441, R444, R446). -/

/-- Body bytes that a command defines. -/
def bodySpans (v13 : Bool) (op : Nat) : List (Nat × Nat) :=
  if op = 0x0001 then [(0x10, 8)]
  else if op = 0x0010 then [(0x10, 16)]
  else if op = 0x0011 then [(0x10, 4), (0x18, 8)]
  else if op = 0x0012 then [(0x10, 42)]
  else if op = 0x0013 then [(0x10, 8)]
  else if op = 0x0014 then [(0x10, 1)]
  else if op = 0x0020 then [(0x10, 1), (0x12, 0x36), (0x48, 48)]
  else if op = 0x0021 then [(0x10, 1), (0x18, 8)]
  else if op = 0x0030 then [(0x10, 3), (0x14, 28)]
  else if op = 0x0031 then [(0x10, 2)]
  else if op = 0x0040 then [(0x10, 1), (0x14, 8), (0x20, 12)]
  else if op = 0x0050 then [(0x10, 28), (0x30, 12)]
  else if op = 0x0051 then [(0x10, 28)] ++ (if v13 then [(0x2C, 2)] else [])
  else if op = 0x0058 then [(0x10, 2), (0x18, 8)]
  else if op = 0x0060 then [(0x10, 2), (0x18, 8)]
  else if op = 0x0070 then [(0x10, 5), (0x18, 16)] ++ (if v13 then [(0x15, 1)] else [])
  else if op = 0x0071 then [(0x18, 12)] ++ (if v13 then [(0x28, 8)] else [])
  else if op = 0x0080 then [(0x10, 1)]
  else if op = 0x0090 then [(0x10, 4)]
  else []
def opcodes : List Nat :=
  [0x0001, 0x0010, 0x0011, 0x0012, 0x0013, 0x0014, 0x0015, 0x0020, 0x0021, 0x0030, 0x0031, 0x0040, 0x0050, 0x0051, 0x0058,
   0x0059, 0x0060, 0x0070, 0x0071, 0x0080, 0x0090]

/-- A reserved byte or flag of the record is not zero. -/
def Pkg.recordBad (p : Pkg) (c : Cmd) : Bool :=
  let sp := bodySpans p.v13 c.opcode
  decide (c.le 4 4 ≠ 0) || decide (c.flags / (if p.v13 then 4 else 2) ≠ 0) ||
  (List.range 492).any fun i =>
    decide (c.rec_.getD (0x10 + i) 0#8 ≠ 0#8) && !(sp.any fun s => decide (s.1 ≤ 0x10 + i) && decide (0x10 + i < s.1 + s.2))

/-- The oldest taken command may run now. -/
def Pkg.mayRun (p : Pkg) (c : Cmd) : Bool :=
  (p.power.state = 0 && !p.entering) || quiet c.opcode || (p.entering && (c.opcode = 0x0014 || c.opcode = 0x0015))

/-- A command of the ROM: the oldest taken record runs when it has the opcode of the row. An opcode that the command set
does not know ends at once, and a command that its path does not carry. -/
def romRun (op : Nat) (f : Cmd → Pkg → Pkg) (p : Pkg) : Pkg :=
  match p.host.taken with
  | [] => p
  | c :: r =>
    if !p.mayRun c then p
    else
      let q := { p with host := { p.host with taken := r } }
      if !opcodes.contains c.opcode then (q.final c 1 0 0).careCompletions
      else if c.opcode ≠ op then p
      else (f c q).careCompletions
/-- Busy, state and field checks, in this order, then the command. -/
def checked (grp : Bool) (stateBad fieldBad : Cmd → Pkg → Bool) (f : Cmd → Pkg → Pkg) (c : Cmd) (p : Pkg) : Pkg :=
  if grp && p.groupBusy then p.final c 3 0 0
  else if stateBad c p then p.final c 7 0 0
  else if p.recordBad c || fieldBad c p then p.final c 2 0 0
  else f c p
/-- No check of a kind. -/
def never (_ : Cmd) (_ : Pkg) : Bool := false
/-- A host address is a multiple of 64, and of more where stated. -/
def hostAligned (a n : Nat) : Bool := decide (a % n = 0)

/-! The commands. -/

/-- ASCII bytes. -/
def ascii (s : String) : List Byte := s.toList.map fun c => BitVec.ofNat 8 c.toNat
/-- Ordering number (R593). -/
def Pkg.orderNo (p : Pkg) : List Byte :=
  ascii (if p.part.grade = 0 then "TCH-MD256-384-L" else if p.part.grade = 1 then "TCH-MD224-384-L" else "TCH-MD192-288-L")
/-- The identify data (R445). -/
def Pkg.identifyData (p : Pkg) : List Byte :=
  let b := p.part.b0
  padTo 4096 (padTo 16 p.orderNo ++ leBytes 2 (if b then 0xB0 else 0xA1) ++ leBytes 2 (if b then 0x0103 else 0x0102) ++
    leBytes 2 (if b then 3 else 1) ++ leBytes 1 p.meshW ++ leBytes 1 p.stackCount ++ leBytes 4 (p.peatBytes / 2 ^ 30) ++
    leBytes 4 (p.fget F.chipStage 0) ++ leBytes 16 p.part.serial ++ leBytes 4 Config.romVersion ++ leBytes 4 p.host.patchLevel ++
    leBytes 8 p.host.patchCount ++ leBytes 2 p.phys)
def identify (c : Cmd) (p : Pkg) : Pkg :=
  if !hostAligned (c.le 0x10 8) 4096 then p.final c 4 0 0 else (p.hostWrite (c.le 0x10 8) p.identifyData).done c 0 0
def execIdentify (s : State) : Host.Outcome State Fault Refusal := onPkg (romRun 0x0001 (checked false never never identify)) s

def execLoadPlan (s : State) : Host.Outcome State Fault Refusal :=
  onPkg (romRun 0x0010 (checked true (fun _ p => decide (3 ≤ p.job.state) && decide (p.job.state ≤ 5)) never (fun c p => p.loadPlan c))) s

def execRelocate (s : State) : Host.Outcome State Fault Refusal :=
  onPkg (romRun 0x0011 (checked true (fun _ p => p.job.image.isNone || !(p.job.state = 1 || p.job.state = 2))
    (fun c _ => decide (1 < c.le 0x12 2)) (fun c p => p.relocate c))) s

def execArm (s : State) : Host.Outcome State Fault Refusal := onPkg (romRun 0x0012 (fun c p => p.arm c (p.recordBad c))) s

def execStartAt (s : State) : Host.Outcome State Fault Refusal :=
  onPkg (romRun 0x0013 (checked false (fun _ p => p.job.state ≠ 4 || p.drive) never (fun c p => p.startAt c))) s

def execDisarm (s : State) : Host.Outcome State Fault Refusal :=
  onPkg (romRun 0x0014 (checked false never (fun c _ => !(c.le 0x10 1 = 1 || c.le 0x10 1 = 2)) (fun c p => p.disarm c))) s

/-- ABORT is never refused, whatever its record holds (R462). -/
def execAbort (s : State) : Host.Outcome State Fault Refusal := onPkg (romRun 0x0015 (fun c p => p.abort c)) s

def execLoadWeights (s : State) : Host.Outcome State Fault Refusal :=
  onPkg (romRun 0x0020 (checked false never (fun c _ => c.loadWide) (fun c p => p.loadWeights c))) s

def execSwitchWeightsAt (s : State) : Host.Outcome State Fault Refusal :=
  onPkg (romRun 0x0021 (checked false never (fun c _ => decide (4 ≤ c.le 0x10 1)) (fun c p => p.switchWeights c))) s

/-- An adapter change waits for its boundary, or for the next scan when no plan runs. -/
def Pkg.addChange (p : Pkg) (c : Cmd) (mode : Nat) : Pkg :=
  let x : AdChange :=
    { mode := mode, handle := c.le 0x10 2, gen := c.le 0x14 4, addr := c.le 0x18 8, len := c.le 0x20 8, step := c.le 0x28 8,
      cmd := c.no }
  (p.goOn c).updRoll fun r => { r with changes := r.changes ++ [x] }
/-- ADAPTER_PUT (R350, R351, R444). -/
def adapterPut (c : Cmd) (p : Pkg) : Pkg :=
  let e := p.adapter (c.le 0x10 2)
  let g := c.le 0x14 4
  let mode := c.le 0x12 1
  if mode = 1 && c.le 0x28 8 < p.stepOf p.refCount + 2 then p.final c 0x0402 0 0
  else if e.room.isNone then p.final c 0x0401 0 0
  else if g = 0 || (e.s0.st ≠ 0 && e.s0.gen = g) || (e.s1.st ≠ 0 && e.s1.gen = g) then p.final c 0x0403 0 0
  else p.addChange c mode
def execAdapterPut (s : State) : Host.Outcome State Fault Refusal :=
  onPkg (romRun 0x0030 (checked false (fun c p => decide (c.le 0x12 1 = 1) && !p.planRuns) (fun c _ => decide (1 < c.le 0x12 1)) adapterPut)) s

/-- ADAPTER_RETIRE (R352). -/
def execAdapterRetire (s : State) : Host.Outcome State Fault Refusal :=
  onPkg (romRun 0x0031 (checked false (fun c p => (p.adapter (c.le 0x10 2)).current.isNone) never (fun c p => p.addChange c 2))) s

/-- A key of R596: `secret` expanded under a label. -/
def smKey (version : Nat) (secret label : List Byte) : List Byte :=
  hkdfExpand secret (leBytes 2 32 ++ ascii (if version = 3 then "spdm1.3 " else "spdm1.2 ") ++ label) 32
/-- A key slot whose key a set in LOADING names (R379). -/
def Pkg.keyBusy (p : Pkg) (s : Nat) : Bool :=
  match p.wgt.keys.find? s with
  | some k => p.wgt.sets.any fun x => decide (x.2.state = 1) && (List.range x.2.shards).any fun i => decide (x.2.sh i 8 4 = k.id)
  | none => false
/-- KEY_INSTALL (R549, R550). -/
def keyInstall (c : Cmd) (p : Pkg) : Pkg :=
  let slot := c.le 0x10 1
  let id := c.le 0x14 4
  match p.spdm.sessions.find? fun s => s.established && decide (s.id = c.le 0x18 4) with
  | none => p.final c 0x0413 0 0
  | some se =>
    if 64 ≤ slot || p.keyBusy slot || (p.wgt.keys.any fun k => decide (k.1 ≠ slot) && decide (k.2.id = id)) then p.final c 0x0411 0 0
    else if !hostAligned (c.le 0x20 8) 64 then p.final c 4 0 0
    else
      let b := p.host.mem.read (c.le 0x20 8) 64
      let k := smKey se.version se.reqSecret (ascii "mladuth wkey")
      match gcmOpen k (sliceB b 0 12) (sliceB b 0 16 ++ leBytes 1 slot) (sliceB b 16 32) (sliceB b 48 16) with
      | some key =>
        if leAt b 12 4 = id then
          let p := { p with wgt := { p.wgt with keys := AMap.put p.wgt.keys slot { id := id, key := key } } }
          (p.log0 .sec 0 0x0162 slot none).done c 0 0
        else (p.log0 .sec 0 0x0163 slot (some 9)).final c 0x0412 0 0
      | none => (p.log0 .sec 0 0x0163 slot (some 9)).final c 0x0412 0 0
def execKeyInstall (s : State) : Host.Outcome State Fault Refusal :=
  onPkg (romRun 0x0040 (checked false never (fun c _ => decide (c.le 0x14 4 = 0) || decide (c.le 0x28 4 ≠ 64)) keyInstall)) s

def execReplay (s : State) : Host.Outcome State Fault Refusal :=
  onPkg (romRun 0x0050 (checked false never never (fun c p => p.replay c))) s

/-- The records of the digest log that are present, in log order; their reading (R254). -/
def Pkg.noteLog (p : Pkg) : Pkg :=
  p.noteRead 0 logBase (64 * if p.fget F.dlogHeadWraps 0 = 0 then p.fget F.dlogHeadIndex 0 else 2 ^ 20)
def Pkg.logRecs (p : Pkg) : List (List Byte) :=
  let h := p.fget F.dlogHeadIndex 0
  let ks := (if p.fget F.dlogHeadWraps 0 = 0 then [] else (List.range (2 ^ 20 - h)).map (· + h)) ++ List.range h
  ks.map fun k => p.memRead 0 (logBase + 64 * k) 64
/-- DIGEST_READ (R413, R444). -/
def digestRead (c : Cmd) (p : Pkg) : Pkg :=
  if !hostAligned (c.le 0x20 8) 64 then p.final c 4 0 0
  else
    let p := p.noteLog
    let all := p.logRecs
    let ty := c.le 0x2C 2
    let sel := (all.filter fun r =>
      decide (c.le 0x10 8 ≤ leAt r 8 8) && decide (leAt r 8 8 ≤ c.le 0x18 8) && (decide (ty = 0) || decide (ty / 2 ^ leAt r 0 1 % 2 = 1))).take (c.le 0x28 4)
    let low := ((all.filter fun r => decide (leAt r 0 1 = 1)).map fun r => leAt r 8 8).foldl min (2 ^ 64 - 1)
    (p.hostWrite (c.le 0x20 8) sel.flatten).done c sel.length low
def execDigestRead (s : State) : Host.Outcome State Fault Refusal := onPkg (romRun 0x0051 (checked false never never digestRead)) s

def execShadowBegin (s : State) : Host.Outcome State Fault Refusal :=
  onPkg (romRun 0x0058 (checked true never (fun c _ => !(c.le 0x10 1 = 1 || c.le 0x10 1 = 2) || decide (16 ≤ c.le 0x11 1))
    (fun c p => p.shadowBegin c))) s
def execShadowEnd (s : State) : Host.Outcome State Fault Refusal :=
  onPkg (romRun 0x0059 (checked false never never (fun c p => p.shadowEnd c))) s
def execTimeRebase (s : State) : Host.Outcome State Fault Refusal :=
  onPkg (romRun 0x0060 (checked true never (fun c _ => !(c.le 0x10 1 = 1 || c.le 0x10 1 = 2) || !(c.le 0x11 1 = 1 || c.le 0x11 1 = 2))
    (fun c p => p.timeRebase c))) s

/-! PERF_CONFIG (R530, R533, R534). -/

/-- Event codes listed for a block. -/
def perfListed (b : Blk) (e : Nat) : Bool :=
  let within (l : List (Nat × Nat)) : Bool := l.any fun r => decide (r.1 ≤ e) && decide (e ≤ r.2)
  decide (e ≤ 2) ||
  match b with
  | .fen => within [(0x100, 0x104), (0x200, 0x205), (0x300, 0x304), (0x400, 0x405), (0x500, 0x502), (0x600, 0x605)]
  | .sdram => within [(0x510, 0x513)]
  | .peat => within [(0x520, 0x520)]
  | .issyn => within [(0x700, 0x703)]
  | .roll => within [(0x800, 0x802)]
  | _ => false

/-- The unit of a block does not exist on this package (R568). -/
def Pkg.absent (p : Pkg) (b : Blk) (i : Nat) : Bool :=
  match b with
  | .fen => p.fused i
  | .sdram => !p.fitted i
  | _ => false

/-- A write of PERF_CTL[n] (R529). -/
def Pkg.perfCtlWrite (p : Pkg) (b : Blk) (i n : Nat) (v : W64) : Pkg :=
  if p.absent b i then p
  else
    let old := p.reg b i (0x0C0 + 8 * n)
    let ovf := bit old 62 && !bit v 62
    let p := p.setReg b i (0x0C0 + 8 * n) (setBits v 63 62 (b2n ovf))
    if bit v 63 then p.setReg b i (0x080 + 8 * n) 0#64 else p

/-- The page of a pending change, and whether its tick has come. -/
def Pkg.pendDue (p : Pkg) (x : PerfPend) : Bool :=
  match Blk.locate x.page with
  | some (.fen, i, _) => decide (x.tick ≤ p.local_ i)
  | some _ => decide (x.tick ≤ p.tb1)
  | none => false
/-- PERF_CTL_APPLY: the i-th pending change. -/
def perfCtlApply (i : Nat) (p : Pkg) : Pkg :=
  match p.perfPend[i]? with
  | some x =>
    if p.pendDue x then
      let p := { p with perfPend := dropAt p.perfPend i }
      let p := match Blk.locate x.page with | some (b, k, _) => p.perfCtlWrite b k x.ctr x.ctrl | none => p
      if p.perfPend.any fun y => decide (y.cmd = x.cmd) then p else (p.endNo x.cmd 0 0 0).careCompletions
    else p
  | none => p
def execPerfCtlApply (i : Nat) (s : State) : Host.Outcome State Fault Refusal := onPkg (perfCtlApply i) s

/-- Pages that a PERF_CONFIG names; none when BLOCK is no block page. -/
def perfPages (block : Nat) (bcast : Bool) : Option (List (Blk × Nat)) :=
  match Blk.locate block with
  | some (b, i, 0) =>
    if bcast then some (((List.range 288).filter fun f => decide (f / 72 = b.die i)).map fun f => (.fen, f)) else some [(b, i)]
  | _ => none
def perfConfig (c : Cmd) (p : Pkg) : Pkg :=
  let n := c.le 0x14 1
  let v := BitVec.ofNat 64 (c.le 0x18 8)
  let t := c.le 0x20 8
  match perfPages (c.le 0x10 4) (decide (c.le 0x15 1 = 1)) with
  | none => p.final c 4 0 0
  | some l =>
    let l := l.filter fun x => !p.absent x.1 x.2
    if l.any fun x => !perfListed x.1 (bits v 11 0) then p.final c 2 0 0
    else if l.any fun x => p.perfPend.any fun y => decide (y.page = x.1.base x.2) && decide (y.ctr = n) then p.final c 7 0 0
    else if t ≠ 0 && t < p.tb1 then p.final c 8 0 0
    else if t = 0 || l.isEmpty then (l.foldl (fun (p : Pkg) x => p.perfCtlWrite x.1 x.2 n v) p).done c 0 0
    else
      let p := p.goOn c
      { p with perfPend := p.perfPend ++ l.map fun x => { page := x.1.base x.2, ctr := n, ctrl := v, tick := t, cmd := c.no } }
def execPerfConfig (s : State) : Host.Outcome State Fault Refusal :=
  onPkg (romRun 0x0070 (checked false never (fun c _ => decide (8 ≤ c.le 0x14 1) || decide (1 < c.le 0x15 1)) perfConfig)) s

/-! LOG_READ, POWER_STATE, PARTITION_SET. -/

/-- A log record as its 32 bytes (R500). -/
def LogRec.bytes (r : LogRec) : List Byte :=
  leBytes 8 r.seq ++ leBytes 8 r.tb0 ++ leBytes 8 r.time ++ leBytes 2 r.block ++ leBytes 2 r.code ++
  leBytes 4 (r.info % 2 ^ 20 + b2n r.lost * 2 ^ 31)
/-- LOG_READ (R501, R444). -/
def logRead (c : Cmd) (p : Pkg) : Pkg :=
  if !hostAligned (c.le 0x18 8) 64 then p.final c 4 0 0
  else
    let l := p.care.log.filter fun r => decide (c.le 0x28 8 ≤ r.seq)
    let n := c.le 0x20 4 / 32
    let t := l.take n
    let next := match (l.drop n).head? with | some r => r.seq | none => p.care.nextSeq
    (p.hostWrite (c.le 0x18 8) ((t.map LogRec.bytes).flatten)).done c (32 * t.length) next
def execLogRead (s : State) : Host.Outcome State Fault Refusal := onPkg (romRun 0x0071 (checked false never never logRead)) s

def execPowerState (s : State) : Host.Outcome State Fault Refusal :=
  onPkg (romRun 0x0080 (checked false never (fun c _ => decide (4 < c.le 0x10 1)) (fun c p => p.powerState c))) s

/-- PARTITION_SET (R321, R437). -/
def partitionSet (c : Cmd) (p : Pkg) : Pkg :=
  let f := c.le 0x13 1
  let r := (portsOf (c.le 0x10 2)).foldl (fun (x : Pkg × Nat) q =>
    let p := if f = 1 then (x.1.partWrite q (x.1.fget F.issynPartPartId q) true).1 else x.1
    let y := p.partWrite q (c.le 0x12 1) (p.fon F.issynPartFence q)
    if y.2 then (y.1, x.2 + 2 ^ q)
    else if f = 0 then ((y.1.partWrite q (y.1.fget F.issynPartPartId q) false).1, x.2)
    else (y.1, x.2)) (p, 0)
  if r.2 = 0 then r.1.done c 0 0 else r.1.final c 7 r.2 0
def execPartitionSet (s : State) : Host.Outcome State Fault Refusal :=
  onPkg (romRun 0x0090 (fun c p =>
    match c.path with
    | .slot _ => p.final c 5 0 0
    | _ => checked false never (fun c _ => decide (2 < c.le 0x13 1)) partitionSet c p)) s

end Sys2Proof.Machine
end

