-- ==== Sys2Proof/Machine/Caretaker.lean ====
section
/-! DEFINITION. The Caretaker: messages from the fault manager, sensors and throttle requests, the event log, firmware
update, restart (R495 to R509, R548, R596). -/
namespace Sys2Proof.Machine

open Sys2Proof

def Pkg.updCare (p : Pkg) (g : Care → Care) : Pkg := { p with care := g p.care }
/-- Caretaker firmware runs, not the ROM's recovery path (R471, R506). -/
def Pkg.fwRuns (p : Pkg) : Bool := decide (1 ≤ p.fget F.chipStage 0) && !p.fon F.careStatusRecovery 0

/-! Caretaker Messages (R502 to R504, R548). -/

/-- Message types that the fault manager sends. -/
def fmTypes : List Nat := [1, 4, 8, 9, 10, 11, 12, 13]
/-- The message of a datagram: header of 32 bytes, body, MAC of 16 bytes. -/
def Msg.parse (b : List Byte) : Option Msg :=
  let n := leAt b 4 2
  if leAt b 0 2 = 0x4D43 && leAt b 2 1 = 1 && decide (n ≤ 1024) && decide (b.length = 48 + n) then
    some { typ := leAt b 3 1, flags := leAt b 6 2, tag := leAt b 8 8, src := leAt b 16 2, reason := leAt b 18 2,
           session := leAt b 20 4, sent := leAt b 24 8, body := sliceB b 32 n }
  else none
/-- Its MAC verifies under a live management session. -/
def Pkg.msgAuth (p : Pkg) (m : Msg) (b : List Byte) : Bool :=
  match p.spdm.sessions.find? fun s => s.mgmt && s.established && decide (s.id = m.session) with
  | some s =>
    let k := smKey s.version s.reqSecret (ascii "mladuth cm")
    let n := b.length - 16
    (gcmOpen k (leBytes 4 m.session ++ leBytes 8 m.tag) (b.take n) [] (b.drop n)).isSome
  | none => false
def Pkg.authFail (p : Pkg) : Pkg := (p.fadd F.careStatMsgDropped 0 1).log0 .care 0 0x0127 0 (some 10)

/-- An answer to a message, on the port it came by. -/
def Pkg.reply (p : Pkg) (port : Nat) (m : Msg) (flags reason : Nat) : Pkg :=
  let a : Msg :=
    { typ := m.typ, flags := flags, tag := m.tag, src := p.phys, reason := reason, session := m.session, sent := p.tb0, body := [] }
  p.updCare fun c => { c with out := (2 ^ port, a) :: c.out }
def Msg.wantsAck (m : Msg) : Bool := decide (m.flags % 2 = 1)
def Msg.isAck (m : Msg) : Bool := decide (m.flags / 2 % 2 = 1)
def Pkg.ackMsg (p : Pkg) (port : Nat) (m : Msg) : Pkg := if m.wantsAck then p.reply port m 2 0 else p
def Pkg.nackMsg (p : Pkg) (port : Nat) (m : Msg) (reason : Nat) : Pkg := p.reply port m 6 reason
/-- A message is taken: its TAG is kept among the last 1,024. -/
def Pkg.takeMsg (p : Pkg) (port : Nat) (m : Msg) : Pkg :=
  (p.updCare fun c => { c with tags := ((m.tag) :: c.tags).take 1024 }).ackMsg port m

/-- A message of the fault manager has come: the guard and the session start anew (R504, R547). -/
def Pkg.heard (p : Pkg) (m : Msg) : Pkg :=
  let p := p.updCare fun c => { c with lastMsg := p.tb1, everMsg := true }
  { p with spdm := { p.spdm with sessions := p.spdm.sessions.map fun s => if s.id = m.session then { s with last := p.rawNs } else s } }

/-- A datagram for the row of a type (0 for acknowledgements); `must`: the type has to carry ACK_REQ. -/
def msgRun (typ : Nat) (must : Bool) (act : Nat → Msg → Pkg → Pkg) (port : Nat) (b : List Byte) (p : Pkg) : Pkg :=
  if p.fget F.chipStage 0 = 0 || (port < 2 && p.mgUp / 2 ^ port % 2 = 0) then p
  else
    match Msg.parse b with
    | none => p.authFail
    | some m =>
      let mine := if m.isAck then decide (typ = 0) else decide (typ ≠ 0) && (decide (m.typ = typ) || !fmTypes.contains m.typ)
      if !mine then p
      else if !p.msgAuth m b then p.authFail
      else
        let p := p.heard m
        if m.isAck then act port m p
        else if !fmTypes.contains m.typ || (!p.fwRuns && !(typ = 11 || typ = 12)) then p.nackMsg port m 2
        else if p.care.tags.contains m.tag then p.ackMsg port m
        else if must && !m.wantsAck then p.nackMsg port m 3
        else (act port m p).careCompletions

/-- HEARTBEAT (R504). -/
def heartbeat (port : Nat) (m : Msg) (p : Pkg) : Pkg := p.takeMsg port m
def execHeartbeat (port : Nat) (msg : List Byte) (s : State) : Host.Outcome State Fault Refusal :=
  onPkg (msgRun 1 false heartbeat port msg) s

/-- COMMAND (R504): into the queue of 16, which wakes a package in DEEP (R523). -/
def command (port : Nat) (m : Msg) (p : Pkg) : Pkg :=
  if m.body.length ≠ 512 then p.nackMsg port m 3
  else if 16 ≤ p.care.cmdQ.length then p.nackMsg port m 1
  else
    let p := (p.updCare fun c => { c with cmdQ := c.cmdQ ++ [(m.tag, m.body)] }).takeMsg port m
    if p.power.state = 3 then p.wake else p
def execCommand (port : Nat) (msg : List Byte) (s : State) : Host.Outcome State Fault Refusal :=
  onPkg (msgRun 4 true command port msg) s

/-- The Caretaker writes RATIO_NEXT and then THROTTLE_TICK (R80, R499). -/
def Pkg.applyRatio (p : Pkg) (ratio tick : Nat) : Pkg :=
  let p := throttleTickWrite (BitVec.ofNat 64 tick) (p.fset F.pclkThrottleRatioNext 0 ratio)
  p.updCare fun c => { c with rejected := p.fon F.pclkThrottleRejected 0 }
/-- THROTTLE_SET: ratio at body byte 0, apply tick at bytes 8 to 15. -/
def throttleSet (port : Nat) (m : Msg) (p : Pkg) : Pkg :=
  if m.body.length ≠ 16 then p.nackMsg port m 3 else (p.applyRatio (leAt m.body 0 1) (leAt m.body 8 8)).takeMsg port m
def execThrottleSet (port : Nat) (msg : List Byte) (s : State) : Host.Outcome State Fault Refusal :=
  onPkg (msgRun 8 true throttleSet port msg) s

/-- TIME (R96): signed offset in ns at body bytes 0 to 7, RATE at bytes 8 to 11. -/
def timeMsg (port : Nat) (m : Msg) (p : Pkg) : Pkg :=
  if m.body.length ≠ 16 then p.nackMsg port m 3
  else
    let p := tb0RateWrite true (BitVec.ofNat 64 (leAt m.body 8 4)) p
    (tb0AdjWrite true (BitVec.ofNat 64 (leAt m.body 0 8)) p).takeMsg port m
def execTime (port : Nat) (msg : List Byte) (s : State) : Host.Outcome State Fault Refusal :=
  onPkg (msgRun 9 false timeMsg port msg) s

def Pkg.updFlash (p : Pkg) (g : Flash → Flash) : Pkg := p.updCare fun c => { c with flash := g c.flash }
def Flash.addFailed (f : Flash) (i : Nat) : Flash := if f.failed.contains i then f else { f with failed := f.failed ++ [i] }
def Flash.addReplace (f : Flash) (n : Nat) : Flash := if f.replace / 2 ^ n % 2 = 1 then f else { f with replace := f.replace + 2 ^ n }

/-- RECORD: a failed-fen (1, index at bytes 2, 3), repair (2, repair-map register by fen and spare at bytes 2 to 4, value at
8 to 15) or replacement record (3, bit at byte 1). -/
def record (port : Nat) (m : Msg) (p : Pkg) : Pkg :=
  let y := m.body
  let k := leAt y 0 1
  let f := leAt y 2 2
  let s := leAt y 4 1
  if y.length ≠ 16 then p.nackMsg port m 3
  else if k = 1 && f < 288 then (p.updFlash fun x => x.addFailed f).takeMsg port m
  else if k = 2 && f < 288 && s < 64 then
    (p.updFlash fun x => { x with rmap := AMap.set 0#64 x.rmap (Blk.base .fen f + 0x200 + 8 * s) (BitVec.ofNat 64 (leAt y 8 8 % 2 ^ 14)) }).takeMsg port m
  else if k = 3 && leAt y 1 1 < 8 then (p.updFlash fun x => x.addReplace (leAt y 1 1)).takeMsg port m
  else p.nackMsg port m 3
def execRecord (port : Nat) (msg : List Byte) (s : State) : Host.Outcome State Fault Refusal :=
  onPkg (msgRun 10 true record port msg) s

/-! Firmware update (R506, R507) and restart (R505). -/

def Pkg.fwSlot (p : Pkg) : Nat := p.fget F.careStatusSlot 0
def Pkg.onTrial (p : Pkg) : Bool := p.fon F.careStatusTrial 0

/-- The Caretaker runs again from the slot that boots now. -/
def Pkg.careRestart (p : Pkg) : Pkg :=
  let b := bootSlot { p.part with bootMode := p.fget F.chipStrapsBootMode 0 } p.care.flash
  let s := b.1.getD 0
  let t := b.1.isSome && (p.care.flash.slot s).trial
  let p := (p.fset F.careStatusSlot 0 s).fset F.careStatusRecovery 0 (b2n b.1.isNone)
  let p := (p.fset F.careStatusTrial 0 (b2n t)).updCare fun c => { c with cmdQ := [] }
  let p := b.2.foldl (fun (p : Pkg) s => p.log0 .care 0 0x0124 s (some 10)) p
  (p.fadd F.careStatRestarts 0 1).log0 .care 0 0x0120 0 (some 8)

/-- The trial ends without a commit: the slot loses preference. -/
def Pkg.trialLost (p : Pkg) : Pkg :=
  let s := p.fwSlot
  let p := p.updFlash fun f => { f.setSlot s { f.slot s with trial := false } with prefer := 1 - s }
  (p.fset F.careStatusTrial 0 0).fset F.careStatusUpdate 0 0

/-- CARETAKER_RESTART (R505, R507): the watchdog's. -/
def caretakerRestart (p : Pkg) : Pkg :=
  if p.fget F.chipStage 0 = 0 then p
  else
    let was := p.onTrial
    let p := p.careRestart
    if was then
      let p := p.updCare fun c => { c with trialRestarts := c.trialRestarts + 1 }
      if 2 ≤ p.care.trialRestarts && p.onTrial then p.trialLost else p
    else p
def execCaretakerRestart (s : State) : Host.Outcome State Fault Refusal := onPkg caretakerRestart s

/-- FW_WRITE: offset at body bytes 0 to 3, then the data, for the inactive slot. -/
def fwWrite (port : Nat) (m : Msg) (p : Pkg) : Pkg :=
  if p.onTrial then p.nackMsg port m 1
  else if m.body.length < 5 then p.nackMsg port m 3
  else
    let i := 1 - p.fwSlot
    let p := p.updFlash fun f =>
      let s := f.slot i
      let old : Memory := if s.factory then [] else s.image
      f.setSlot i { s with factory := false, image := Memory.write old (leAt m.body 0 4) (m.body.drop 4) }
    (p.fset F.careStatusUpdate 0 1).takeMsg port m
def execFwWrite (port : Nat) (msg : List Byte) (s : State) : Host.Outcome State Fault Refusal :=
  onPkg (msgRun 11 true fwWrite port msg) s

/-- FW_ACTIVATE. -/
def fwActivate (port : Nat) (m : Msg) (p : Pkg) : Pkg :=
  let i := 1 - p.fwSlot
  if p.onTrial then p.nackMsg port m 1
  else if !(p.care.flash.slot i).boots p.part then (p.log0 .care 0 0x0124 i (some 10)).nackMsg port m 3
  else
    let p := p.takeMsg port m
    let p := p.updFlash fun f => { f.setSlot i { f.slot i with trial := true } with prefer := i }
    let p := p.updCare fun c => { c with trialStart := p.rawNs, trialRestarts := 0 }
    (p.fset F.careStatusUpdate 0 1).careRestart
def execFwActivate (port : Nat) (msg : List Byte) (s : State) : Host.Outcome State Fault Refusal :=
  onPkg (msgRun 12 true fwActivate port msg) s

/-- FW_COMMIT (R507, R552). -/
def fwCommit (port : Nat) (m : Msg) (p : Pkg) : Pkg :=
  if !p.onTrial then p.nackMsg port m 3
  else
    let s := p.care.flash.slot p.fwSlot
    let p := p.updFlash fun f => f.setSlot p.fwSlot { s with trial := false }
    let p := (p.fset F.careStatusTrial 0 0).fset F.careStatusUpdate 0 0
    let p := { p with part := { p.part with fwFuses := max p.part.fwFuses (min 64 s.roll),
                                            revoked := (p.part.revoked ||| Config.declaredRevocations s.bytes) % 256 } }
    (p.log0 .care 0 0x0125 0 none).takeMsg port m
def execFwCommit (port : Nat) (msg : List Byte) (s : State) : Host.Outcome State Fault Refusal :=
  onPkg (msgRun 13 true fwCommit port msg) s

/-- FW_TRIAL_EXPIRE (R507): ten minutes without a commit. -/
def fwTrialExpire (p : Pkg) : Pkg :=
  if p.onTrial && decide (p.care.trialStart + 600000 * nsPerMs ≤ p.rawNs) then p.trialLost else p
def execFwTrialExpire (s : State) : Host.Outcome State Fault Refusal := onPkg fwTrialExpire s

/-! Acknowledgements and retransmission (R503). -/

/-- MESSAGE_ACK: the message with the TAG waits no longer. -/
def messageAck (_ : Nat) (m : Msg) (p : Pkg) : Pkg :=
  p.updCare fun c => { c with unacked := c.unacked.filter fun o => decide (o.msg.tag ≠ m.tag) }
def execMessageAck (port : Nat) (msg : List Byte) (s : State) : Host.Outcome State Fault Refusal :=
  onPkg (msgRun 0 false messageAck port msg) s

/-- MESSAGE_RETRANSMIT: the i-th waiting message; after eight it is given up. -/
def messageRetransmit (i : Nat) (p : Pkg) : Pkg :=
  match p.care.unacked[i]? with
  | some o =>
    if p.rawNs < o.lastSent + 2 * nsPerMs then p
    else if 9 ≤ o.sends then p.updCare fun c => { c with unacked := dropAt c.unacked i }
    else
      let p := p.updCare fun c =>
        { c with unacked := setAt c.unacked i { o with lastSent := p.rawNs, sends := o.sends + 1 }, out := (p.mgUp, o.msg) :: c.out }
      p.fadd F.careStatRetransmits 0 1
  | none => p
def execMessageRetransmit (i : Nat) (s : State) : Host.Outcome State Fault Refusal := onPkg (messageRetransmit i) s

/-! Sensors and throttle requests (R497 to R499). -/

/-- Highest thermal reading in 1/16 °C with its sensor; absent sensors read 0x8000. -/
def hottest (m : AMap Nat) : Int × Nat :=
  m.foldl (fun a x =>
    let v := sx 16 x.2
    if x.1 < 320 && x.2 ≠ 0x8000 && a.1 < v then (v, x.1) else a) (-2048, 0)
/-- A fen has been DROOP_HIGH_ACT for 1 ms. -/
def Pkg.droopy (p : Pkg) : Bool := p.care.droopSince.any fun x => decide (x.2 + nsPerMs ≤ p.rawNs)
/-- Proposed ratio for a temperature of `t` whole °C. -/
def proposal (t thr : Int) : Nat := min 64 (8 * (1 + (t - thr) / 2).toNat)

/-- Sensors that rose above their warning level in this sample: WARN_C for fens and dies, STACK_WARN_C for stacks. -/
def Pkg.warnings (p : Pkg) (old new : AMap Nat) : List Nat :=
  let above (m : AMap Nat) (n : Nat) : Bool :=
    let v := m.getD n 0x8000
    let w := p.fget (if n < 320 then F.careThermCfgWarnC else F.careThermCfgStackWarnC) 0
    decide (v ≠ 0x8000) && decide ((16 * w : Nat) < sx 16 v)
  ((new.map Prod.fst).filter fun n => decide (n < 328) && above new n && !above old n)

/-- Send THROTTLE_REQ; with no plan running, apply the ratio at once (R499). -/
def Pkg.requestRatio (p : Pkg) (sensor reading ratio : Nat) : Pkg :=
  let p := p.updCare fun c => { c with lastReq := some (p.rawNs, ratio) }
  let p := p.log0 .care 0 0x0123 ratio none
  let p := p.careSend 7 (leBytes 2 sensor ++ leBytes 2 reading ++ leBytes 1 ratio)
  if p.planRuns then p else p.applyRatio ratio 0

/-- SENSOR_SAMPLE: readings by sensor, 0 to 255 fens, 256 to 319 dies, 328 to 343 rails; stacks, 320 to 327, and droop
counters, 344 to 631, and the PLL, 632, are read from their registers. -/
def Pkg.throttleStep (p : Pkg) : Pkg :=
  let thr : Int := p.fget F.careThermCfgThrottleC 0
  let (hot, n) := hottest p.care.sensors
  let isHot := decide (16 * thr < hot)
  let droop := p.droopy
  let anyDroop := !p.care.droopSince.isEmpty
  let now := p.rawNs
  if isHot || droop then
    let r := proposal (if isHot then hot / 16 else thr) thr
    let due := match p.care.lastReq with | some (t, _) => decide (t + 10 * nsPerMs ≤ now) | none => true
    let p := p.updCare fun c => { c with coolSince := none }
    if !p.care.asked || (due && p.ratio < r) then
      (p.updCare fun c => { c with asked := true }).requestRatio n (wrapNat 16 hot) r
    else p
  else if hot < 16 * (thr - 5) && !anyDroop then
    let since := p.care.coolSince.getD now
    let p := p.updCare fun c => { c with coolSince := some since }
    if p.care.asked && decide (since + 1000 * nsPerMs ≤ now) then
      (p.updCare fun c => { c with asked := false }).requestRatio n (wrapNat 16 hot) 0
    else p
  else p.updCare fun c => { c with coolSince := none }

/-- The whole set of readings. -/
def Pkg.readings (p : Pkg) (vals : List (Nat × Nat)) : AMap Nat :=
  let m := vals.foldl (fun m x =>
    if x.1 < 320 || (328 ≤ x.1 && x.1 < 344) then AMap.put m x.1 (x.2 % 65536) else m) p.care.sensors
  (List.range 8).foldl (fun m s =>
    AMap.put m (320 + s) (if p.fitted s then p.fget F.sdramThermTempC s % 256 * 16 else 0x8000)) m
def Pkg.writeSnapshot (p : Pkg) : Pkg :=
  let m := (List.range 288).foldl (fun m f => AMap.put m (344 + f) (p.fget F.fenClkStatStretchEvents f)) p.care.sensors
  p.updCare fun c => { c with snapshot := AMap.put m 632 (p.reg .pclk 0 0x100).toNat, lastSnap := p.rawNs }

def sensorSample (vals : List (Nat × Nat)) (p : Pkg) : Pkg :=
  if !p.fwRuns then p
  else
    let old := p.care.sensors
    let new := p.readings vals
    let p := p.updCare fun c => { c with sensors := new }
    let p := if p.care.lastSnap = 0 || p.care.lastSnap + 10 * nsPerMs ≤ p.rawNs then p.writeSnapshot else p
    let p := (p.warnings old new).foldl (fun (p : Pkg) n => p.log0 .care 0 0x0122 n none) p
    p.throttleStep
def execSensorSample (vals : List (Nat × Nat)) (s : State) : Host.Outcome State Fault Refusal := onPkg (sensorSample vals) s

/-- STATUS (R499, R502): stage, job state, CHIP.FAULT, CHIP.REPLACE, ratio, states of TB1 and TB2, REJECTED. -/
def statusMsg (p : Pkg) : Pkg :=
  if !p.fwRuns then p
  else
    let b := leBytes 1 (p.fget F.chipStage 0) ++ leBytes 1 p.job.state ++ leBytes 1 p.ratio ++ leBytes 1 p.bell.tb1.state.code ++
      leBytes 1 p.bell.tb2.state.code ++ leBytes 1 (b2n p.care.rejected) ++ leBytes 2 0 ++ leBytes 8 (p.reg .chip 0 0x118).toNat ++
      leBytes 8 (p.reg .chip 0 0x120).toNat
    (p.updCare fun c => { c with rejected := false }).careSend 2 b
def execStatus (s : State) : Host.Outcome State Fault Refusal := onPkg statusMsg s

/-! The event log (R500, R501). -/

/-- What the Caretaker records in board flash from an event (R223, R489). -/
def Pkg.flashEvent (p : Pkg) (e : Ev) : Pkg :=
  if e.code = 0x0110 then
    (match Blk.locate (e.block * 0x4000) with
     | some (.fen, i, _) => p.updFlash fun f => f.addFailed i
     | _ => p)
  else if e.code = 0x0113 then p.updFlash fun f => f.addReplace (e.info % 64)
  else if e.code = 0x0064 || e.code = 0x0066 then
    (match Blk.locate (e.block * 0x4000) with
     | some (.dredge, d, _) =>
       let lo := Blk.base .fen (72 * d)
       let hi := Blk.base .fen (72 * d + 72)
       let mine := p.regs.filter fun x => decide (lo ≤ x.1) && decide (x.1 < hi) && decide (0x200 ≤ x.1 % 0x4000) && decide (x.1 % 0x4000 < 0x400)
       p.updFlash fun f => { f with rmap := mine.foldl (fun m x => AMap.put m x.1 x.2) f.rmap }
     | _ => p)
  else p

/-- First record number not in board flash. -/
def Care.unflashed (c : Care) : Nat := match c.flash.log.getLast? with | some r => r.seq + 1 | none => 0

/-- EVENT_LOG_APPEND: the oldest queued event enters the ring of 32,768 records and may go out in an EVENT message. -/
def eventLogAppend (p : Pkg) : Pkg :=
  match p.evq with
  | [] => p
  | e :: r =>
    if !p.fwRuns then p
    else
      let p := { p with evq := r }
      let x : LogRec :=
        { seq := p.care.nextSeq, tb0 := p.tb0, time := e.time, block := e.block, code := e.code, info := e.info, lost := e.lost }
      let p := p.updCare fun c =>
        { c with log := (c.log ++ [x]).drop ((c.log.length + 1) - 32768), nextSeq := c.nextSeq + 1,
                 pageSince := if c.unflashed = c.nextSeq then p.rawNs else c.pageSince }
      let p := p.flashEvent e
      if e.irq || e.code = 0x0040 || e.code = 0x0041 || Config.selectedEvent e.code then p.careSend 3 x.bytes else p
def execEventLogAppend (s : State) : Host.Outcome State Fault Refusal := onPkg eventLogAppend s

/-- LOG_FLASH_WRITE (R501): a page of 128 records that is full, or one begun 10 s ago. -/
def logFlashWrite (p : Pkg) : Pkg :=
  let c := p.care
  let a := c.unflashed
  let top := (a / 128 + 1) * 128
  let full := decide (top ≤ c.nextSeq)
  if !p.fwRuns || c.nextSeq ≤ a then p
  else if full || decide (c.pageSince + 10000 * nsPerMs ≤ p.rawNs) then
    let l := c.log.filter fun r => decide (r.seq < top)
    p.updCare fun c => { c with flash := { c.flash with log := l }, pageSince := p.rawNs }
  else p
def execLogFlashWrite (s : State) : Host.Outcome State Fault Refusal := onPkg logFlashWrite s

/-! Management ports (R508, R509). -/

/-- MGMT_PORT_DOWN. -/
def mgmtPortDown (n : Nat) (p : Pkg) : Pkg :=
  if p.mgUp / 2 ^ n % 2 = 1 then (p.fset F.careStatusMgUp 0 (p.mgUp - 2 ^ n)).log0 .care 0 0x0121 n (some 9) else p
def execMgmtPortDown (n : Fin 2) (s : State) : Host.Outcome State Fault Refusal := onPkg (mgmtPortDown n) s
/-- MGMT_PORT_UP, once the ports are online (S1). -/
def mgmtPortUp (n : Nat) (p : Pkg) : Pkg :=
  if p.mgUp / 2 ^ n % 2 = 0 && 1 ≤ p.fget F.chipStage 0 then (p.fset F.careStatusMgUp 0 (p.mgUp + 2 ^ n)).careFlush else p
def execMgmtPortUp (n : Fin 2) (s : State) : Host.Outcome State Fault Refusal := onPkg (mgmtPortUp n) s

end Sys2Proof.Machine
end

