-- ==== Sys2Proof/Machine/Bursar.lean ====
section
/-! DEFINITION. The Bursar metering island: energy bins and their attribution, the record store, the I3C target, the
mirror (R510 to R519). No operation here reads anything of the package but the tag frame that ED1 sends. -/
namespace Sys2Proof.Machine

open Sys2Proof

/-- A command that acts on the Bursar alone, while it has its supply (R510). -/
def onBursar (f : Bursar → Bursar) (s : State) : Host.Outcome State Fault Refusal :=
  .next { s with bursar := if s.bursar.powered then f s.bursar else s.bursar }

/-! Calibration (R517, R518). -/

/-- The calibration data in force match the newest fuse slot. -/
def Bursar.calValid (b : Bursar) : Bool :=
  match b.calFuses.getLast? with
  | some h => decide (h = sha256 b.calData)
  | none => false
/-- Value k of a channel's calibration: V_GAIN, V_OFFSET, I_GAIN, I_OFFSET; 0, which is unit gain and no offset, when
the data do not match. -/
def Bursar.calOf (b : Bursar) (ch k : Nat) : Int := if b.calValid then sx 32 (leAt b.calData (16 * ch + 4 * k) 4) else 0
/-- A raw value with gain and offset applied. -/
def applyCal (x gain off : Int) : Int := x + x * gain / (2 ^ 30 : Nat) + off

/-! Measurement (R512). -/

/-- A value held within full scale. -/
def clampTo (x : Int) (full : Nat) : Int := max (-(full : Int)) (min x full)
/-- One channel at one instant: power in nW, and whether a value lay beyond the range. -/
def Bursar.channel (b : Bursar) (ch : Nat) (vi : Int × Int) : Int × Bool :=
  if b.faults.contains ch then (0, false)
  else
    let r := Config.senseRange ch
    let v := clampTo vi.1 r.1
    let i := clampTo vi.2 r.2
    (applyCal v (b.calOf ch 0) (b.calOf ch 1) * applyCal i (b.calOf ch 2) (b.calOf ch 3), v != vi.1 || i != vi.2)
/-- All channels at one instant. -/
def Bursar.instant (b : Bursar) (row : List (Int × Int)) : Int × Bool :=
  ((List.range 6).zip row).foldl (fun a x => let c := b.channel x.1 x.2; (a.1 + c.1, a.2 || c.2)) (0, false)
/-- Samples enter the open bin. -/
def Bursar.integrate (b : Bursar) (samples : List (List (Int × Int))) : Bursar :=
  let t := (samples.map b.instant).foldl (fun a x => (a.1 + x.1, a.2 || x.2)) ((0 : Int), false)
  { b with bin := b.bin + t.1.toNat, binOver := b.binOver || t.2 }

/-! Records (R515, R516). -/

/-- FLAGS of a record committed now. -/
def Bursar.flags (b : Bursar) : Nat :=
  b2n b.tagInvalid + 2 * b2n b.overRange + 4 * b2n b.sense + 8 * b2n (!b.calValid) + 16 * b2n b.sealOpen
/-- Bytes 0x00 to 0x5F of a record. -/
def Bursar.recHead (b : Bursar) (typ start fin e : Nat) : List Byte :=
  leBytes 1 typ ++ leBytes 1 b.flags ++ leBytes 2 b.part ++ leBytes 4 b.mec ++ leBytes 8 b.nextSeq ++ leBytes 8 start ++
    leBytes 8 fin ++ leBytes 8 (b.parts.getD b.part 0) ++ leBytes 8 b.total ++ leBytes 8 e ++ (sha256 b.calData).take 8 ++ b.prev
/-- At most `n` of the newest elements. -/
def newest {α : Type} (n : Nat) (l : List α) : List α := l.drop (l.length - n)
/-- The store after one more record. -/
def Bursar.store (b : Bursar) (head : List Byte) : Bursar :=
  let h := sha256 head
  { b with ring := newest 512 (b.ring ++ [⟨b.nextSeq, head ++ h⟩]), nextSeq := b.nextSeq + 1, prev := h }
/-- Close the interval at `fin` and commit a record; `e` is what E_INTERVAL holds. -/
def Bursar.commit (b : Bursar) (typ fin e : Nat) : Bursar :=
  { b.store (b.recHead typ b.since fin e) with since := fin, energy := 0, tagInvalid := false, overRange := false, sense := false }

/-- ns between INTERVAL records, and in a bin. -/
def nsPerInterval : Nat := 60000000000
def nsPerBin : Nat := 1000000
/-- The open bin begins at an INTERVAL boundary whose record has not been committed. -/
def Bursar.boundary (b : Bursar) : Bool := decide (b.binAt % nsPerInterval = 0) && decide (b.since < b.binAt)
/-- PART of the open bin: of its last good frame; without one, UNATTRIBUTED once the bin is over. -/
def Bursar.binPartOf (b : Bursar) (overRange : Bool) : Nat :=
  match b.binPart with
  | some x => x
  | none => if overRange then 256 else b.part
/-- The TAG_CHANGE or the INTERVAL record of the open bin's start; one record when both fall there. -/
def Bursar.settle (b : Bursar) (overRange : Bool) : Bursar :=
  if b.binPartOf overRange ≠ b.part then
    { b.commit 2 (max b.since b.binAt) b.energy with part := b.binPartOf overRange }
  else if b.boundary then b.commit 1 b.binAt b.energy
  else b

/-- Energy units in a mJ. -/
def unitsPerMj : Nat := 64000000000
/-- The bin's energy is charged to the PART in force (R513, R514). -/
def Bursar.charge (b : Bursar) : Bursar :=
  let u := b.residue + b.bin
  let e := u / unitsPerMj
  { b with residue := u % unitsPerMj, parts := AMap.set 0 b.parts b.part (b.parts.getD b.part 0 + e), total := b.total + e,
           energy := b.energy + e, tagInvalid := b.tagInvalid || b.binPart.isNone, overRange := b.overRange || b.binOver,
           sense := b.sense || !b.faults.isEmpty, mw := b.bin / 64000000 }
/-- The next bin opens at `t`. -/
def Bursar.openBin (b : Bursar) (t : Nat) : Bursar := { b with binAt := t, bin := 0, binPart := none, binOver := false }
/-- The open bin ends with its last samples. -/
def Bursar.endBin (b : Bursar) (samples : List (List (Int × Int))) : Bursar := ((b.integrate samples).settle true).charge

/-- TB3 is still in the open bin. -/
def Bursar.inBin (b : Bursar) : Bool := decide (b.tb3 < b.binAt + nsPerBin)

/-! Rows. -/

/-- The tag frame that ED1 sends: PART, 9 bits in two bytes, and its CRC-8 (R513). -/
def Pkg.tagPart (p : Pkg) : Nat :=
  match (List.range 16).find? fun q => !p.fon F.issynPartFence q with
  | some q => p.fget F.issynPartPartId q
  | none => 256
def Pkg.tagFrame (p : Pkg) : Nat := let b := leBytes 2 p.tagPart; ofLe b + 65536 * crc8 b
/-- A frame as the Bursar receives it: the PART of a good one. -/
def goodFrame (w : Nat) : Option Nat :=
  let part := w % 65536
  if crc8 (leBytes 2 part) = w / 65536 % 256 && part ≤ 256 then some part else none
/-- BURSAR_TAG_FRAME. -/
def Bursar.tag (w : Nat) (b : Bursar) : Bursar :=
  match goodFrame w with
  | some x => if b.inBin then { b with binPart := some x } else b
  | none => b
/-- ED1's frame reaches the Bursar with the bits of `flip` turned on the line. -/
def execBursarTagFrame (flip : Nat) (s : State) : Host.Outcome State Fault Refusal :=
  if s.pkg.on then onBursar (Bursar.tag (s.pkg.tagFrame ^^^ flip)) s else .next s

/-- TAG_INVALID: a bin of TB3 is over; its energy is charged. -/
def Bursar.binOver1 (samples : List (List (Int × Int))) (b : Bursar) : Bursar :=
  if b.inBin then b else (b.endBin samples).openBin (b.binAt + nsPerBin)
def execTagInvalid (samples : List (List (Int × Int))) (s : State) : Host.Outcome State Fault Refusal :=
  onBursar (Bursar.binOver1 samples) s

/-- BURSAR_INTERVAL: the INTERVAL record of a boundary, once the first bin after it is over with its PART unchanged. -/
def Bursar.interval (b : Bursar) : Bursar :=
  if b.boundary && !b.inBin && decide (b.binPartOf true = b.part) then b.commit 1 b.binAt b.energy else b
def execBursarInterval (s : State) : Host.Outcome State Fault Refusal := onBursar Bursar.interval s

/-- BURSAR_POWER_FAIL: the open bin is charged as far as it came, and the record committed from hold-up energy. -/
def Bursar.powerFail (samples : List (List (Int × Int))) (b : Bursar) : Bursar :=
  let b := b.endBin samples
  { (b.commit 4 b.tb3 b.energy).openBin b.tb3 with powered := false }
def execBursarPowerFail (samples : List (List (Int × Int))) (s : State) : Host.Outcome State Fault Refusal :=
  onBursar (Bursar.powerFail samples) s

/-- VAUX_LOSS (R510, R588): VAUX is gone for the package and for the Bursar, whose power-fail record stands by then. -/
def execVauxLoss (samples : List (List (Int × Int))) (s : State) : Host.Outcome State Fault Refusal :=
  .next { s with pkg := vauxLoss s.pkg, bursar := if s.bursar.powered then s.bursar.powerFail samples else s.bursar }

/-- BURSAR_POWER_ON: VAUX is back; TB3 goes on from the last power-fail record. -/
def Bursar.powerOn (b : Bursar) : Bursar :=
  if b.powered then b
  else { (({ b with since := b.tb3 }).commit 3 b.tb3 0).openBin (b.tb3 / nsPerBin * nsPerBin) with powered := true }
def execBursarPowerOn (s : State) : Host.Outcome State Fault Refusal := .next { s with bursar := s.bursar.powerOn }

/-- BURSAR_SELECT: an I3C write of SELECT. -/
def Bursar.selectRec (v : Nat) (b : Bursar) : Bursar := { b with select := v % 2 ^ 64 }
def execBursarSelect (v : Nat) (s : State) : Host.Outcome State Fault Refusal := onBursar (Bursar.selectRec v) s

/-- TIME_MARK: the present TB3 bound to a UTC value. -/
def Bursar.timeMark (v : Nat) (b : Bursar) : Bursar := let b := b.settle false; b.commit 5 b.tb3 v
def execTimeMark (v : Nat) (s : State) : Host.Outcome State Fault Refusal := onBursar (Bursar.timeMark v) s

/-- CAL_DATA: calibration values staged at an offset from 0x100, unless sealed. -/
def Bursar.calWrite (off : Nat) (data : List Byte) (b : Bursar) : Bursar :=
  if b.sealOpen && decide (off + data.length ≤ 96) then
    { b with staged := b.staged.take off ++ data ++ b.staged.drop (off + data.length) }
  else b
def execCalData (off : Nat) (data : List Byte) (s : State) : Host.Outcome State Fault Refusal := onBursar (Bursar.calWrite off data) s

/-- CAL_COMMIT, with the samples the open bin has had so far. -/
def Bursar.calCommit (v : Nat) (samples : List (List (Int × Int))) (b : Bursar) : Bursar :=
  if b.sealOpen && decide (v = 0xCA1C0417) && decide (b.calFuses.length < 16) then
    let b := (b.integrate samples).settle false
    let b := ({ b with mec := satAdd 32 b.mec 1 })
    let b := b.commit 6 b.tb3 b.energy
    { b with calData := b.staged, calFuses := b.calFuses ++ [sha256 b.staged] }
  else b
def execCalCommit (v : Nat) (samples : List (List (Int × Int))) (s : State) : Host.Outcome State Fault Refusal :=
  onBursar (Bursar.calCommit v samples) s

/-- SEAL_CHANGE: the strap as sampled. -/
def Bursar.sealSample (high : Bool) (b : Bursar) : Bursar :=
  { b with sealOpen := high, mec := if high && !b.sealOpen then satAdd 32 b.mec 1 else b.mec }
def execSealChange (high : Bool) (s : State) : Host.Outcome State Fault Refusal := onBursar (Bursar.sealSample high) s

/-- SENSE_FAULT: a sense pair is found open or shorted, or good again. -/
def Bursar.senseFault (ch : Nat) (bad : Bool) (b : Bursar) : Bursar :=
  let l := b.faults.filter fun c => decide (c ≠ ch)
  { b with faults := if bad then ch :: l else l, sense := b.sense || bad }
def execSenseFault (ch : Fin 6) (bad : Bool) (s : State) : Host.Outcome State Fault Refusal := onBursar (Bursar.senseFault ch bad) s

/-- TB3 counts in an idle step (R510). -/
def Bursar.pass (b : Bursar) : Bursar :=
  if b.powered then { b with tb3 := (b.tb3 + Config.tb3Step b.ticks) % 2 ^ 64, ticks := b.ticks + 1 } else b

/-! The I3C target's registers (R517). -/

def Bursar.status (b : Bursar) : Nat :=
  b2n b.sealOpen + 2 * b2n (!b.calValid) + 4 * b2n (!b.faults.isEmpty) + 256 * b.calFuses.length
/-- A stored record by its number; zeros for one that is not held. -/
def Bursar.record (b : Bursar) (seq : Nat) : List Byte :=
  match b.ring.find? fun r => decide (r.seq = seq) with
  | some r => r.bytes
  | none => List.replicate 128 0#8
/-- Number of the newest record, 0 before the first. -/
def Bursar.newestSeq (b : Bursar) : Nat := b.nextSeq - 1
/-- What an I3C read of a register returns; an address that the map does not list reads as nothing. -/
def Bursar.i3cRead (b : Bursar) (addr : Nat) : List Byte :=
  match addr with
  | 0x00 => [0x42#8, 0x52#8, 0x53#8, 0x52#8] ++ leBytes 4 Config.bursarRom
  | 0x08 => leBytes 8 b.status
  | 0x10 => leBytes 8 b.tb3
  | 0x18 => leBytes 4 b.mec
  | 0x20 => leBytes 8 b.newestSeq
  | 0x28 => leBytes 8 (match b.ring with | r :: _ => r.seq | [] => 0)
  | 0x40 => b.record b.select
  | _ => []

/-! The mirror (R519). -/

/-- The BRSM block takes a good copy. -/
def Pkg.brsmCopy (b : Bursar) (p : Pkg) : Pkg :=
  let old := p.fget F.brsmStatus 0
  let st := b.status
  let p := (p.fset F.brsmStatus 0 st).fset F.brsmStatusStale 0 0
  let p := ((p.fset F.brsmTb3 0 b.tb3).fset F.brsmMec 0 b.mec).fset F.brsmSeq 0 b.newestSeq
  let p := { (p.fset F.brsmEnergyETotal 0 b.total).fset F.brsmPowerMw 0 b.mw with mirrorAt := p.rawNs }
  let rose := (List.range 3).filter fun k => decide (st / 2 ^ k % 2 = 1) && decide (old / 2 ^ k % 2 = 0)
  rose.foldl (fun (p : Pkg) _ => p.log0 .brsm 0 0x0131 0 (some 9)) p
def execBursarMirror (s : State) : Host.Outcome State Fault Refusal :=
  onPkg (if s.bursar.powered then Pkg.brsmCopy s.bursar else id) s

/-- BURSAR_STALE: 10 ms without a good copy. -/
def bursarStale (p : Pkg) : Pkg :=
  if !p.fon F.brsmStatusStale 0 && decide (p.mirrorAt + 10 * nsPerMs ≤ p.rawNs) then
    (p.fset F.brsmStatusStale 0 1).log0 .brsm 0 0x0130 0 (some 8)
  else p
def execBursarStale (s : State) : Host.Outcome State Fault Refusal := onPkg bursarStale s

/-- BRSM_SELECT_WRITE: the Caretaker chooses the record that BRSM.RECORD shows. -/
def Pkg.brsmSelect (b : Bursar) (care : Bool) (v : Nat) (p : Pkg) : Pkg :=
  if care then
    let p := p.fset F.brsmSelectSeq 0 v
    if b.powered then { p with brsmRec := b.record (v % 2 ^ 64) } else p
  else p
def execBrsmSelectWrite (care : Bool) (v : Nat) (s : State) : Host.Outcome State Fault Refusal :=
  onPkg (Pkg.brsmSelect s.bursar care v) s

end Sys2Proof.Machine
end

