-- ==== Sys2Proof/Machine/Perf.lean ====
section
/-! DEFINITION. CLEAR of a performance counter, the Markbook's records (R529, R536 to R540). -/
namespace Sys2Proof.Machine

open Sys2Proof

/-- PERF_COUNTER_CLEAR: a write of PERF_CTL[n] with CLEAR, the other fields as they stand (R529); a host's is ignored. -/
def perfCounterClear (page n : Nat) (care : Bool) (p : Pkg) : Pkg :=
  match Blk.locate page with
  | some (b, i, 0) =>
    if care && n < 8 then p.perfCtlWrite b i n (setBits (p.reg b i (0x0C0 + 8 * n)) 63 62 2) else p
  | _ => p
def execPerfCounterClear (page n : Nat) (care : Bool) (s : State) : Host.Outcome State Fault Refusal :=
  onPkg (perfCounterClear page n care) s

/-- MARK_RESET: a write of MARK.CFG.RESET (R539). -/
def execMarkReset (d : Fin 4) (s : State) : Host.Outcome State Fault Refusal := onPkg (fun p => p.markReset d) s

/-- The 32 bytes of a record (R537). -/
def MarkOpen.bytes (m : MarkOpen) : List Byte :=
  let sat32 (n : Nat) : Nat := min n (2 ^ 32 - 1)
  leBytes 8 m.fire ++ leBytes 4 (m.pc % 2 ^ 20 + m.fen % 256 * 2 ^ 20 + m.st * 2 ^ 28) ++ leBytes 1 m.opcode ++ leBytes 1 m.ep ++
    leBytes 2 m.flags ++ leBytes 4 (sat32 (m.due - m.start)) ++ leBytes 4 (if m.st = 0 then 0 else sat32 (m.start - m.fire)) ++
    leBytes 4 m.lag16 ++ leBytes 4 m.no

/-- The buffer takes a record, or drops it (R538). -/
def Pkg.markPut (p : Pkg) (d : Nat) (m : MarkOpen) : Pkg :=
  let k := p.mark d
  let stop := p.fon F.markCfgStopFull d
  let drop : Pkg := p.fadd F.markStatDropped d 1
  let fill (p : Pkg) : Pkg :=
    if p.fon F.markStatFull d then p else (p.fset F.markStatFull d 1).log1 .mark d 0x0150 0 (some 8)
  if stop && 4096 ≤ k.written then fill drop
  else if k.lastRec = some p.refCount then drop
  else
    let i := k.written % 4096
    let p := p.setMark d { k with recs := AMap.put k.recs i m.bytes, written := k.written + 1, lastRec := some p.refCount }
    let p := p.fset F.markStatWrIndex d ((i + 1) % 4096)
    let p := if 4096 ≤ k.written then p.fset F.markStatWrapped d 1 else p
    if stop && k.written = 4095 then fill p else p

/-- The latency of an open sample is known: its tick has come at the fen, or at the sampler (R537). -/
def Pkg.markDue (p : Pkg) (m : MarkOpen) : Bool :=
  if m.st = 5 then decide (m.due ≤ p.refCount)
  else match p.physOf m.fen with
    | some f => decide (m.due ≤ p.local_ f)
    | none => true

/-- MARK_RECORD: the i-th open sample of a die. -/
def markRecord (d i : Nat) (p : Pkg) : Pkg :=
  let k := p.mark d
  match k.open_[i]? with
  | some m => if p.markDue m then (p.setMark d { k with open_ := dropAt k.open_ i }).markPut d m else p
  | none => p
def execMarkRecord (d : Fin 4) (i : Nat) (s : State) : Host.Outcome State Fault Refusal := onPkg (markRecord d i) s

/-- MARK.RD_DATA[i] (R539). -/
def Pkg.markRead (p : Pkg) (d i : Nat) : W64 :=
  BitVec.ofNat 64 (leAt (((p.mark d).recs.getD (p.fget F.markRdIndexIndex d) [])) (8 * i) 8)

end Sys2Proof.Machine
end

