-- ==== Sys2Proof/Machine/Spdm.lean ====
section
/-! DEFINITION. The SPDM responder: negotiation, certificates, attestation, sessions and their keys (R541 to R548, R596).
The layouts and the key schedule that R545 names by their standard follow DSP0274 and DSP0277 1.2. PRESUMED (log entry 60). -/
namespace Sys2Proof.Machine

open Sys2Proof

def Pkg.conn (p : Pkg) (mgmt : Bool) : Conn := p.spdm.conns.getD (b2n mgmt) .init
def Pkg.setConn (p : Pkg) (mgmt : Bool) (c : Conn) : Pkg :=
  { p with spdm := { p.spdm with conns := AMap.set Conn.init p.spdm.conns (b2n mgmt) c } }
def Pkg.updSess (p : Pkg) (id : Nat) (g : Sess → Sess) : Pkg :=
  { p with spdm := { p.spdm with sessions := p.spdm.sessions.map fun s => if s.id = id then g s else s } }

/-! Keys (R543, R596). -/

/-- The responder's Alias key pairs. -/
def Pkg.aliasEc (p : Pkg) : List Byte := Config.deriveKey p.spdm.cdi (ascii "alias ecdsa")
def Pkg.aliasMl (p : Pkg) : List Byte := Config.deriveKey p.spdm.cdi (ascii "alias mldsa")
/-- The chain of slot 0 (R544). -/
def Pkg.chain (p : Pkg) : List Byte :=
  let certs := Config.floerakRoot ++ Config.floerakCa ++ (match p.care.flash.cert with | some c => c | none => Config.deviceCert) ++
    Config.aliasCert p.part.uds (Config.publicKey p.aliasEc ++ Config.publicKey p.aliasMl)
  leBytes 2 (52 + certs.length) ++ leBytes 2 0 ++ sha384 Config.floerakRoot ++ certs

def smVersion (v : Nat) : List Byte := ascii (if v = 3 then "spdm1.3 " else "spdm1.2 ")
/-- HKDF-Expand of `n` bytes under a label and a context. -/
def smExpand (v n : Nat) (secret label ctx : List Byte) : List Byte :=
  hkdfExpand secret (leBytes 2 n ++ smVersion v ++ label ++ ctx) n
/-- The key and the nonce of a record in one direction. -/
def recKey (v : Nat) (secret : List Byte) : List Byte := smExpand v 32 secret (ascii "key") []
def recNonce (v : Nat) (secret : List Byte) (seq : Nat) : List Byte :=
  List.zipWith (fun x y => x ^^^ y) (smExpand v 12 secret (ascii "iv") []) (padTo 12 (leBytes 8 seq))
def finishedKey (v : Nat) (secret : List Byte) : List Byte := smExpand v 48 secret (ascii "finished") []
/-- A signature of a response: the context string, then the hash of the transcript. -/
def Pkg.smSign (p : Pkg) (v : Nat) (ctx : String) (transcript : List Byte) : List Byte :=
  let one := ascii (if v = 3 then "dmtf-spdm-v1.3.*" else "dmtf-spdm-v1.2.*")
  let c := ascii ctx
  Config.ecdsaSign p.aliasEc (sha384 (one ++ one ++ one ++ one ++ List.replicate (36 - c.length) 0#8 ++ c ++ sha384 transcript))

/-! Measurements (R546). -/

/-- Value of a measurement block. -/
def Pkg.measure (p : Pkg) (i : Nat) : List Byte :=
  match i with
  | 1 => sha384 Config.maskRom
  | 2 => p.bundleHash
  | 3 => sha384 (p.fwImage ++ leBytes 1 (p.fget F.careStatusSlot 0) ++ leBytes 1 (p.fget F.careStatusTrial 0) ++ leBytes 1 p.part.fwFuses)
  | 4 =>
    sha384 (leBytes 1 p.part.grade ++ leBytes 1 (b2n p.part.b0) ++
      ((List.range 32).map fun r => leBytes 1 (p.part.spare.getD r 8) ++ (p.fusedCols r).flatMap (leBytes 1)).flatten ++ leBytes 1 p.part.revoked)
  | 5 =>
    if 3 ≤ p.job.state && p.job.state ≤ 7 then
      match p.statePlan with
      | some c => c.img.hash ++ c.img.manifest
      | none => List.replicate 96 0#8
    else List.replicate 96 0#8
  | _ =>
    sha384 ((List.range 64).map fun k => match p.wgt.keys.find? k with
      | some x => leBytes 4 x.id ++ [1#8]
      | none => leBytes 5 0).flatten
/-- A measurement block: index, DMTF format, its value. -/
def measBlock (i : Nat) (v : List Byte) : List Byte :=
  leBytes 1 i ++ leBytes 1 1 ++ leBytes 2 (v.length + 3) ++ leBytes 1 (min i 6) ++ leBytes 2 v.length ++ v
/-- Hash of all measurement values, for a summary request. -/
def Pkg.measSummary (p : Pkg) (kind : Nat) : List Byte :=
  if kind = 0 then [] else sha384 ((List.range 6).map fun i => measBlock (i + 1) (p.measure (i + 1))).flatten

/-! Messages. -/

/-- Fields of a request: SPDM version, code, two parameters, the rest. -/
def rqVer (b : List Byte) : Nat := leAt b 0 1
def rqCode (b : List Byte) : Nat := leAt b 1 1
def rqP1 (b : List Byte) : Nat := leAt b 2 1
def rqP2 (b : List Byte) : Nat := leAt b 3 1
def rsp (v code p1 p2 : Nat) (body : List Byte) : List Byte := leBytes 1 v ++ leBytes 1 code ++ leBytes 1 p1 ++ leBytes 1 p2 ++ body
/-- An ERROR response, in the version of the request where that is one of the two. -/
def spdmErr (b : List Byte) (e : Nat) : List Byte := rsp (if rqVer b = 0x13 then 0x13 else 0x12) 0x7F e 0 []

/-- Put a response on its way: in a record of its session, or plain. -/
def Pkg.respond (p : Pkg) (mgmt : Bool) (se : Option Sess) (r : List Byte) : Pkg :=
  match se with
  | none => { p with spdm := { p.spdm with resp := (mgmt, r) :: p.spdm.resp } }
  | some s =>
    let hd := leBytes 4 s.id ++ leBytes 2 (r.length + 18)
    let x := gcmSeal (recKey s.version s.rspSecret) (recNonce s.version s.rspSecret s.rspSeq) hd (leBytes 2 r.length ++ r)
    let p := p.updSess s.id fun s => { s with rspSeq := s.rspSeq + 1 }
    { p with spdm := { p.spdm with resp := (mgmt, hd ++ x.1 ++ x.2) :: p.spdm.resp } }

/-- A request: plain, or the content of a record of a live session of the same transport. -/
def Pkg.openReq (p : Pkg) (mgmt sec : Bool) (msg : List Byte) : Option (Option Sess × List Byte) :=
  if sec then
    match p.spdm.sessions.find? fun s => decide (s.id = leAt msg 0 4) && s.mgmt == mgmt with
    | some s =>
      let n := leAt msg 4 2
      if n < 18 || msg.length ≠ n + 6 then none
      else
        match gcmOpen (recKey s.version s.reqSecret) (recNonce s.version s.reqSecret s.reqSeq) (msg.take 6)
            (sliceB msg 6 (n - 16)) (sliceB msg (n - 10) 16) with
        | some b => if leAt b 0 2 + 2 ≤ b.length then some (some s, sliceB b 2 (leAt b 0 2)) else none
        | none => none
    | none => none
  else some (none, msg)

/-- The responder is reached: over the management ports from S1, over DOE from S2. -/
def Pkg.spdmUp (p : Pkg) (mgmt : Bool) : Bool :=
  if mgmt then decide (1 ≤ p.fget F.chipStage 0) && decide (p.fget F.careStatusMgUp 0 ≠ 0) else decide (2 ≤ p.fget F.chipStage 0)

/-- What a request brings: the new package, the response, and what happens once the response is out. -/
abbrev Answer : Type := Pkg × List Byte × (Pkg → Pkg)
/-- A request for the row of a code: `phase` is what the connection must have reached. A request whose version is not the
negotiated one is answered VersionMismatch, one too early UnexpectedRequest. -/
def spdmThen (code phase : Nat) (act : Bool → Option Sess → List Byte → Pkg → Answer) (mgmt sec : Bool) (msg : List Byte)
    (p : Pkg) : Pkg :=
  if !p.spdmUp mgmt then p
  else
    match p.openReq mgmt sec msg with
    | none => p
    | some (se, b) =>
      if b.length < 4 || rqCode b ≠ code then p
      else
        let p := match se with
          | some s => p.updSess s.id fun s => { s with reqSeq := s.reqSeq + 1, last := p.rawNs }
          | none => p
        let c := p.conn mgmt
        let bad :=
          if c.phase < phase then some 4
          else if 3 ≤ phase && rqVer b ≠ 0x10 + c.version then some 0x41
          else none
        match bad with
        | some e => p.respond mgmt se (spdmErr b e)
        | none =>
          let r := act mgmt se b p
          r.2.2 (r.1.respond mgmt (se.bind fun s => r.1.spdm.sessions.find? fun t => t.id = s.id) r.2.1)
def spdmRun (code phase : Nat) (act : Bool → Option Sess → List Byte → Pkg → Pkg × List Byte) : Bool → Bool → List Byte → Pkg → Pkg :=
  spdmThen code phase fun m se b p => let r := act m se b p; (r.1, r.2, id)

/-! Negotiation. -/

/-- GET_VERSION. -/
def getVersion (mgmt : Bool) (_ : Option Sess) (b : List Byte) (p : Pkg) : Pkg × List Byte :=
  let r := rsp 0x10 0x04 0 0 (leBytes 1 0 ++ leBytes 1 2 ++ leBytes 2 0x1200 ++ leBytes 2 0x1300)
  (p.setConn mgmt { Conn.init with phase := 1, vca := b ++ r }, r)
def execGetVersion (mgmt sec : Bool) (msg : List Byte) (s : State) : Host.Outcome State Fault Refusal :=
  onPkg (spdmRun 0x84 0 getVersion mgmt sec msg) s

/-- Flags of the responder: CERT, CHAL, MEAS with signature, ENCRYPT, MAC, KEY_EX, HBEAT, KEY_UPD. -/
def spdmFlags : Nat := 0x2 + 0x4 + 0x10 + 0x40 + 0x80 + 0x200 + 0x2000 + 0x4000
/-- GET_CAPABILITIES: its version is the one negotiated. -/
def getCapabilities (mgmt : Bool) (_ : Option Sess) (b : List Byte) (p : Pkg) : Pkg × List Byte :=
  let v := rqVer b
  if v ≠ 0x12 && v ≠ 0x13 then (p, spdmErr b 0x41)
  else
    let c := p.conn mgmt
    let r := rsp v 0x61 0 0 (leBytes 1 0 ++ leBytes 1 Config.spdmCtExponent ++ leBytes 2 0 ++ leBytes 4 spdmFlags ++
      leBytes 4 Config.spdmTransferSize ++ leBytes 4 Config.spdmMaxMessage)
    (p.setConn mgmt { c with version := v - 0x10, phase := 2, vca := c.vca ++ b ++ r }, r)
def execGetCapabilities (mgmt sec : Bool) (msg : List Byte) (s : State) : Host.Outcome State Fault Refusal :=
  onPkg (spdmRun 0xE1 1 getCapabilities mgmt sec msg) s

/-- NEGOTIATE_ALGORITHMS: the one suite of R545, where the request offers it. -/
def negotiate (mgmt : Bool) (_ : Option Sess) (b : List Byte) (p : Pkg) : Pkg × List Byte :=
  let c := p.conn mgmt
  let v := 0x10 + c.version
  if rqVer b ≠ v then (p, spdmErr b 0x41)
  else if leAt b 8 4 / 0x80 % 2 = 0 || leAt b 12 4 / 2 % 2 = 0 then (p, spdmErr b 1)
  else
    let alg (t x : Nat) : List Byte := leBytes 1 t ++ leBytes 1 0x20 ++ leBytes 2 x
    let r := rsp v 0x63 3 0 (leBytes 2 48 ++ leBytes 1 1 ++ leBytes 1 0 ++ leBytes 4 4 ++ leBytes 4 0x80 ++ leBytes 4 2 ++
      leBytes 12 0 ++ leBytes 4 0 ++ alg 2 0x10 ++ alg 3 2 ++ alg 5 1)
    (p.setConn mgmt { c with phase := 3, vca := c.vca ++ b ++ r }, r)
def execNegotiateAlgorithms (mgmt sec : Bool) (msg : List Byte) (s : State) : Host.Outcome State Fault Refusal :=
  onPkg (spdmRun 0xE3 2 negotiate mgmt sec msg) s

/-! Certificates and attestation. -/

/-- Add a request and its response to the certificate transcript. -/
def Pkg.certLog (p : Pkg) (mgmt : Bool) (se : Option Sess) (x : List Byte) : Pkg :=
  if se.isSome then p else let c := p.conn mgmt; p.setConn mgmt { c with certs := c.certs ++ x }
/-- GET_DIGESTS. -/
def getDigests (mgmt : Bool) (se : Option Sess) (b : List Byte) (p : Pkg) : Pkg × List Byte :=
  let r := rsp (rqVer b) 0x01 0 (b2n p.spdm.certOk) (if p.spdm.certOk then sha384 p.chain else [])
  (p.certLog mgmt se (b ++ r), r)
def execGetDigests (mgmt sec : Bool) (msg : List Byte) (s : State) : Host.Outcome State Fault Refusal :=
  onPkg (spdmRun 0x81 3 getDigests mgmt sec msg) s

/-- GET_CERTIFICATE: a portion of the chain of slot 0. -/
def getCertificate (mgmt : Bool) (se : Option Sess) (b : List Byte) (p : Pkg) : Pkg × List Byte :=
  let off := leAt b 4 2
  let len := leAt b 6 2
  let ch := p.chain
  if rqP1 b % 16 ≠ 0 || !p.spdm.certOk || ch.length ≤ off then (p, spdmErr b 1)
  else
    let part := (ch.drop off).take len
    let r := rsp (rqVer b) 0x02 0 0 (leBytes 2 part.length ++ leBytes 2 (ch.length - off - part.length) ++ part)
    (p.certLog mgmt se (b ++ r), r)
def execGetCertificate (mgmt sec : Bool) (msg : List Byte) (s : State) : Host.Outcome State Fault Refusal :=
  onPkg (spdmRun 0x82 3 getCertificate mgmt sec msg) s

/-- A nonce of 32 bytes: a free value. -/
def Pkg.nonce32 (p : Pkg) : Pkg × List Byte := (p.freeNext, leBytes 32 (Config.random p.free))
/-- What 1.3 repeats of the request: its context of 8 bytes. -/
def rqContext (b : List Byte) (off : Nat) : List Byte := if rqVer b = 0x13 then sliceB b off 8 else []

/-- CHALLENGE: signed with the Alias key. -/
def challenge (mgmt : Bool) (se : Option Sess) (b : List Byte) (p : Pkg) : Pkg × List Byte :=
  if rqP1 b ≠ 0 || !p.spdm.certOk then (p, spdmErr b 1)
  else if se.isSome then (p, spdmErr b 4)
  else
    let c := p.conn mgmt
    let (p, n) := p.nonce32
    let r := rsp (rqVer b) 0x03 0 1 (sha384 p.chain ++ n ++ p.measSummary (rqP2 b) ++ leBytes 2 0 ++ rqContext b 36)
    let sig := p.smSign c.version "responder-challenge_auth signing" (c.vca ++ c.certs ++ b ++ r)
    (p.setConn mgmt { c with certs := [] }, r ++ sig)
def execChallenge (mgmt sec : Bool) (msg : List Byte) (s : State) : Host.Outcome State Fault Refusal :=
  onPkg (spdmRun 0x83 3 challenge mgmt sec msg) s

/-- GET_MEASUREMENTS (R546): the number of blocks, one block or all; index 0xFD is the second signature. -/
def getMeasurements (mgmt : Bool) (_ : Option Sess) (b : List Byte) (p : Pkg) : Pkg × List Byte :=
  let op := rqP2 b
  let sig := decide (rqP1 b % 2 = 1)
  let c := p.conn mgmt
  let plain := [1, 2, 3, 4, 5, 6]
  let idx := if op = 0 then [] else if op = 0xFF then plain ++ [0xFD] else [op]
  if !(op = 0 || op = 0xFF || op = 0xFD || plain.contains op) || (sig && !p.spdm.certOk) then (p, spdmErr b 1)
  else
    let (p, n) := p.nonce32
    let blocks := ((idx.filter fun i => i ≠ 0xFD).map fun i => measBlock i (p.measure i)).flatten
    let l := c.vca ++ c.meas ++ b ++ blocks
    let blocks := if idx.contains 0xFD then blocks ++ measBlock 0xFD (Config.mlDsaSign p.aliasMl (sha384 l)) else blocks
    let r := rsp (rqVer b) 0x60 (if op = 0 then 7 else 0) 0 (leBytes 1 idx.length ++ leBytes 3 blocks.length ++ blocks ++ n ++
      leBytes 2 0 ++ rqContext b (if sig then 37 else 4))
    if sig then
      (p.setConn mgmt { c with meas := [] }, r ++ p.smSign c.version "responder-measurements signing" (c.vca ++ c.meas ++ b ++ r))
    else (p.setConn mgmt { c with meas := c.meas ++ b ++ r }, r)
def execGetMeasurements (mgmt sec : Bool) (msg : List Byte) (s : State) : Host.Outcome State Fault Refusal :=
  onPkg (spdmRun 0xE0 3 getMeasurements mgmt sec msg) s

/-! Sessions (R547). -/

/-- KEY_EXCHANGE: a session takes one of eight places. -/
def keyExchange (mgmt : Bool) (se : Option Sess) (b : List Byte) (p : Pkg) : Pkg × List Byte :=
  let c := p.conn mgmt
  let free := (List.range 8).find? fun i => !(p.spdm.sessions.any fun s => decide (s.idx = i))
  if se.isSome then (p, spdmErr b 4)
  else if b.length < 138 || rqP2 b ≠ 0 || !p.spdm.certOk then (p, spdmErr b 1)
  else
    match free with
    | none => (p, spdmErr b 0x0A)
    | some i =>
      let half := (8 * p.freeNat + i) % 65536
      let scalar := leBytes 48 (Config.random p.free)
      let (p, n) := p.freeNext.nonce32
      let r := rsp (rqVer b) 0x64 Config.spdmHeartbeatPeriod 0 (leBytes 2 half ++ leBytes 2 0 ++ n ++ Config.publicKey scalar ++
        p.measSummary (rqP1 b) ++ leBytes 2 0)
      let th := c.vca ++ sha384 p.chain ++ b ++ r
      let th := th ++ p.smSign c.version "responder-key_exchange_rsp signing" th
      let hs := hmac384 (List.replicate 48 0#8) (Config.ecdh scalar (sliceB b 40 96))
      let s1 (l : String) : List Byte := smExpand c.version 48 hs (ascii l) (sha384 th)
      let verify := hmac384 (finishedKey c.version (s1 "rsp hs data")) (sha384 th)
      let s : Sess :=
        { id := leAt b 4 2 + 65536 * half, idx := i, mgmt := mgmt, established := false, version := c.version, hs := hs, th := th ++ verify,
          reqSecret := s1 "req hs data", rspSecret := s1 "rsp hs data", reqSeq := 0, rspSeq := 0, last := p.rawNs }
      let p := { p with spdm := { p.spdm with sessions := p.spdm.sessions ++ [s] } }
      (p.log0 .sec 0 0x0160 i none, th.drop (c.vca.length + 48 + b.length) ++ verify)
def execKeyExchange (mgmt sec : Bool) (msg : List Byte) (s : State) : Host.Outcome State Fault Refusal :=
  onPkg (spdmRun 0xE4 3 keyExchange mgmt sec msg) s

/-- The application secrets of a session after FINISH (R596). -/
def Sess.finish (s : Sess) (th : List Byte) : Sess :=
  let master := hmac384 (smExpand s.version 48 s.hs (ascii "derived") []) (List.replicate 48 0#8)
  let s2 (l : String) : List Byte := smExpand s.version 48 master (ascii l) (sha384 th)
  { s with established := true, hs := [], th := [], reqSecret := s2 "req app data", rspSecret := s2 "rsp app data", reqSeq := 0, rspSeq := 0 }
/-- FINISH: the requester's verify data hold. The FINISH_RSP goes out under the handshake secrets, before the application
secrets take their place; messages that waited for a management session go out then. -/
def finish (_ : Bool) (se : Option Sess) (b : List Byte) (p : Pkg) : Answer :=
  match se with
  | none => (p, spdmErr b 4, id)
  | some s =>
    let th := s.th ++ b.take 4
    if s.established then (p, spdmErr b 4, id)
    else if sliceB b 4 48 ≠ hmac384 (finishedKey s.version s.reqSecret) (sha384 th) then (p, spdmErr b 6, id)
    else
      let r := rsp (rqVer b) 0x65 0 0 []
      (p, r, fun p => (p.updSess s.id fun t => t.finish (th ++ sliceB b 4 48 ++ r)).careFlush)
def execFinish (mgmt sec : Bool) (msg : List Byte) (s : State) : Host.Outcome State Fault Refusal :=
  onPkg (spdmThen 0xE5 3 finish mgmt sec msg) s

/-- HEARTBEAT. -/
def spdmHeartbeat (_ : Bool) (se : Option Sess) (b : List Byte) (p : Pkg) : Pkg × List Byte :=
  if se.isNone then (p, spdmErr b 4) else (p, rsp (rqVer b) 0x68 0 0 [])
def execSpdmHeartbeat (mgmt sec : Bool) (msg : List Byte) (s : State) : Host.Outcome State Fault Refusal :=
  onPkg (spdmRun 0xE8 3 spdmHeartbeat mgmt sec msg) s

/-- KEY_UPDATE (R596): 1 the request direction, 2 both, 3 the new key is verified. -/
def keyUpdate (_ : Bool) (se : Option Sess) (b : List Byte) (p : Pkg) : Pkg × List Byte :=
  match se with
  | none => (p, spdmErr b 4)
  | some s =>
    let next (x : List Byte) : List Byte := smExpand s.version 48 x (ascii "traffic upd") []
    let ack := rsp (rqVer b) 0x69 (rqP1 b) (rqP2 b) []
    if !s.established then (p, spdmErr b 4)
    else if rqP1 b = 1 then (p.updSess s.id fun t => { t with reqSecret := next t.reqSecret, reqSeq := 0 }, ack)
    else if rqP1 b = 2 then
      (p.updSess s.id fun t => { t with reqSecret := next t.reqSecret, rspSecret := next t.rspSecret, reqSeq := 0, rspSeq := 0 }, ack)
    else if rqP1 b = 3 then (p, ack)
    else (p, spdmErr b 1)
def execKeyUpdate (mgmt sec : Bool) (msg : List Byte) (s : State) : Host.Outcome State Fault Refusal :=
  onPkg (spdmRun 0xE9 3 keyUpdate mgmt sec msg) s

/-- A session ends. -/
def Pkg.endSession (p : Pkg) (s : Sess) : Pkg :=
  ({ p with spdm := { p.spdm with sessions := p.spdm.sessions.filter fun t => decide (t.id ≠ s.id) } }).log0 .sec 0 0x0161 s.idx none
/-- END_SESSION: the acknowledgement goes out in the session's last record. -/
def endSession (_ : Bool) (se : Option Sess) (b : List Byte) (p : Pkg) : Answer :=
  match se with
  | none => (p, spdmErr b 4, id)
  | some s => (p, rsp (rqVer b) 0x6C 0 0 [], fun p => p.endSession s)
def execEndSession (mgmt sec : Bool) (msg : List Byte) (s : State) : Host.Outcome State Fault Refusal :=
  onPkg (spdmThen 0xEC 3 endSession mgmt sec msg) s

/-- SESSION_TIMEOUT: 10 s without a message of the i-th live session. -/
def sessionTimeout (i : Nat) (p : Pkg) : Pkg :=
  match p.spdm.sessions[i]? with
  | some s => if s.last + 10000 * nsPerMs ≤ p.rawNs then p.endSession s else p
  | none => p
def execSessionTimeout (i : Nat) (s : State) : Host.Outcome State Fault Refusal := onPkg (sessionTimeout i) s

end Sys2Proof.Machine
end

