-- ==== Sys2Proof/Machine/Registers.lean ====
section
/-! DEFINITION. BAR0: the pages of a block, what a register reads as, what a write does under the access codes, the
rank table, the MSI-X table (R13, R313, R428, R555 to R574). -/
namespace Sys2Proof.Machine

open Sys2Proof

/-! What registers show of the units they belong to. -/

/-- The unit's own clock runs (R563): fens by their generators, engines of the stopped domains by R520. -/
def Pkg.unitClocked (p : Pkg) (b : Blk) (i : Nat) : Bool :=
  match b with
  | .fen => p.clocked i
  | .sdram => p.fitted i && decide (p.power.state < 2)
  | .dredge => decide (p.power.state < 2)
  | .issyn => decide (p.power.state < 2)
  | .peat => decide (p.power.state < 2)
  | .chip => true
  | .host => true
  | .care => true
  | .sec => true
  | .brsm => true
  | _ => decide (p.power.state < 3)

def Pkg.intPend (p : Pkg) (b : Blk) (i : Nat) : W64 := p.reg b i 0x020 &&& p.reg b i 0x028
def Pkg.idReg (b : Blk) (i : Nat) : W64 := BitVec.ofNat 64 (b.typ + i * 2 ^ 16 + b.die i * 2 ^ 32)
def Pkg.versionReg (p : Pkg) : W64 :=
  BitVec.ofNat 64 (0x0100 + (if p.part.b0 then 0xB0 else 0xA1) * 2 ^ 16 + 2 ^ 24 + b2n p.part.b0 * 2 ^ 25 +
    (if p.part.b0 then 0x0103 else 0x0102) * 2 ^ 32)
def Pkg.statusReg (p : Pkg) (b : Blk) (i : Nat) : W64 :=
  if p.absent b i then 0#64
  else
    BitVec.ofNat 64 (1 + 2 * b2n (p.unitClocked b i) + 4 * b2n (decide (bits (p.reg b i 0x038) 31 0 ≠ 0)) +
      8 * b2n (decide (p.intPend b i ≠ 0#64)))

/-- STATE of FEN.PROC_PC (R203). -/
def ProcSt.num : ProcSt → Nat
  | .idle => 0 | .run => 1 | .fetch => 2 | .waitt => 3 | .waits => 4 | .waitb => 5 | .pushWait => 6 | .stepWait => 7

/-- Fields of a fen block with their present values. -/
def Pkg.liveFen (p : Pkg) (i : Nat) : Nat → List (Fld × Nat)
  | 0x100 => [(F.fenMapSpare, b2n (p.spareFen i)), (F.fenMapFused, b2n (p.fused i))]
  | 0x118 => let c := (p.fen i).clk
    [(F.fenClkLagLag352, min (2 ^ 32 - 1) c.lag), (F.fenClkLagLag16, p.lag16 i), (F.fenClkLagCatchup, b2n (decide (0 < c.catchup))),
     (F.fenClkLagHeld, b2n c.heldNow)]
  | 0x120 => [(F.fenClkStatStretchLag, min (2 ^ 24 - 1) (p.fen i).clk.stretchLag)]
  | 0x138 => let x := p.fen i
    [(F.fenQueueTeOcc, x.qTe.length), (F.fenQueueVeOcc, x.qVe.length), (F.fenQueueSmOcc, x.qSm.length), (F.fenQueueLxOcc, x.qLx.length)]
  | 0x140 => let x := (p.fen i).proc
    [(F.fenProcPcPc, x.pc), (F.fenProcPcState, x.st.num), (F.fenProcPcLdepth, x.loops.length)]
  | 0x148 => [(F.fenProcEp, (p.fen i).proc.ep.toNat)]
  | 0x150 => [(F.fenProcCt, (p.fen i).proc.ct.toNat)]
  | 0x190 => let x := p.fen i
    [(F.fenSluiceOcc0, (x.sluice 0).length), (F.fenSluiceOcc1, (x.sluice 1).length), (F.fenSluiceOcc2, (x.sluice 2).length),
     (F.fenSluiceOcc3, (x.sluice 3).length)]
  | _ => []

/-- A port is behind (R279): the reserved slot of the next ordinal has passed. -/
def Pkg.behind (p : Pkg) (q : Nat) : Bool :=
  let tab := p.slotTable q
  match p.slotNow with
  | some (id, _) => !tab.isEmpty && decide (p.ordSlot tab (p.port q).ordTx < id)
  | none =>
    match p.job.cur with
    | some c =>
      !tab.isEmpty && decide (p.ordSlot tab (p.port q).ordTx < ((p.refCount - c.startTick) / c.img.stepTicks + 1) * nslot c.img.stepTicks)
    | none => false
def Pkg.livePort (p : Pkg) (q : Nat) : Nat → List (Fld × Nat)
  | 0x108 => [(F.issynStatusState, (p.port q).state.code), (F.issynStatusBehind, b2n (p.behind q))]
  | 0x140 => let x := p.port q
    [(F.issynSeqTxNext, x.nextSeq), (F.issynSeqOldest, (match x.replay with | r :: _ => r.seq | [] => x.nextSeq)),
     (F.issynSeqUnacked, x.replay.length), (F.issynSeqRxNext, x.ordRx % 4096), (F.issynSeqRxHeld, x.rxHeld)]
  | 0x148 => [(F.issynTxIdx, (p.port q).ordTx)]
  | 0x150 => [(F.issynRxIdxOrdinal, (p.port q).ordRx)]
  | _ => []

/-- Registers of one base at an offset from the first of them. -/
def TBase.live (x : TBase) (k : Nat) : Option Nat :=
  match k with
  | 0x00 => some x.count
  | 0x08 => some (x.frac / 2 ^ 24)
  | 0x20 => some (x.state.code + 8 * b2n x.phaseStepped + 16 * b2n x.everLocked + 256 * min 255 x.steps)
  | 0x28 => some (wrapNat 64 x.offset)
  | 0x30 => some (wrapNat 32 x.path)
  | 0x38 => some (wrapNat 32 x.trim)
  | _ => none

def Pkg.liveWgt (p : Pkg) (off : Nat) : List (Fld × Nat) :=
  if off < 0x120 then
    let k := (off - 0x100) / 8
    let w := p.wset k
    [(F.wgtSetState.nth k, w.state), (F.wgtSetForwarded.nth k, b2n w.forwarded), (F.wgtSetCause.nth k, w.cause), (F.wgtSetLoadId.nth k, w.loadId)]
  else if off < 0x140 then
    let k := (off - 0x120) / 8
    let w := p.wset k
    let l := List.range w.shards
    [(F.wgtProgKeptDone.nth k, (l.filter fun i => w.keeps i && w.checked.contains i).length),
     (F.wgtProgShardAcked.nth k, (l.filter fun i => w.acked.contains i || (decide (w.up = noPeer) && w.checked.contains i)).length)]
  else if off = 0x148 then
    match p.wgt.pending with
    | some (s, _, _) => [(F.wgtWptSide, p.wgt.side), (F.wgtWptPending, 1), (F.wgtWptPendingSet, s)]
    | none => [(F.wgtWptSide, p.wgt.side)]
  else if off = 0x150 then
    match p.wgt.pending with | some (_, t, _) => [(F.wgtSwitchTickApplyTick, t)] | none => []
  else if off = 0x160 then [(F.wgtStageHeld, (p.wgt.sets.map fun x => x.2.staged).foldl (· + ·) 0)]
  else if 0x200 ≤ off && off < 0x400 then
    let k := (off - 0x200) / 8
    match p.wgt.keys.find? k with
    | some x => [(F.wgtKeyKeyId.nth k, x.id), (F.wgtKeyValid.nth k, 1), (F.wgtKeyBusy.nth k, b2n (p.keyBusy k))]
    | none => []
  else []

/-- JOB_ID of the plan in states 3 to 7 (R466). -/
def Pkg.liveJobId (p : Pkg) : Nat :=
  match p.job.arming with
  | some (c, _) => c.le 0x10 8
  | none => if p.job.state < 3 then 0 else match p.statePlan with | some n => (match n.arm with | some a => a.jobId | none => 0) | none => 0

/-- A fault-manager message has come within GUARD_TICKS (R508). -/
def Pkg.guardOk (p : Pkg) : Bool := p.care.everMsg && decide (p.tb1 ≤ p.care.lastMsg + p.fget F.jobGuardGuardTicks 0)
/-- Version of a slot's image, 0 when it is not trusted (R508). -/
def Pkg.slotVer (p : Pkg) (i : Nat) : Nat :=
  let s := p.care.flash.slot i
  if s.trusted p.part then s.ver else 0

/-- Fields of a block-specific register with the values their units hold now; others are as stored. -/
def Pkg.live (p : Pkg) (b : Blk) (i off : Nat) : List (Fld × Nat) :=
  match b with
  | .fen => p.liveFen i off
  | .issyn => p.livePort i off
  | .wgt => p.liveWgt off
  | .chip =>
    if off = 0x128 then
      let w := p.power
      [(F.chipPwrState, w.state), (F.chipPwrTarget, w.target), (F.chipPwrCommitted, b2n w.committed), (F.chipPwrWakeHeld, b2n w.wakeHeld)]
    else if off = 0x160 then
      [(F.chipGradeMeshW, p.meshW), (F.chipGradeStacks, ((List.range 8).filter p.fitted).foldl (fun a s => a + 2 ^ s) 0),
       (F.chipGradeActiveFens, 16 * p.meshW), (F.chipGrade, p.part.grade)]
    else []
  | .pclk =>
    if off = 0x100 then
      let lock := decide (2 ≤ p.fget F.chipStage 0) && decide (p.power.state < 3)
      [(F.pclkPllStatusLock, b2n lock), (F.pclkPllStatusRefPresent, b2n (lock && !p.fon F.pclkPllStatusHoldover 0))]
    else if off = 0x108 then [(F.pclkThrottlePending, b2n p.bell.throttle.isSome)]
    else []
  | .bell =>
    if off = 0x108 then [(F.bellTb0Now, p.tb0)]
    else if 0x140 ≤ off && off < 0x180 then
      (match p.bell.tb1.live (off - 0x140) with | some v => [(⟨.bell, off, 63, 0⟩, v)] | none => [])
    else if 0x180 ≤ off && off < 0x1C0 then
      (match p.bell.tb2.live (off - 0x180) with | some v => [(⟨.bell, off, 63, 0⟩, v)] | none => [])
    else []
  | .samp => if off = 0x108 then [(F.sampQueueOcc, (p.samp i).queue.length), (F.sampQueueBusy, b2n (p.samp i).run.isSome)] else []
  | .sdram => if off = 0x108 then [(F.sdramThermRefMode, b2n p.planRuns)] else []
  | .fab =>
    if off = 0x108 then [(F.fabRtDataEntry, (p.rank.getD (p.fget F.fabRtIndexRank i) 0#64).toNat)]
    else if off = 0x110 then
      [(F.fabPosRack, p.phys / 64), (F.fabPosBoard, p.phys / 4 % 16), (F.fabPos, p.phys % 4), (F.fabPosX, torusX p.phys), (F.fabPosY, torusY p.phys)]
    else []
  | .roll =>
    if off = 0x118 then [(F.rollEgressHeadPhase, ringPhase (p.fget F.rollEgressHead 0) p.egSize)]
    else if off = 0x128 then
      let n (k : Nat) : Nat := (p.roll.entries.filter fun x => decide (x.2.state = k)).length
      [(F.rollOccQueued, n 1), (F.rollOccActive, n 2), (F.rollOccBacklog, p.roll.backlog.length)]
    else []
  | .host =>
    if off = 0x110 then [(F.hostCplHeadPhase, ringPhase (p.fget F.hostCplHeadIndex 0) p.cplSize)]
    else if off = 0x130 then
      [(F.hostSlotsBusy, ((List.range 8).filter fun s => p.slotBusy s).foldl (fun a s => a + 2 ^ s) 0)]
    else if off = 0x140 then [(F.hostPatchLevel, p.host.patchLevel), (F.hostPatchCount, p.host.patchCount)]
    else []
  | .job =>
    if off = 0x100 then [(F.jobState, p.job.state)]
    else if off = 0x108 then [(F.jobIdJobId, p.liveJobId)]
    else []
  | .care =>
    if off = 0x100 then [(F.careStatusGuardOk, b2n p.guardOk), (F.careStatusFuses, p.part.fwFuses)]
    else if off = 0x108 then [(F.careFwVerVerA, p.slotVer 0), (F.careFwVerVerB, p.slotVer 1)]
    else []
  | .sec =>
    if off = 0x100 then
      [(F.secStatusSessions, p.spdm.sessions.length), (F.secStatusRevoked, p.part.revoked), (F.secStatusPatchFuses, p.part.patchFuses)]
    else []
  | .mark => if 0x118 ≤ off && off < 0x138 then [(⟨.mark, off, 63, 0⟩, (p.markRead i ((off - 0x118) / 8)).toNat)] else []
  | _ => []

/-- A register of a normal page as it stands (R560 to R564, R568, R574). -/
def Pkg.regRead (p : Pkg) (b : Blk) (i off : Nat) : W64 :=
  if off = 0x000 then Pkg.idReg b i
  else if off = 0x008 then p.versionReg
  else if off = 0x018 then p.statusReg b i
  else if p.absent b i && !(b = .fen && off = 0x100) then b.resetVal off
  else if off = 0x030 then p.intPend b i
  else if b = .chip && 0x200 ≤ off && off < 0x400 then
    BitVec.ofNat 64 ((p.irqSum.filter fun k => decide (k / 64 = (off - 0x200) / 8)).foldl (fun a k => a + 2 ^ (k % 64)) 0)
  else if b = .brsm && 0x200 ≤ off && off < 0x280 then BitVec.ofNat 64 (leAt p.brsmRec (off - 0x200) 8)
  else
    match b.row? off with
    | some _ => (p.live b i off).foldl (fun w x => setBits w x.1.hi x.1.lo x.2) (p.reg b i off)
    | none => 0#64

/-- The fields of a register with an access code. -/
def accMask (a : Acc7) (b : Blk) (off : Nat) : W64 :=
  match b.row? off with
  | some r => (r.fields.filter fun f => f.acc = a).foldl (fun w f => w ||| maskBits f.hi f.lo) 0#64
  | none => 0#64
/-- RC fields of a register that a read through the normal page clears. -/
def rcMask (b : Blk) (off : Nat) : W64 := accMask .rc b off

/-- A read that clears the RC fields of a register: what hardware has set or counted in the present tick comes after it,
and into ERR_FIRST with it (R15, R492). -/
def Pkg.rcClear (p : Pkg) (b : Blk) (i off : Nat) : Pkg :=
  let m := rcMask b off
  let x := p.freshOf b i off
  let q := p.setReg b i off ((p.reg b i off &&& ~~~m) ||| (x.2 &&& m))
  let q := if off = 0x038 && bits x.2 31 0 ≠ 0 then q.setReg b i 0x040 (p.freshOf b i 0x040).2 else q
  if (p.fresh.find? (b.base i + off)).isSome then
    { q with fresh := AMap.put q.fresh (b.base i + off) (x.1 &&& ~~~m, x.2) }
  else q
/-- What such a read returns: RC fields as the present tick began. -/
def Pkg.rcValue (p : Pkg) (b : Blk) (i off : Nat) : W64 :=
  let m := rcMask b off
  (p.regRead b i off &&& ~~~m) ||| ((if (p.fresh.find? (b.base i + off)).isSome then (p.freshOf b i off).1 else p.regRead b i off) &&& m)

/-! The MSI-X table and pending-bit array. DESIGN CHOICE (log entry 61): plain storage of 64 entries, no bit pending. -/
def msixAt (a : Nat) : Bool := decide (0x03FF0000 ≤ a) && decide (a < 0x03FF0400)
def pbaAt (a : Nat) : Bool := decide (0x03FF8000 ≤ a) && decide (a < 0x03FF8008)

/-- Four or eight bytes, aligned (R557). -/
def goodAccess (off size : Nat) : Bool := (size = 4 || size = 8) && off % size = 0
/-- The half of a register that a 4-byte access addresses. -/
def halfOf (off size : Nat) (w : W64) : List Byte := (leBytes 8 w.toNat).drop (off % 8) |>.take size

/-- REGISTER_READ. -/
def registerRead (care : Bool) (off size : Nat) (p : Pkg) : Pkg :=
  let refuse : Pkg := p.answer [] true false
  if !goodAccess off size || (!care && p.host.d3hot) then refuse
  else
    let a := off / 8 * 8
    if msixAt a then p.answer (halfOf off size (p.host.msixTab.getD (a - 0x03FF0000) 0#64)) false false
    else if pbaAt a then p.answer (leBytes size 0) false false
    else
      match Blk.locate a with
      | none => refuse
      | some (b, i, o) =>
        let page := o / 0x1000
        let r := o % 0x1000
        if page = 3 then p.answer (leBytes size 0) false false
        else
          if page = 0 && size = 8 && !p.absent b i && rcMask b r ≠ 0#64 then
            (p.answer (halfOf off size (p.rcValue b i r)) false false).rcClear b i r
          else p.answer (halfOf off size (p.regRead b i r)) false false
def execRegisterRead (care : Bool) (off size : Nat) (s : State) : Host.Outcome State Fault Refusal :=
  onPkg (registerRead care off size) s

/-! Writes. -/

/-- A plan is armed, or runs, on TB1 or TB2. -/
def Pkg.rankHeld (p : Pkg) : Bool :=
  p.planRuns || p.job.arming.isSome || (match p.job.next with | some n => n.arm.isSome | none => false)
/-- The Caretaker's write of a rank-table register of FAB `i`, or its rejection (R313). -/
def Pkg.rankGate (p : Pkg) (i : Nat) (go : Pkg) : Pkg := if p.rankHeld then p.log1 .fab i 0x0093 0 none else go
/-- Bits of a rank-table entry that are not reserved (R312). -/
def rankMask : W64 := 0x3FFF7F#64
def rankWrite (i e : Nat) (v : W64) (p : Pkg) : Pkg :=
  p.rankGate i { p with rank := AMap.set 0#64 p.rank (e % 16384) (v &&& rankMask) }
/-- RANK_TABLE_WRITE. -/
def execRankTableWrite (e : Nat) (care : Bool) (v : W64) (s : State) : Host.Outcome State Fault Refusal :=
  onPkg (if care then rankWrite 0 e v else id) s

/-- What a write asks of a register: page, data, and the bits that the access covers (R556, R557); `fresh` are the bits
that hardware has set in the present tick, which clearing does not reach (R15). -/
structure Wr where
  page : Nat
  data : W64
  cover : W64
  fresh : W64 := 0#64

/-- ST fields whose tables state a write (R60, R205, R223, R493). -/
def stWritable (b : Blk) (off : Nat) : Bool :=
  (b = .fen && (off = 0x100 || off = 0x160 || (0x200 ≤ off && off < 0x400))) || (b = .chip && off = 0x120)

/-- Bits that a write acts on: in an alias, those with data 1. -/
def Wr.acts (x : Wr) : W64 := if x.page = 0 then x.cover else x.cover &&& x.data
/-- A field after the write, and the bits of it that trigger an action. -/
def Wr.field (x : Wr) (b : Blk) (off : Nat) (care : Bool) (f : FRow) (s : W64 × W64) : W64 × W64 :=
  let m := x.acts &&& maskBits f.hi f.lo
  let nd : W64 := if x.page = 0 then x.data else if x.page = 1 then ~~~(0#64) else 0#64
  let put : W64 := (s.1 &&& ~~~m) ||| (nd &&& m)
  if f.care && !care then s
  else match f.acc with
    | .rw => (put, s.2)
    | .st => if !stWritable b off then s else if b = .chip then (s.1 ||| put, s.2) else (put, s.2)
    | .w1c => if x.page = 1 then s else (s.1 &&& ~~~(m &&& x.data &&& ~~~x.fresh), s.2)
    | .w1s => if x.page = 2 then s else (s.1, s.2 ||| (m &&& x.data))
    | .wo => if x.page = 0 then (s.1, s.2 ||| (m &&& x.data)) else s
    | .ro => s
    | .rc => s
/-- The register after the write, and the triggers. -/
def Wr.apply (x : Wr) (b : Blk) (off : Nat) (care : Bool) (r : RRow) (old : W64) : W64 × W64 :=
  r.fields.foldl (fun s f => x.field b off care f s) (old, 0#64)

/-- A field that the writer may write lies among the bits acted on. -/
def Wr.touches (x : Wr) (care : Bool) (r : RRow) : Bool :=
  r.fields.any fun f => decide (x.acts &&& maskBits f.hi f.lo ≠ 0#64) && (care || !f.care) && decide (f.acc ≠ .ro) && decide (f.acc ≠ .rc)

/-- ISSYN.CTRL: the fields stored, then ENABLE, TRAIN and LANE_RETRY act (R286, R287, R293). The corrections of a
training are free values. -/
def ctrlWrite (q : Nat) (new trig : W64) (p : Pkg) : Pkg :=
  let was := p.fon F.issynCtrlEnable q
  let v := bit new 0
  let tx := p.freeNat % 2 ^ 32
  let rx := p.freeNat / 2 ^ 32 % 2 ^ 32
  let p := p.setReg .issyn q 0x100 new
  let p := if v ≠ was then portEnable q true v tx rx p.freeNext else p
  let p := if bit trig 1 then trainStart q true tx rx p.freeNext else p
  if bit trig 2 then laneRetry q true p else p

/-- MARK.CFG (R536, R539). -/
def markCfgWrite (d : Nat) (new trig : W64) (p : Pkg) : Pkg :=
  let was := p.fon F.markCfgEn d
  let p := p.setReg .mark d 0x100 new
  let p := if bit new 0 && !was then p.setMark d { p.mark d with countdown := max 1 (bits new 31 8) } else p
  if bit trig 2 then p.markReset d else p

/-- FEN.MAP.FAILED and FEN.ICACHE, which the Caretaker writes (R60, R205, R489). -/
def failedWrite (f : Nat) (new : W64) (p : Pkg) : Pkg := if bit new 11 then p.markFailed f else p.setReg .fen f 0x100 new
def retireWrite (f : Nat) (new : W64) (p : Pkg) : Pkg :=
  let p := p.setReg .fen f 0x160 new
  let keep := new &&& maskBits 51 48
  let p := p.updFlash fun x => { x with ways := AMap.set 0#64 x.ways (Blk.base .fen f + 0x160) keep }
  if 2 ≤ (p.retiredWays f).length then p.replace 4 else p

/-- A ring's base and size while its ring is enabled stay as they are (R354, R449). -/
def ringGuard (p : Pkg) (b : Blk) (off : Nat) (old new : W64) : W64 :=
  if b = .host && p.fon F.hostCplCfgEn 0 then
    if off = 0x100 then old else if off = 0x108 then setBits new 3 0 (bits old 3 0) else new
  else if b = .roll && p.fon F.rollCtrlEgressEn 0 && (off = 0x108 || off = 0x110) then old
  else new

/-- A write has given a register new contents and triggers: what it does beyond storing them. -/
def Pkg.regEffect (p : Pkg) (bu : Bursar) (b : Blk) (i off : Nat) (new trig : W64) : Pkg :=
  let store : Pkg := p.setReg b i off new
  if off = 0x020 || off = 0x028 then store.irqUpdate b i
  else if 0x0C0 ≤ off && off < 0x100 then (if bit trig 63 then store.setReg b i (off - 0x40) 0#64 else store)
  else
    match b, off with
    | .bell, 0x110 => tb0RateWrite true new p
    | .bell, 0x118 => tb0AdjWrite true trig p
    | .bell, 0x150 => masterChange false true new p
    | .bell, 0x190 => masterChange true true new p
    | .pclk, 0x110 => throttleTickWrite new p
    | .issyn, 0x100 => ctrlWrite i new trig p
    | .issyn, 0x110 => (p.partWrite i (bits new 7 0) (bit new 8)).1
    | .fab, 0x100 => p.rankGate i store
    | .fab, 0x108 => rankWrite i (p.fget F.fabRtIndexRank i) new p
    | .roll, 0x120 => egressTailWrite new.toNat p
    | .host, 0x108 => Pkg.cplDrain store.host.cplQ.length store
    | .host, 0x118 => cplTailWrite new.toNat p
    | .brsm, 0x130 => p.brsmSelect bu true new.toNat
    | .mark, 0x100 => markCfgWrite i new trig p
    | .chip, 0x120 => (List.range 8).foldl (fun (p : Pkg) n => if bit new n then p.replace n else p) p
    | .fen, 0x100 => failedWrite i new p
    | .fen, 0x160 => retireWrite i new p
    | .fen, _ => if 0x200 ≤ off && off < 0x400 then store.sparesCount i else store
    | _, _ => store

/-- A write that reaches a register (R556, R557); a W1C bit that hardware has set in the present tick stays set (R15). -/
def Pkg.regStore (p : Pkg) (bu : Bursar) (care : Bool) (b : Blk) (i off : Nat) (x : Wr) : Pkg :=
  match b.row? off with
  | some r =>
    if !x.touches care r then p
    else
      let old := if b = .fab && off = 0x108 then p.regRead b i off else p.reg b i off
      let y := { x with fresh := (p.freshOf b i off).2 }.apply b off care r old
      p.regEffect bu b i off (ringGuard p b off old y.1) y.2
  | none => p

/-- REGISTER_WRITE. -/
def registerWrite (bu : Bursar) (care : Bool) (off size : Nat) (v : W64) (p : Pkg) : Pkg :=
  if !goodAccess off size then p
  else if !care && p.host.d3hot then p.urWrite
  else
    let a := off / 8 * 8
    let sh := 8 * (off % 8)
    let x : Wr := { page := 0, data := BitVec.ofNat 64 (v.toNat % 2 ^ (8 * size) * 2 ^ sh), cover := BitVec.ofNat 64 ((2 ^ (8 * size) - 1) * 2 ^ sh) }
    if msixAt a then
      let k := a - 0x03FF0000
      let old := p.host.msixTab.getD k 0#64
      { p with host := { p.host with msixTab := AMap.set 0#64 p.host.msixTab k ((old &&& ~~~x.cover) ||| x.data) } }
    else if pbaAt a then p
    else
      match Blk.locate a with
      | none => if care then p else p.hostUr
      | some (b, i, o) =>
        if p.power.state = 3 && b ≠ .chip && b ≠ .host then p.hostUr
        else if p.absent b i || 3 ≤ o / 0x1000 then p
        else p.regStore bu care b i (o % 0x1000) { x with page := o / 0x1000 }
def execRegisterWrite (care : Bool) (off size : Nat) (v : W64) (s : State) : Host.Outcome State Fault Refusal :=
  onPkg (registerWrite s.bursar care off size v) s

end Sys2Proof.Machine
end

