-- ==== Sys2Proof/Machine/Receive.lean ====
section
/-! DEFINITION. What a port makes of a block it has received, and where a management flit goes (R275, R283, R318). -/
namespace Sys2Proof.Machine

open Sys2Proof

/-- A Caretaker Message that came in a MGMT flit, to the meaning of its type. -/
def careMsg (b : List Byte) (p : Pkg) : Pkg :=
  let typ := leAt b 3 1
  if leAt b 6 2 / 2 % 2 = 1 then msgRun 0 false messageAck 2 b p
  else if typ = 4 then msgRun 4 true command 2 b p
  else if typ = 8 then msgRun 8 true throttleSet 2 b p
  else if typ = 9 then msgRun 9 false timeMsg 2 b p
  else if typ = 10 then msgRun 10 true record 2 b p
  else if typ = 11 then msgRun 11 true fwWrite 2 b p
  else if typ = 12 then msgRun 12 true fwActivate 2 b p
  else if typ = 13 then msgRun 13 true fwCommit 2 b p
  else msgRun 1 false heartbeat 2 b p

/-- MGMT_FLIT: taken by the unit that its byte 0 names, forwarded, or dropped. -/
def mgmtFlit (q : Nat) (b : List Byte) (p : Pkg) : Pkg :=
  let y := flitPayload b
  let k := leAt y 0 1
  if !p.mgmtHere b then
    let r := p.control q 6 b
    if r.2 then r.1.forwardMgmt q (flitPaddr b) y else r.1
  else if k = 0x40 then wchunk q b p
  else if k = 0x41 then wack q b p
  else if k = 0x50 then sdig q b p
  else if k = 0x51 then sroll q b p
  else if k = 0x60 then armCopyRx q b p
  else
    let r := p.control q 6 b
    if !r.2 then r.1
    else if k = 0x43 then careMsg (y.take (48 + leAt y 4 2)) r.1
    else r.1.fadd F.issynErrBadFlit q 1
def execMgmtFlit (p : Fin 16) (flit : List Byte) (s : State) : Host.Outcome State Fault Refusal := onPkg (mgmtFlit p flit) s

/-- ISSYN_FLIT_RECEIVE: a block has arrived at a port that is UP, after `corrected` corrected and `lost` uncorrectable
codewords (R266, R283). Control flits of a known type have rows of their own. -/
def issynFlitReceive (q corrected lost : Nat) (b : List Byte) (p : Pkg) : Pkg :=
  if (p.port q).state ≠ .up || 2 ≤ p.power.state then p
  else
    let p := (p.fadd F.issynFecCorrected q corrected).fadd F.issynFecUncorrectable q lost
    if !flitGood b then p.fadd F.issynErrCrcErr q 1
    else
      match flitKind b with
      | 0 => p.dataRx q b
      | 1 => if 6 < flitCtype b then p.fadd F.issynErrBadFlit q 1 else p
      | 2 => p.dataRx q b
      | _ => p
def execIssynFlitReceive (p : Fin 16) (corrected lost : Nat) (flit : List Byte) (s : State) : Host.Outcome State Fault Refusal :=
  onPkg (issynFlitReceive p corrected lost flit) s

end Sys2Proof.Machine
end

