-- ==== Sys2Proof/Machine/Dispatch.lean ====
section
/-! DEFINITION. The dispatch of a command to its meaning: one arm per constructor. -/
namespace Sys2Proof.Machine

open Sys2Proof

def exec (i : Instr) (s : State) : Host.Outcome State Fault Refusal :=
  match i with
  | .teLda f => Sys2Proof.Machine.execTeLda f s
  | .teLdb f => Sys2Proof.Machine.execTeLdb f s
  | .teMac f => Sys2Proof.Machine.execTeMac f s
  | .teDrain f => Sys2Proof.Machine.execTeDrain f s
  | .teAddw f => Sys2Proof.Machine.execTeAddw f s
  | .teClr f => Sys2Proof.Machine.execTeClr f s
  | .veLd f => Sys2Proof.Machine.execVeLd f s
  | .veSt f => Sys2Proof.Machine.execVeSt f s
  | .veImm f => Sys2Proof.Machine.execVeImm f s
  | .veFadd f => Sys2Proof.Machine.execVeFadd f s
  | .veFsub f => Sys2Proof.Machine.execVeFsub f s
  | .veFmul f => Sys2Proof.Machine.execVeFmul f s
  | .veFfma f => Sys2Proof.Machine.execVeFfma f s
  | .veFmin f => Sys2Proof.Machine.execVeFmin f s
  | .veFmax f => Sys2Proof.Machine.execVeFmax f s
  | .veFneg f => Sys2Proof.Machine.execVeFneg f s
  | .veFabs f => Sys2Proof.Machine.execVeFabs f s
  | .veFbcast f => Sys2Proof.Machine.execVeFbcast f s
  | .veFmask f => Sys2Proof.Machine.execVeFmask f s
  | .veExp2 f => Sys2Proof.Machine.execVeExp2 f s
  | .veLog2 f => Sys2Proof.Machine.execVeLog2 f s
  | .veRcp f => Sys2Proof.Machine.execVeRcp f s
  | .veRsqrt f => Sys2Proof.Machine.execVeRsqrt f s
  | .veTanh f => Sys2Proof.Machine.execVeTanh f s
  | .veGelu f => Sys2Proof.Machine.execVeGelu f s
  | .veSilu f => Sys2Proof.Machine.execVeSilu f s
  | .veRsum f => Sys2Proof.Machine.execVeRsum f s
  | .veRmax f => Sys2Proof.Machine.execVeRmax f s
  | .veRmin f => Sys2Proof.Machine.execVeRmin f s
  | .veAadd f => Sys2Proof.Machine.execVeAadd f s
  | .veAst f => Sys2Proof.Machine.execVeAst f s
  | .veArnd f => Sys2Proof.Machine.execVeArnd f s
  | .veAclr f => Sys2Proof.Machine.execVeAclr f s
  | .smCopy f => Sys2Proof.Machine.execSmCopy f s
  | .smSend f => Sys2Proof.Machine.execSmSend f s
  | .smSlrd f => Sys2Proof.Machine.execSmSlrd f s
  | .smSlput f => Sys2Proof.Machine.execSmSlput f s
  | .smSlwr f => Sys2Proof.Machine.execSmSlwr f s
  | .sampDraw d => Sys2Proof.Machine.execSampDraw d s
  | .lxHdr f => Sys2Proof.Machine.execLxHdr f s
  | .epochZeroingDone f => Sys2Proof.Machine.execEpochZeroingDone f s
  | .add f => Sys2Proof.Machine.execAdd f s
  | .sub f => Sys2Proof.Machine.execSub f s
  | .and_ f => Sys2Proof.Machine.execAnd f s
  | .or_ f => Sys2Proof.Machine.execOr f s
  | .xor f => Sys2Proof.Machine.execXor f s
  | .shl f => Sys2Proof.Machine.execShl f s
  | .shr f => Sys2Proof.Machine.execShr f s
  | .sra f => Sys2Proof.Machine.execSra f s
  | .mul f => Sys2Proof.Machine.execMul f s
  | .addi f => Sys2Proof.Machine.execAddi f s
  | .andi f => Sys2Proof.Machine.execAndi f s
  | .ldi f => Sys2Proof.Machine.execLdi f s
  | .ldhi f => Sys2Proof.Machine.execLdhi f s
  | .cmp f => Sys2Proof.Machine.execCmp f s
  | .minmax f => Sys2Proof.Machine.execMinmax f s
  | .bfx f => Sys2Proof.Machine.execBfx f s
  | .agcur f => Sys2Proof.Machine.execAgcur f s
  | .agnext f => Sys2Proof.Machine.execAgnext f s
  | .agrst f => Sys2Proof.Machine.execAgrst f s
  | .agbase f => Sys2Proof.Machine.execAgbase f s
  | .agat f => Sys2Proof.Machine.execAgat f s
  | .br f => Sys2Proof.Machine.execBr f s
  | .jal f => Sys2Proof.Machine.execJal f s
  | .jr f => Sys2Proof.Machine.execJr f s
  | .loop f => Sys2Proof.Machine.execLoop f s
  | .lidx f => Sys2Proof.Machine.execLidx f s
  | .break_ f => Sys2Proof.Machine.execBreak f s
  | .step f => Sys2Proof.Machine.execStep f s
  | .pushTe f => Sys2Proof.Machine.execPushTe f s
  | .pushVe f => Sys2Proof.Machine.execPushVe f s
  | .pushSm f => Sys2Proof.Machine.execPushSm f s
  | .pushLx f => Sys2Proof.Machine.execPushLx f s
  | .pushSamp f => Sys2Proof.Machine.execPushSamp f s
  | .pushQueueEntry f => Sys2Proof.Machine.execPushQueueEntry f s
  | .ins f => Sys2Proof.Machine.execIns f s
  | .waitt f => Sys2Proof.Machine.execWaitt f s
  | .waits f => Sys2Proof.Machine.execWaits f s
  | .waitb f => Sys2Proof.Machine.execWaitb f s
  | .csrr f => Sys2Proof.Machine.execCsrr f s
  | .csrw f => Sys2Proof.Machine.execCsrw f s
  | .csrs f => Sys2Proof.Machine.execCsrs f s
  | .csrc f => Sys2Proof.Machine.execCsrc f s
  | .epoch f => Sys2Proof.Machine.execEpoch f s
  | .tbset f => Sys2Proof.Machine.execTbset f s
  | .cover f => Sys2Proof.Machine.execCover f s
  | .icacheMiss f parity => Sys2Proof.Machine.execIcacheMiss f parity s
  | .icacheFill f line => Sys2Proof.Machine.execIcacheFill f line s
  | .pcRange f => Sys2Proof.Machine.execPcRange f s
  | .pcRangeResume f => Sys2Proof.Machine.execPcRangeResume f s
  | .droopStretch f mv => Sys2Proof.Machine.execDroopStretch f mv s
  | .slipHigh f => Sys2Proof.Machine.execSlipHigh f s
  | .droopHigh f => Sys2Proof.Machine.execDroopHigh f s
  | .fenClockUnlock f => Sys2Proof.Machine.execFenClockUnlock f s
  | .meshFlitArrival k => Sys2Proof.Machine.execMeshFlitArrival k s
  | .meshHopRepeat k snd rcv => Sys2Proof.Machine.execMeshHopRepeat k snd rcv s
  | .portBGrant f => Sys2Proof.Machine.execPortBGrant f s
  | .portBAccess f => Sys2Proof.Machine.execPortBAccess f s
  | .pbForced f => Sys2Proof.Machine.execPbForced f s
  | .scrubWriteback f => Sys2Proof.Machine.execScrubWriteback f s
  | .slabWindowRead by_ n addr len => Sys2Proof.Machine.execSlabWindowRead by_ n addr len s
  | .slabWindowWrite by_ n addr be data ep => Sys2Proof.Machine.execSlabWindowWrite by_ n addr be data ep s
  | .slabWindowBitSet by_ n addr be data ep => Sys2Proof.Machine.execSlabWindowBitSet by_ n addr be data ep s
  | .slabWindowBitClear by_ n addr be data ep => Sys2Proof.Machine.execSlabWindowBitClear by_ n addr be data ep s
  | .dredgeRegionStart d => Sys2Proof.Machine.execDredgeRegionStart d s
  | .dredgeMarchDone d => Sys2Proof.Machine.execDredgeMarchDone d s
  | .dredgeRegionEnd d => Sys2Proof.Machine.execDredgeRegionEnd d s
  | .dredgeEnableWrite d care v => Sys2Proof.Machine.execDredgeEnableWrite d care v s
  | .sluiceDataArrival k => Sys2Proof.Machine.execSluiceDataArrival k s
  | .sluiceWriteAccept k => Sys2Proof.Machine.execSluiceWriteAccept k s
  | .dramRequestService st k => Sys2Proof.Machine.execDramRequestService st k s
  | .peatRequestService k => Sys2Proof.Machine.execPeatRequestService k s
  | .refreshWindow st bank => Sys2Proof.Machine.execRefreshWindow st bank s
  | .ownRefresh st bank => Sys2Proof.Machine.execOwnRefresh st bank s
  | .refreshDeficit st temp => Sys2Proof.Machine.execRefreshDeficit st temp s
  | .deficitClear st temp => Sys2Proof.Machine.execDeficitClear st temp s
  | .issynSlot p => Sys2Proof.Machine.execIssynSlot p s
  | .issynFlitReceive p corrected lost flit => Sys2Proof.Machine.execIssynFlitReceive p corrected lost flit s
  | .issynDelivery p => Sys2Proof.Machine.execIssynDelivery p s
  | .ack p flit => Sys2Proof.Machine.execAck p flit s
  | .replayTimeout p => Sys2Proof.Machine.execReplayTimeout p s
  | .nakRepeat p => Sys2Proof.Machine.execNakRepeat p s
  | .ident p flit => Sys2Proof.Machine.execIdent p flit s
  | .ping p flit phase => Sys2Proof.Machine.execPing p flit phase s
  | .pong p flit phase => Sys2Proof.Machine.execPong p flit phase s
  | .lane p flit => Sys2Proof.Machine.execLane p flit s
  | .laneFail p lane => Sys2Proof.Machine.execLaneFail p lane s
  | .laneMapChange p => Sys2Proof.Machine.execLaneMapChange p s
  | .laneRetry p care => Sys2Proof.Machine.execLaneRetry p care s
  | .laneRetestDone p tx lane ok => Sys2Proof.Machine.execLaneRetestDone p tx lane ok s
  | .portEnable p care v corrTx corrRx => Sys2Proof.Machine.execPortEnable p care v corrTx corrRx s
  | .train p care corrTx corrRx => Sys2Proof.Machine.execTrain p care corrTx corrRx s
  | .trainDone p ok txFailed rxFailed => Sys2Proof.Machine.execTrainDone p ok txFailed rxFailed s
  | .trainTimeout p => Sys2Proof.Machine.execTrainTimeout p s
  | .blockLockLoss p => Sys2Proof.Machine.execBlockLockLoss p s
  | .retrainTimeout p => Sys2Proof.Machine.execRetrainTimeout p s
  | .fenceSet p care => Sys2Proof.Machine.execFenceSet p care s
  | .partIdWrite p care v => Sys2Proof.Machine.execPartIdWrite p care v s
  | .fenceClear p care => Sys2Proof.Machine.execFenceClear p care s
  | .bellSync b p => Sys2Proof.Machine.execBellSync b p s
  | .sync p flit phase => Sys2Proof.Machine.execSync p flit phase s
  | .followUp p flit => Sys2Proof.Machine.execFollowUp p flit s
  | .delayReq p flit phase => Sys2Proof.Machine.execDelayReq p flit phase s
  | .delayResp p flit => Sys2Proof.Machine.execDelayResp p flit s
  | .timeMasterLost b => Sys2Proof.Machine.execTimeMasterLost b s
  | .handover => Sys2Proof.Machine.execHandover s
  | .tb0RateWrite care v => Sys2Proof.Machine.execTb0RateWrite care v s
  | .tb0AdjWrite care v => Sys2Proof.Machine.execTb0AdjWrite care v s
  | .masterChange b care v => Sys2Proof.Machine.execMasterChange b care v s
  | .refLoss => Sys2Proof.Machine.execRefLoss s
  | .refRestored => Sys2Proof.Machine.execRefRestored s
  | .throttleTickWrite v => Sys2Proof.Machine.execThrottleTickWrite v s
  | .throttleApplied => Sys2Proof.Machine.execThrottleApplied s
  | .stepBoundary => Sys2Proof.Machine.execStepBoundary s
  | .intakeScan => Sys2Proof.Machine.execIntakeScan s
  | .submit k => Sys2Proof.Machine.execSubmit k s
  | .cancel k => Sys2Proof.Machine.execCancel k s
  | .samplerRecordToRoll k => Sys2Proof.Machine.execSamplerRecordToRoll k s
  | .egressPost => Sys2Proof.Machine.execEgressPost s
  | .egressTailWrite v => Sys2Proof.Machine.execEgressTailWrite v s
  | .disarmEffect => Sys2Proof.Machine.execDisarmEffect s
  | .digestPointDrop k => Sys2Proof.Machine.execDigestPointDrop k s
  | .digestStepRecord => Sys2Proof.Machine.execDigestStepRecord s
  | .replayHalted => Sys2Proof.Machine.execReplayHalted s
  | .shadowStart => Sys2Proof.Machine.execShadowStart s
  | .sdig p flit => Sys2Proof.Machine.execSdig p flit s
  | .sroll p flit => Sys2Proof.Machine.execSroll p flit s
  | .shadowLate => Sys2Proof.Machine.execShadowLate s
  | .wchunk p flit => Sys2Proof.Machine.execWchunk p flit s
  | .wack p flit => Sys2Proof.Machine.execWack p flit s
  | .chunkIncomplete k => Sys2Proof.Machine.execChunkIncomplete k s
  | .chunkAuthenticated k => Sys2Proof.Machine.execChunkAuthenticated k s
  | .chunkResendTimeout set k => Sys2Proof.Machine.execChunkResendTimeout set k s
  | .chunkTimeout set => Sys2Proof.Machine.execChunkTimeout set s
  | .weightFrameScan => Sys2Proof.Machine.execWeightFrameScan s
  | .slabFill => Sys2Proof.Machine.execSlabFill s
  | .deferredPlacement => Sys2Proof.Machine.execDeferredPlacement s
  | .weightsSwitched => Sys2Proof.Machine.execWeightsSwitched s
  | .identify => Sys2Proof.Machine.execIdentify s
  | .loadPlan => Sys2Proof.Machine.execLoadPlan s
  | .relocate => Sys2Proof.Machine.execRelocate s
  | .arm => Sys2Proof.Machine.execArm s
  | .armCopy p flit => Sys2Proof.Machine.execArmCopy p flit s
  | .armReady => Sys2Proof.Machine.execArmReady s
  | .armTimeout => Sys2Proof.Machine.execArmTimeout s
  | .startAt => Sys2Proof.Machine.execStartAt s
  | .startGuard => Sys2Proof.Machine.execStartGuard s
  | .disarm => Sys2Proof.Machine.execDisarm s
  | .abort => Sys2Proof.Machine.execAbort s
  | .loadWeights => Sys2Proof.Machine.execLoadWeights s
  | .switchWeightsAt => Sys2Proof.Machine.execSwitchWeightsAt s
  | .adapterPut => Sys2Proof.Machine.execAdapterPut s
  | .adapterRetire => Sys2Proof.Machine.execAdapterRetire s
  | .keyInstall => Sys2Proof.Machine.execKeyInstall s
  | .replay => Sys2Proof.Machine.execReplay s
  | .digestRead => Sys2Proof.Machine.execDigestRead s
  | .shadowBegin => Sys2Proof.Machine.execShadowBegin s
  | .shadowEnd => Sys2Proof.Machine.execShadowEnd s
  | .timeRebase => Sys2Proof.Machine.execTimeRebase s
  | .perfConfig => Sys2Proof.Machine.execPerfConfig s
  | .perfCtlApply k => Sys2Proof.Machine.execPerfCtlApply k s
  | .logRead => Sys2Proof.Machine.execLogRead s
  | .powerState => Sys2Proof.Machine.execPowerState s
  | .powerEntryCommit => Sys2Proof.Machine.execPowerEntryCommit s
  | .powerExit => Sys2Proof.Machine.execPowerExit s
  | .partitionSet => Sys2Proof.Machine.execPartitionSet s
  | .commandSlotScan => Sys2Proof.Machine.execCommandSlotScan s
  | .completionPost => Sys2Proof.Machine.execCompletionPost s
  | .cplTailWrite v => Sys2Proof.Machine.execCplTailWrite v s
  | .functionLevelReset => Sys2Proof.Machine.execFunctionLevelReset s
  | .memoryWindowRead w off len => Sys2Proof.Machine.execMemoryWindowRead w off len s
  | .memoryWindowWrite w off be data ep => Sys2Proof.Machine.execMemoryWindowWrite w off be data ep s
  | .rankTableWrite e care v => Sys2Proof.Machine.execRankTableWrite e care v s
  | .registerWrite care off size v => Sys2Proof.Machine.execRegisterWrite care off size v s
  | .perfCounterClear page n care => Sys2Proof.Machine.execPerfCounterClear page n care s
  | .markReset d => Sys2Proof.Machine.execMarkReset d s
  | .markRecord d k => Sys2Proof.Machine.execMarkRecord d k s
  | .coldReset rack board pos mode => Sys2Proof.Machine.execColdReset rack board pos mode s
  | .warmReset rack board pos mode => Sys2Proof.Machine.execWarmReset rack board pos mode s
  | .stageEntered => Sys2Proof.Machine.execStageEntered s
  | .fullRate => Sys2Proof.Machine.execFullRate s
  | .stackLost st => Sys2Proof.Machine.execStackLost st s
  | .peatLost c => Sys2Proof.Machine.execPeatLost c s
  | .sensorSample vals => Sys2Proof.Machine.execSensorSample vals s
  | .status => Sys2Proof.Machine.execStatus s
  | .heartbeat port msg => Sys2Proof.Machine.execHeartbeat port msg s
  | .command port msg => Sys2Proof.Machine.execCommand port msg s
  | .throttleSet port msg => Sys2Proof.Machine.execThrottleSet port msg s
  | .time port msg => Sys2Proof.Machine.execTime port msg s
  | .record port msg => Sys2Proof.Machine.execRecord port msg s
  | .fwWrite port msg => Sys2Proof.Machine.execFwWrite port msg s
  | .fwActivate port msg => Sys2Proof.Machine.execFwActivate port msg s
  | .fwCommit port msg => Sys2Proof.Machine.execFwCommit port msg s
  | .fwTrialExpire => Sys2Proof.Machine.execFwTrialExpire s
  | .messageAck port msg => Sys2Proof.Machine.execMessageAck port msg s
  | .messageRetransmit k => Sys2Proof.Machine.execMessageRetransmit k s
  | .mgmtFlit p flit => Sys2Proof.Machine.execMgmtFlit p flit s
  | .caretakerRestart => Sys2Proof.Machine.execCaretakerRestart s
  | .eventLogAppend => Sys2Proof.Machine.execEventLogAppend s
  | .logFlashWrite => Sys2Proof.Machine.execLogFlashWrite s
  | .mgmtPortDown n => Sys2Proof.Machine.execMgmtPortDown n s
  | .bursarTagFrame flip => Sys2Proof.Machine.execBursarTagFrame flip s
  | .bursarInterval => Sys2Proof.Machine.execBursarInterval s
  | .bursarPowerFail samples => Sys2Proof.Machine.execBursarPowerFail samples s
  | .bursarPowerOn => Sys2Proof.Machine.execBursarPowerOn s
  | .bursarSelect v => Sys2Proof.Machine.execBursarSelect v s
  | .timeMark v => Sys2Proof.Machine.execTimeMark v s
  | .calData off data => Sys2Proof.Machine.execCalData off data s
  | .calCommit v samples => Sys2Proof.Machine.execCalCommit v samples s
  | .sealChange high => Sys2Proof.Machine.execSealChange high s
  | .bursarMirror => Sys2Proof.Machine.execBursarMirror s
  | .bursarStale => Sys2Proof.Machine.execBursarStale s
  | .brsmSelectWrite care v => Sys2Proof.Machine.execBrsmSelectWrite care v s
  | .wakeN => Sys2Proof.Machine.execWakeN s
  | .thermtrip sensor => Sys2Proof.Machine.execThermtrip sensor s
  | .powerUpStart => Sys2Proof.Machine.execPowerUpStart s
  | .pwrEnStep => Sys2Proof.Machine.execPwrEnStep s
  | .pwrSeqTimeout pg => Sys2Proof.Machine.execPwrSeqTimeout pg s
  | .pgLost k => Sys2Proof.Machine.execPgLost k s
  | .vauxLoss samples => Sys2Proof.Machine.execVauxLoss samples s
  | .getVersion mgmt sec msg => Sys2Proof.Machine.execGetVersion mgmt sec msg s
  | .getCapabilities mgmt sec msg => Sys2Proof.Machine.execGetCapabilities mgmt sec msg s
  | .negotiateAlgorithms mgmt sec msg => Sys2Proof.Machine.execNegotiateAlgorithms mgmt sec msg s
  | .getDigests mgmt sec msg => Sys2Proof.Machine.execGetDigests mgmt sec msg s
  | .getCertificate mgmt sec msg => Sys2Proof.Machine.execGetCertificate mgmt sec msg s
  | .challenge mgmt sec msg => Sys2Proof.Machine.execChallenge mgmt sec msg s
  | .getMeasurements mgmt sec msg => Sys2Proof.Machine.execGetMeasurements mgmt sec msg s
  | .keyExchange mgmt sec msg => Sys2Proof.Machine.execKeyExchange mgmt sec msg s
  | .finish mgmt sec msg => Sys2Proof.Machine.execFinish mgmt sec msg s
  | .spdmHeartbeat mgmt sec msg => Sys2Proof.Machine.execSpdmHeartbeat mgmt sec msg s
  | .keyUpdate mgmt sec msg => Sys2Proof.Machine.execKeyUpdate mgmt sec msg s
  | .endSession mgmt sec msg => Sys2Proof.Machine.execEndSession mgmt sec msg s
  | .sessionTimeout k => Sys2Proof.Machine.execSessionTimeout k s
  | .registerRead care off size => Sys2Proof.Machine.execRegisterRead care off size s
  | .lagCleared f => Sys2Proof.Machine.execLagCleared f s
  | .retrainCountReset p => Sys2Proof.Machine.execRetrainCountReset p s
  | .hostLinkChange gen width => Sys2Proof.Machine.execHostLinkChange gen width s
  | .d3hot v => Sys2Proof.Machine.execD3hot v s
  | .mgmtPortUp n => Sys2Proof.Machine.execMgmtPortUp n s
  | .senseFault ch bad => Sys2Proof.Machine.execSenseFault ch bad s
  | .tagInvalid samples => Sys2Proof.Machine.execTagInvalid samples s
  | .powerAborted => Sys2Proof.Machine.execPowerAborted s
  | .powerEntryDone => Sys2Proof.Machine.execPowerEntryDone s
  | .stackTrainingDone st => Sys2Proof.Machine.execStackTrainingDone st s

end Sys2Proof.Machine
end

