-- ==== Sys2Proof/Machine/Tick.lean ====
section
/-! DEFINITION. One reference tick of the package, which is what the block does when no command waits: tick bases, fen
clocks with their holds, stretches and catch-up (R47, R64 to R75), running commands, routers and counters of ticks. -/
namespace Sys2Proof.Machine

open Sys2Proof

/-! Causes of a fen hold at the end of local tick `l` (R47). -/

/-- The Proctor's context in tick `l`, whatever it waits for. -/
def Pkg.pNow (p : Pkg) (f l : Nat) : PCtx :=
  let x := (p.fen f).proc
  { f := f, l := l, pc := x.pc, w := BitVec.ofNat 64 (leAt x.code x.pc 8), x := x }

/-- A WAITS has reached its target. -/
def PCtx.atWaits (c : PCtx) : Bool :=
  decide (c.x.st = .waits) && decide ((c.x.tb + BitVec.ofNat 64 (c.fb 23 0)).toNat ≤ c.l)

/-- A WAITS holds the fen: its entry exists and awaits its data (R192). -/
def Pkg.waitsHold (p : Pkg) (f l : Nat) : Bool :=
  let c := p.pNow f l
  c.atWaits && (match (p.fen f).headEntry (c.fb 25 24) with
    | some e => decide (c.fb 31 26 < 64 * e.beats) && !e.ready
    | none => false)

/-- A WAITS waits for a command of the SM queue: a command delay (R192). -/
def Pkg.waitsDelay (p : Pkg) (f l : Nat) : Bool :=
  let c := p.pNow f l
  c.atWaits && ((p.fen f).headEntry (c.fb 25 24)).isNone && (p.fen f).slWaits (c.fb 25 24)

/-- A fetch stall holds the stations once the coming tick reaches CT (R195). -/
def Pkg.fetchHold (p : Pkg) (f l : Nat) : Bool :=
  let x := (p.fen f).proc
  decide (x.st = .fetch) && decide (x.ct.toNat ≤ l + 1)

/-- The head command of a queue whose firing tick has come. -/
def Pkg.dueHead (p : Pkg) (f : Nat) (st : Station) (l : Nat) : Option QCmd :=
  ((p.fen f).queue st).head?.filter fun q => p.isDue q l

/-- An SM.SLPUT whose entry awaits its data, or an SM.SLRD or SM.SLWR whose sluice discarded reads fill (R167). -/
def Pkg.sluiceHold (p : Pkg) (f l : Nat) : Bool :=
  let x := p.fen f
  match p.dueHead f .sm l with
  | some q =>
    let op := opOf q.word
    let s := slSlu q.word
    (decide (op = 0x85) && (match x.headEntry s with | some e => !e.ready | none => false)) ||
    ((decide (op = 0x84) || decide (op = 0x86)) && !x.slotFree s && (x.sluice s).all SlEnt.dead)
  | none => false

/-- An LX.HDR whose staging entry holds an unsent header (R46, R276). DESIGN CHOICE (log entry 110): R47 names this hold in
neither of its lists; it is a fen hold here, since the port outside the fen ends it. -/
def Pkg.stagingHold (p : Pkg) (f l : Nat) : Bool :=
  match p.dueHead f .lx l with | some q => p.lxBusy q.word | none => false

/-- A flit that the router of logical fen `l` passes on in tick `t + 1` of the plan is absent as that tick begins at wall
time `w` (R74); or one for its slab, due by tick `t`, stands there and could be written, which its consumers wait for. A
flit of the fen's own is no cause, and neither is one of another epoch or of memory traffic. -/
def Pkg.flitHold (p : Pkg) (f l t w : Nat) (m : MFlit) : Bool :=
  let x := p.fen f
  let dst := decide (m.dst = .fen l)
  decide (m.src ≠ f) && !m.free &&
  (match m.route with
   | (a, s) :: r =>
     if a = l then
       (decide (s ≤ t + 1) && decide (w < m.left)) ||
       (dst && r.isEmpty && decide (s ≤ t) && p.localOut f t m && !p.readPending f (m.addr / 512 * 512) m.arr (t + b2n x.clk.heldNow) none)
     else r.any fun z => decide (z.1 = l) && decide (z.2 ≤ t + 1)
   | [] => false) &&
  !(dst && decide (m.ep < 256) && decide (m.ep ≠ x.proc.ep.toNat % 256))

/-- The routes, by the plan, of the flits that the SM.SENDs of a fen have still to inject (R74). -/
def Pkg.unsent (p : Pkg) (g : Nat) : List (List (Nat × Nat)) :=
  let x := p.fen g
  let w := p.meshW
  let of (c : W128) (fire k : Nat) : List (List (Nat × Nat)) :=
    let l := p.logNum g
    let t := fire + 3 + k
    if sdKind c = 0 then (mcFens w (sdMc c) (sdDest c) (sdExtent c)).map fun m => planRoute w l (sdDest c) m t
    else
      let r := if sdKind c = 1 then sampAt w (sdDest c % 4) else portOut w (sdDest c % 16)
      [planRoute w l (r.1 * w + r.2) (r.1 * w + r.2) t]
  let queued := (x.qSm.filter fun q => decide (opOf q.word = 0x81)).map fun q =>
    ((List.range (sdFlits q.word)).map (of q.word q.fire)).flatten
  let going := (x.flights.filter fun y => x.live y && decide (opOf y.word = 0x81)).map fun y =>
    (((List.range (sdFlits y.word)).filter fun k => decide (y.sent ≤ k)).map (of y.word y.fire)).flatten
  queued.flatten ++ going.flatten

/-- The Proctor of fen `g` has not pushed the command that injects a flit in plan tick `i`, and the flit is not due there
yet; or it never will be pushed: the fen has failed, or the Proctor stood under R200 (R74, R200, R487). -/
def Pkg.unpushed (p : Pkg) (g behind i : Nat) : Bool :=
  let x := p.fen g
  x.hard || x.proc.unpushed.any (fun z => decide (z.1 < i) && decide (i < z.2)) ||
  (decide (behind + 352 ≤ x.clk.lag) && decide (x.proc.ct.toNat < i) && decide (352 * i + x.clk.lag > 352 * p.refCount))

/-- A flit that another fen has not injected yet is absent in tick `t + 1` (R74). Flits of commands not pushed yet are those
of `Config.planFlit` (log entry 42). -/
def Pkg.senderHold (p : Pkg) (f l t : Nat) : Bool :=
  (p.fens.map Prod.fst).any fun g =>
    decide (g ≠ f) &&
    ((p.unsent g).any (fun r => r.any fun z => decide (z.1 = l) && decide (z.2 ≤ t + 1)) ||
     (p.planRuns && ((p.fen g).hard || !(p.fen g).proc.unpushed.isEmpty || decide ((p.fen f).clk.lag + 352 ≤ (p.fen g).clk.lag)) &&
      (match Config.planFlit (p.logNum g) l (t + 1) with | some i => p.unpushed g (p.fen f).clk.lag i | none => false)))

/-- An Issyn delivery that the fen needs in tick `t + 1` has not come: the flit is not received, or has not left the receive
buffer (R47, R118). Which fen a flit not received is for is free. -/
def Pkg.linkHold (p : Pkg) (l t : Nat) : Bool :=
  p.planRuns && (p.ports.map Prod.fst).any fun q =>
    let x := p.port q
    let due (o : Nat) : Bool := decide (p.dueTick q o + hopFromPort p.meshW q l ≤ t + 1)
    !(p.rxTable q).isEmpty &&
    (((x.gaps.map Prod.fst ++ (List.range 1024).map fun i => x.ordRx + i).any fun o =>
        due o && !(x.rx.any fun r => decide (r.ord = o)) && decide (Config.linkConsumer q o = l)) ||
     x.rx.any fun r => !r.delivered && due r.ord &&
        decide ((if flitSpace r.bytes = 0 then nbits (flitAddr r.bytes) 23 16 else Config.linkConsumer q r.ord) = l))

/-- The period after local tick `l` is suppressed for a cause outside the fen other than a credit; it would begin at wall
time `w`. -/
def Pkg.waitsOutside (p : Pkg) (f l w : Nat) : Bool :=
  p.waitsHold f l || p.fetchHold f l || p.sluiceHold f l || p.stagingHold f l ||
  (match p.logOf f with
   | some n => p.mesh.any (p.flitHold f n l w) || p.senderHold f n l || p.linkHold n l
   | none => false)

/-! Periods. A period that has ended by a reference edge is an event: the wall time of its end, the fen, its local tick. -/

abbrev PeriodEnd := Nat × Nat × Nat

def Pkg.updClk (p : Pkg) (f : Nat) (g : FenClk → FenClk) : Pkg := p.updFen f fun x => { x with clk := g x.clk }
/-- The lag at which the local count of a fen is `l`, while the work of the end of that tick is done. -/
def Pkg.atTick (p : Pkg) (f l : Nat) : Pkg := p.updClk f fun c => { c with lag := 352 * (p.refCount - l) }

/-- What fen `f` knows of the others as its period begins at wall time `w`, when `todo` has still to happen (R70). -/
def Pkg.peers (p : Pkg) (w : Nat) (todo : List PeriodEnd) : Peers :=
  let ev (b : Nat) : Option PeriodEnd := (p.physOf b).bind fun g => todo.find? fun e => decide (e.2.1 = g)
  let begins (e : PeriodEnd) : Bool :=
    decide (e.1 = w) && decide ((p.fen e.2.1).clk.suppress = 0) && !p.waitsOutside e.2.1 e.2.2 w
  { w := w,
    tick := fun b => match ev b with
      | some e => if begins e then e.2.2 + 1 else e.2.2
      | none => p.local_ ((p.physOf b).getD 0),
    now := fun b => match ev b with | some e => begins e | none => false }

/-- The flits that the router of fen `f` must pass on in tick `t` would find no credit (R73). -/
def Pkg.creditHold (p : Pkg) (f t w : Nat) (todo : List PeriodEnd) : Bool :=
  match p.logOf f with
  | some n => decide (8 ≤ p.mesh.length) && (p.beginTick f t).noCredit n t (p.peers w todo)
  | none => false

/-- A suppressed period (R66), the one after local tick `l`. An inserted period, a late push and the forced port access are
taken first (R195, R210, R214); nothing in the fen but its slab port is clocked. -/
def Pkg.suppressed (p : Pkg) (f l w : Nat) (credit : Bool) : Pkg :=
  let given := decide (0 < (p.fen f).clk.suppress)
  let fetch := !given && p.fetchHold f l
  let wait := !given && p.waitsHold f l
  let p := if given then p.pbInserted f else p
  let p := p.updClk f fun c => { c with lag := c.lag + 352, heldNow := true, suppress := c.suppress - 1 }
  let p := p.stall f 1
  let p := p.fadd F.fenProcStatCoverHold f (b2n fetch)
  let p := p.perf .fen f 0x502 (b2n wait) (engine 0)
  let p := (p.fadd F.fenMeshCreditWait f (b2n credit)).perf .fen f 0x605 (b2n credit) none
  match p.logOf f with | some n => p.ownRequests n w | none => p

/-- What a waiting push counts in a tick (R533). -/
def Pkg.pushWaits (p : Pkg) (f l : Nat) : Pkg :=
  match (p.fen f).proc.st, (p.fen f).proc.held with
  | .pushWait, some h => p.perf .fen f (if l + 4096 < h.fire then 0x202 else 0x203) 1 (proctorAttr 0)
  | _, _ => p

/-- A command of the fen is delayed in local tick `l`: its tick has come and it has not started, or a drain, a WAITS or a
draw of the fen waits (R36, R47, R146, R158). -/
def Pkg.delayed (p : Pkg) (f l : Nat) : Bool :=
  let x := p.fen f
  let due (q : QCmd) : Bool := p.isDue q l
  !x.hard && (([Station.te, .ve, .sm, .lx].any fun st => (x.queue st).any due) || p.waitsDelay f l ||
    (x.flights.any fun y => decide (opOf y.word = 0x03) && y.drainWaits l) ||
    (match p.logOf f with
     | some n => (p.samps.map Prod.fst).any fun d => (p.samp d).queue.any fun q => decide (q.fen = n) && due q
     | none => false))

/-- The end of local tick `l`: port-A accesses, the granted port-B access, and what the tick counts (R47, R146, R213). -/
def Pkg.endTick (p : Pkg) (f l : Nat) : Pkg :=
  let p := (p.accessTick f l).pbDue f
  let p := p.stall f (b2n (p.delayed f l))
  let p := p.pushWaits f l
  let red := (p.fen f).clk.catchup
  (p.perf .fen f 0x100 1 none).perf .fen f 0x104 (b2n (decide (0 < red))) none

/-- Local tick `t` begins (R47, R67, R151, R176). -/
def Pkg.nextTick (p : Pkg) (f t w : Nat) (todo : List PeriodEnd) : Pkg :=
  let p := p.updClk f fun c => { c with heldNow := false, catchup := min 16 c.lag }
  let p := p.captureTick f (t - 1)
  let p := ((p.fenStarts f).beginTick f t).illegalDue f t
  p.routerGo f t (p.peers w todo)

/-- A period ends (R66, R67, R69): the local tick, unless the period was a suppressed one; then the next period is
suppressed, or the next tick begins. An event that an earlier one has overtaken is none. -/
def Pkg.period (todo : List PeriodEnd) (p : Pkg) (e : PeriodEnd) : Pkg :=
  let (w, f, l) := e
  let c := (p.fen f).clk
  if 352 * (l + 1) + c.lag - c.catchup ≠ w then p
  else
    let p := if c.heldNow then p else (p.atTick f l).endTick f l
    let p := p.updClk f fun x =>
      { x with lag := c.lag - c.catchup, stretchLag := x.stretchLag - c.catchup, stretched := 0, catchup := 0 }
    let p := if 0 < c.stretchLag && (p.fen f).clk.stretchLag = 0 then p.rearmDroop f else p
    let p := (List.range 4).foldl (Pkg.sluiceTick f) p
    if 0 < (p.fen f).clk.suppress || p.waitsOutside f l w then p.suppressed f l w false
    else if p.creditHold f (l + 1) w todo then p.suppressed f l w true
    else p.nextTick f (l + 1) w todo

/-- The periods that end by a reference edge, in the order of their ends. -/
def Pkg.periods : List PeriodEnd → Pkg → Pkg
  | [], p => p
  | e :: r, p => Pkg.periods r (p.period r e)

/-- The ends of periods of a fen by the reference edge: at most two, when catch-up ends. A stretch of the period is taken
into the lag at the edge (R65, R66, R68). -/
def Pkg.ends (p : Pkg) (f : Nat) : List PeriodEnd :=
  let c := (p.fen f).clk
  let l := p.refCount - 1 - cdiv c.lag 352
  let c := c.takeStretch
  let w := 352 * (l + 1) + c.lag - c.catchup
  let w2 := w + 352 - min 16 (c.lag - c.catchup)
  [(w, f, l), (w2, f, l + 1)].filter fun e => decide (e.1 ≤ 352 * p.refCount)

/-- A reference edge at the fens. -/
def Pkg.fenEdges (p : Pkg) (fs : List Nat) : Pkg :=
  let es := isort (fun (a b : PeriodEnd) => decide (a.1 ≤ b.1)) (fs.flatMap p.ends)
  let p := fs.foldl (fun (p : Pkg) f => p.updClk f FenClk.takeStretch) p
  fs.foldl Pkg.noteLag (Pkg.periods es p)

/-! Memory traffic and holes. -/

/-- Request flits that have reached their attachments (R244). -/
def Pkg.reqsArrive (p : Pkg) : Pkg :=
  let got := p.mesh.filter fun m => !m.reqs.isEmpty && m.route.isEmpty && decide (m.left ≤ 352 * p.refCount)
  if got.isEmpty then p
  else { p with mesh := p.mesh.filter (fun m => !(!m.reqs.isEmpty && m.route.isEmpty && decide (m.left ≤ 352 * p.refCount))),
                dram := { p.dram with queue := p.dram.queue ++ got.flatMap MFlit.reqs } }

/-- A flit with atoms leaves the last router by its local output; a hold of the fen does not stop it (R234, R244). -/
def Pkg.retsArrive (p : Pkg) (f : Nat) : Pkg :=
  match p.logOf f with
  | none => p
  | some l =>
    let x := p.fen f
    let t := p.local_ f
    match findPos (fun (m : MFlit) => decide (m.dst = .slu l) && m.there p.refCount && (x.clk.heldNow || p.localOut f t m)) p.mesh with
    | none => p
    | some i =>
      match p.mesh[i]? with
      | none => p
      | some m =>
        let p := { p with dram := { p.dram with returns := p.dram.returns ++ m.rets } }
        if x.clk.heldNow then p.dropFlit i else p.takeFlit i f t m

/-- The flits that a plan has the fen of a hole send: poisoned zeros in their slots and ticks (R58). -/
def Pkg.holeGo (p : Pkg) : Pkg :=
  match p.job.cur with
  | none => p
  | some c =>
    if !p.planRuns then p
    else
      let t := p.refCount
      let w := p.meshW
      (c.img.fenset.filter fun l => (p.physOf l).isNone).foldl (fun (p : Pkg) l =>
        (Config.holeSends l t).foldl (fun (p : Pkg) s =>
          let aim : FlitDst × Nat × Nat :=
            if s.1 = 0 then (.fen s.2.1, s.2.1, hopFen w l s.2.1)
            else if s.1 = 1 then (.samp (s.2.1 % 4), (sampAt w (s.2.1 % 4)).1 * w + (sampAt w (s.2.1 % 4)).2, hopSamp w l (s.2.1 % 4))
            else (.edge (s.2.1 % 16), (portOut w (s.2.1 % 16)).1 * w + (portOut w (s.2.1 % 16)).2, hopEdge w l (s.2.1 % 16))
          let m : MFlit :=
            { src := 320 + l, dst := aim.1, addr := s.2.2.1, data := { bytes := List.replicate 256 0#8, poison := true }, len := 256,
              ep := 256, vc := s.2.2.2, arr := t + aim.2.2, tries := 0, hop := 320 + l, inj := t,
              route := planRoute w l aim.2.1 aim.2.1 t, side := 0, left := 0, blocked := false }
          { p with mesh := p.mesh ++ [p.hopped m (352 * t)] }) p) p

/-- Fens that have something to do in a tick. -/
def Pkg.activeFens (p : Pkg) : List Nat :=
  let regs := p.regs.filterMap fun r => match Blk.locate r.1 with | some (.fen, i, _) => some i | _ => none
  let route := p.mesh.filterMap fun m => match m.route with | (a, _) :: _ => p.physOf a | [] => none
  (p.fens.map Prod.fst ++ p.job.starts.map Prod.fst ++ p.planFens ++ regs ++ route).eraseDups.filter p.clocked

/-- TICKS (R533) on every page whose counters are set. -/
def Pkg.countTicks (p : Pkg) : Pkg :=
  let pages := p.regs.filterMap fun r =>
    match Blk.locate r.1 with | some (b, i, o) => if 0x0C0 ≤ o ∧ o < 0x100 then some (b, i) else none | none => none
  pages.eraseDups.foldl (fun (p : Pkg) z => p.perf z.1 z.2 0x001 1 none) p

/-- A step of the running plan begins in this tick (R37, R58). -/
def Pkg.stepTurn (p : Pkg) : Pkg :=
  match p.job.cur with
  | some c =>
    let d := p.refCount - p.job.start
    let p := if p.planRuns && decide (d % max 1 c.img.stepTicks = 0) then p.bellPulse else p
    if p.planRuns && decide (0 < d) && decide (d % max 1 c.img.stepTicks = 0) then
      p.stepBegins (c.stepBase + d / max 1 c.img.stepTicks)
    else p
  | none => p

/-- One reference tick. In DEEP only the free-running counter of TB0 counts (R520, R526); a dark package does nothing. -/
def Pkg.refTick (p : Pkg) : Pkg :=
  if !p.on then p
  else if p.power.state = 3 then { p with fresh := [], bell := { p.bell with raw := p.bellEdge.bell.raw, rawFrac := p.bellEdge.bell.rawFrac } }
  else
    let p := ({ p with fresh := [] } : Pkg).bellEdge.countTicks.stepTurn
    let fs := p.activeFens
    let p := (fs.foldl Pkg.retsArrive ((p.fenEdges fs).reqsArrive)).holeGo
    let p := (List.range 4).foldl Pkg.sampTick p
    (List.range 16).foldl Pkg.placeTransits p

end Sys2Proof.Machine
end

