-- ==== Sys2Proof/Machine/Step.lean ====
section
/-! DEFINITION. One step of the block: the command at the front of the queue, or one reference tick when none waits
(DESIGN CHOICE, log entry 1); and the placing of a command in front of the queue. -/
namespace Sys2Proof.Machine

open Sys2Proof

/-- A step: take the command that has waited longest and run it on the state without it; with no command waiting, one
reference tick passes (R64, R97). -/
def step (s : State) : Host.Outcome State Fault Refusal :=
  match s.pending with
  | c :: r => exec c { s with pending := r }
  | [] => .next { s with pkg := s.pkg.refTick, bursar := s.bursar.pass }

/-- The command that a table word spells, in front of the queue; `s` where the word spells none. -/
def State.withFetchWord (s : State) (nbits w : Nat) : State :=
  match decodeTableWord nbits w with
  | some c => { s with pending := c :: s.pending }
  | none => s

end Sys2Proof.Machine
end

