-- ==== Sys2Proof/Safety.lean ====
section
/-! DEFINITION. What counts as a safe run, and the words that claims use: a command has an effect, a change touches
registers and the event queue alone. -/
namespace Sys2Proof.Machine

open Sys2Proof

/-- A step answers a next state. -/
def Runs (s : State) : Prop := ∃ t, step s = .next t

/-- `n` steps all answer a next state. -/
def SafeFor : Nat → State → Prop
  | 0, _ => True
  | n + 1, s => ∃ t, step s = .next t ∧ SafeFor n t

/-- The command answers a next state of which `P` holds. -/
def Does (c : Instr) (s : State) (P : State → Prop) : Prop := ∃ t, exec c s = .next t ∧ P t

/-- The two packages differ in registers and what the present tick has set in them, event queue, interrupt state and raised
vectors at most: what logging and counting may touch (R15, R492, R530, R564, R565). -/
def Pkg.SameButLog (p q : Pkg) : Prop :=
  q = { p with regs := q.regs, evq := q.evq, evLost := q.evLost, irqSum := q.irqSum,
               careIrq := q.careIrq, fresh := q.fresh, host := { p.host with msix := q.host.msix } }

/-- The last event entered into the event queue is of code `code` at block `b`, instance `i` (R492, R500). -/
def Pkg.lastEv (p : Pkg) (b : Blk) (i code : Nat) : Prop :=
  ∃ e, p.evq.getLast? = some e ∧ e.block = b.base i / 0x4000 ∧ e.code = code

/-- The event queue has room (R500). -/
def Pkg.evRoom (p : Pkg) : Prop := p.evq.length < 4096

/-- An event of that code at that block has been entered behind those of `p`, which are kept (R500). -/
def Pkg.logged (p q : Pkg) (b : Blk) (i code : Nat) : Prop :=
  ∃ l e, q.evq = p.evq ++ l ∧ e ∈ l ∧ e.block = b.base i / 0x4000 ∧ e.code = code

/-! Frames. -/

/-- BAR0 offsets that logging and counting may write: INT_RAW, ERR_COUNT, ERR_FIRST, ERR_LAST, the performance counters
and their controls of any page, and CARE.STAT.LOG_LOST (R492, R500, R529). -/
def isLogReg (a : Nat) : Bool :=
  let o := a % 0x4000
  decide (o = 0x020) || decide (o = 0x038) || decide (o = 0x040) || decide (o = 0x048) ||
  (decide (0x080 ≤ o) && decide (o < 0x100)) || decide (a = Blk.base .care 0 + F.careStatLogLost.off)

/-- Registers that neither log nor count and are not listed hold what they held. -/
def Pkg.KeepRegs (p q : Pkg) (ws : List Nat) : Prop :=
  ∀ a, isLogReg a = false → a ∉ ws → AMap.find? q.regs a = AMap.find? p.regs a

/-- BAR0 offset of a field's register. -/
def Fld.at_ (f : Fld) (i : Nat) : Nat := f.blk.base i + f.off

/-- What a frame lets change: fens, samplers, Markbooks by number; registers by BAR0 offset. -/
structure Reach where
  fens : List Nat := []
  samps : List Nat := []
  marks : List Nat := []
  regs : List Nat := []

/-- Beyond the log, the counters and what is listed, nothing of the package has changed. `r` gives the fields that are
replaced as a whole. -/
def Pkg.Keeps (p q r : Pkg) (l : Reach) : Prop :=
  (∀ j, j ∉ l.fens → q.fen j = p.fen j) ∧ (∀ d, d ∉ l.samps → q.samp d = p.samp d) ∧
  (∀ d, d ∉ l.marks → q.mark d = p.mark d) ∧ p.KeepRegs q l.regs ∧
  Pkg.SameButLog { r with fens := q.fens, samps := q.samps, marks := q.marks } q

/-- ERR_COUNT, ERR_FIRST, ERR_LAST and INT_RAW.ANY of a block after one more event there (R492, R564). -/
def Pkg.ErrRegs (p q : Pkg) (b : Blk) (i code time info : Nat) : Prop :=
  let n := bits (p.reg b i 0x038) 31 0
  let w : W64 := BitVec.ofNat 64 (code % 2 ^ 12 + info % 2 ^ 20 * 2 ^ 12 + time % 2 ^ 32 * 2 ^ 32)
  bits (q.reg b i 0x038) 31 0 = min (n + 1) (2 ^ 32 - 1) ∧
  q.reg b i 0x048 = w ∧ q.reg b i 0x040 = (if n = 0 then w else p.reg b i 0x040) ∧ bit (q.reg b i 0x020) 0 = true

/-- The event as it stands in the event queue (R500). -/
def Pkg.isEvent (p : Pkg) (b : Blk) (i code time info : Nat) (e : Ev) : Prop :=
  e = { time := time, block := b.base i / 0x4000, code := code, info := info % 2 ^ 20, irq := e.irq, lost := decide (p.evLost ≠ 0) }

/-- One event has been logged, and no other (R492, R500). -/
def Pkg.Logged (p q : Pkg) (b : Blk) (i code time info : Nat) : Prop :=
  p.ErrRegs q b i code time info ∧
  (p.evRoom → ∃ e, q.evq = p.evq ++ [e] ∧ p.isEvent b i code time info e)

/-- One event has been logged at the block; events of other blocks may follow it. -/
def Pkg.LoggedFirst (p q : Pkg) (b : Blk) (i code time info : Nat) : Prop :=
  p.ErrRegs q b i code time info ∧
  (p.evRoom → ∃ e l, q.evq = p.evq ++ e :: l ∧ p.isEvent b i code time info e)

/-! The Proctor. -/

/-- The Proctor of fen `f` executes an instruction of major opcode `k` now, in context `x` (R182, R184). -/
def Pkg.Issues (p : Pkg) (f k : Nat) (x : PCtx) : Prop :=
  p.on = true ∧ p.pFetch f = some x ∧ x.op = k ∧ x.pc ∉ x.x.icache.bad

/-- pc and loop stack after an instruction at `pc` that completes without transferring control (R190). -/
def loopNext (ls : List LoopEnt) (pc : Nat) : Nat × List LoopEnt :=
  match ls with
  | [] => ((pc + 8) % 2 ^ 20, [])
  | e :: r =>
    if e.stop ≠ pc then ((pc + 8) % 2 ^ 20, e :: r)
    else if e.remaining.toNat ≤ 1 then ((pc + 8) % 2 ^ 20, r)
    else (e.start, { e with remaining := e.remaining - 1#64, index := e.index + 1#64 } :: r)

/-- The instruction has completed in one tick: its result is in DST (g0 discards it), the other general registers are as
before, pc and loop stack are those of R190, the next instruction may issue in the next tick (R181, R182). `y` is the
Proctor with the instruction's other effects, `r` the package with what it
replaces elsewhere, `l` the registers and samplers it writes besides. -/
def PCtx.Done (c : PCtx) (p q r : Pkg) (v : Option W64) (y : Proctor) (l : Reach := {}) : Prop :=
  let z := (q.fen c.f).proc
  (∀ n, z.greg n = if n = 0 then 0#64 else if n = c.dst then v.getD (y.greg n) else y.greg n) ∧
  z = { y with g := z.g, pc := (loopNext y.loops c.pc).1, loops := (loopNext y.loops c.pc).2, st := .run,
               ready := c.l + 1, waitB := none, icache := y.icache.touch (c.pc / 64) } ∧
  q.fen c.f = { r.fen c.f with proc := z } ∧
  p.Keeps q r { l with fens := [c.f], marks := [c.f / 72] }

/-- The instruction has transferred control to `pc`, which takes two ticks (R182). -/
def PCtx.Jumped (c : PCtx) (p q : Pkg) (v : Option W64) (y : Proctor) (pc : Nat) : Prop :=
  let z := (q.fen c.f).proc
  (∀ n, z.greg n = if n = 0 then 0#64 else if n = c.dst then v.getD (y.greg n) else y.greg n) ∧
  z = { y with g := z.g, pc := pc % 2 ^ 20, st := .run, ready := c.l + 2, icache := y.icache.touch (c.pc / 64) } ∧
  q.fen c.f = { p.fen c.f with proc := z } ∧ p.Keeps q p { fens := [c.f], marks := [c.f / 72] }

/-- The instruction has been skipped under R199, with the event `code`: pc + 8 and no other effect on the Proctor; the
event with the pc and the local tick; ILLEGAL counted; the step defective, and its requests reported. -/
def PCtx.Skipped (c : PCtx) (p q : Pkg) (code : Nat) : Prop :=
  q.fen c.f = { p.fen c.f with
      proc := { c.x with pc := (c.pc + 8) % 2 ^ 20, st := .run, ready := c.l + 1, waitB := none,
                         icache := c.x.icache.touch (c.pc / 64) } } ∧
  q.fget F.fenProcStatIllegal c.f = satAdd (F.fenProcStatIllegal.hi + 1 - F.fenProcStatIllegal.lo)
      (p.fget F.fenProcStatIllegal c.f) 1 ∧
  p.Logged q .fen c.f code c.l (c.pc % 2 ^ 20) ∧
  (p.job.cur.isSome = true → p.job.start ≤ c.l → p.planRuns = true →
      ((q.dig.steps.getD (p.stepOf c.l) .init).defect).isSome = true ∧ (none, code, p.stepOf c.l) ∈ q.dig.reports) ∧
  p.Keeps q { p with dig := q.dig }
    { fens := [c.f], marks := [c.f / 72], regs := [F.fenProcStatIllegal.at_ c.f] }

/-- A number as a 64-bit word, and a signed one. -/
def w64 (n : Nat) : W64 := BitVec.ofNat 64 n
def i64 (n : Int) : W64 := BitVec.ofInt 64 n

/-- Fen and major opcode of the integer and address rows of the Proctor (R185, R186, R189). -/
def valueRow : Instr → Option (Fin 288 × Nat)
  | .add f => some (f, 0x00) | .sub f => some (f, 0x01) | .and_ f => some (f, 0x02) | .or_ f => some (f, 0x03)
  | .xor f => some (f, 0x04) | .shl f => some (f, 0x05) | .shr f => some (f, 0x06) | .sra f => some (f, 0x07)
  | .mul f => some (f, 0x08) | .addi f => some (f, 0x09) | .andi f => some (f, 0x0A) | .ldi f => some (f, 0x0B)
  | .ldhi f => some (f, 0x0C) | .cmp f => some (f, 0x0D) | .minmax f => some (f, 0x0E) | .bfx f => some (f, 0x0F)
  | .agcur f => some (f, 0x10) | .agat f => some (f, 0x14) | .lidx f => some (f, 0x1C) | .ins f => some (f, 0x25)
  | _ => none

/-- The condition of CMP and BR (R185); none for 6 and 7. -/
def holdsCond (k : Nat) (a b : W64) : Option Bool :=
  match k with
  | 0 => some (a.toNat == b.toNat)
  | 1 => some (a.toNat != b.toNat)
  | 2 => some (decide (a.toInt < b.toInt))
  | 3 => some (decide (b.toInt ≤ a.toInt))
  | 4 => some (decide (a.toNat < b.toNat))
  | 5 => some (decide (b.toNat ≤ a.toNat))
  | _ => none

/-- The sum of a base and of strides, modulo 2^64 (R186). -/
def strides (d : Desc) (i0 i1 i2 : Int) : W64 :=
  i64 (d.base.toNat + i0 * sx 32 (bits d.str01 31 0) + i1 * sx 32 (bits d.str01 63 32) + i2 * sx 32 (bits d.str2 31 0))

/-- What the rows of `valueRow` write into DST, in exact arithmetic (R185, R186, R187, R189); none: illegal. -/
def valueOf (k : Nat) (c : PCtx) : Option W64 :=
  let a := c.a.toNat
  let b := c.b.toNat
  let sh := b % 64
  let pos := c.fb 5 0
  let len := c.fb 12 6
  let d := c.x.dsc (c.fb 2 0)
  match k with
  | 0x00 => some (w64 (a + b))
  | 0x01 => some (i64 ((a : Int) - b))
  | 0x02 => some (w64 (a &&& b))
  | 0x03 => some (w64 (a ||| b))
  | 0x04 => some (w64 (a ^^^ b))
  | 0x05 => some (w64 (a * 2 ^ sh))
  | 0x06 => some (w64 (a / 2 ^ sh))
  | 0x07 => some (i64 (c.a.toInt / (2 ^ sh : Nat)))
  | 0x08 => some (w64 (a * b))
  | 0x09 => some (i64 (a + sx 43 (c.fb 42 0)))
  | 0x0A => some (w64 (a &&& c.fb 42 0))
  | 0x0B => some (i64 (sx 43 (c.fb 42 0)))
  | 0x0C => some (w64 (c.fb 31 0 * 2 ^ 32 + a % 2 ^ 32))
  | 0x0D => (holdsCond (c.fb 2 0) c.a c.b).map fun h => if h then 1#64 else 0#64
  | 0x0E => some (match c.fb 1 0 with
      | 0 => i64 (min c.a.toInt c.b.toInt)
      | 1 => i64 (max c.a.toInt c.b.toInt)
      | 2 => w64 (min a b)
      | _ => w64 (max a b))
  | 0x0F => if len = 0 ∨ 64 < pos + len then none else some (w64 (a / 2 ^ pos % 2 ^ len))
  | 0x10 => some (strides d (bits d.idx 15 0) (bits d.idx 31 16) (bits d.idx 47 32))
  | 0x14 => some (strides d a b 0)
  | 0x1C => (c.x.loops[c.fb 1 0]?).map LoopEnt.index
  | 0x25 => if len = 0 ∨ 64 < pos + len then none
      else some (w64 (a % 2 ^ pos + b % 2 ^ len * 2 ^ pos + a / 2 ^ (pos + len) * 2 ^ (pos + len)))
  | _ => none

/-- Fen, major opcode and queue of the PUSH rows (R189). -/
def pushRowOf : Instr → Option (Fin 288 × Nat × Station)
  | .pushTe f => some (f, 0x20, .te) | .pushVe f => some (f, 0x21, .ve) | .pushSm f => some (f, 0x22, .sm)
  | .pushLx f => some (f, 0x23, .lx) | .pushSamp f => some (f, 0x24, .samp)
  | _ => none

/-- Fen and major opcode of the rows of the CSR writes, with what they make of the old value and src1 (R193). -/
def csrRowOf : Instr → Option (Fin 288 × Nat × (W64 → W64 → W64))
  | .csrw f => some (f, 0x31, fun _ a => a) | .csrs f => some (f, 0x32, fun o a => o ||| a)
  | .csrc f => some (f, 0x33, fun o a => o &&& ~~~a)
  | _ => none

/-- CSRs that software may write (R183). -/
def csrRw (n : Nat) : Bool := n = 0x001 || n = 0x00A || n = 0x00B || (decide (0x040 ≤ n) && decide (n < 0x080) && decide (n % 8 ≤ 4))

/-- The value of a CSR (R183); none for a number not in the table. -/
def csrValue (p : Pkg) (c : PCtx) (x : Proctor) : Nat → Option W64
  | 0x000 => some (w64 c.pc) | 0x001 => some x.tb | 0x002 => some x.ep | 0x003 => some (w64 c.l)
  | 0x004 => some x.ct | 0x005 => some x.csr.stepTicks | 0x006 => some x.csr.startTick
  | 0x007 => some (w64 (p.stepNo c.l)) | 0x008 => some x.csr.selfFen | 0x009 => some x.csr.selfRank
  | 0x00A => some x.csr.entry | 0x00B => some x.csr.resume | 0x00C => some (w64 x.loops.length)
  | 0x010 => some x.csr.dramBase | 0x011 => some x.csr.peatBase | 0x012 => some x.csr.adapterBase
  | n =>
    if n < 0x040 ∨ 0x080 ≤ n then none
    else
      let d := x.dsc ((n - 0x040) / 8)
      match n % 8 with
      | 0 => some d.base | 1 => some d.str01 | 2 => some d.str2 | 3 => some d.cnt | 4 => some d.idx | _ => none

/-- The fen of a Proctor row, for what any of them does with an instruction that is illegal as such. -/
def procRowOf (c : Instr) : Option (Fin 288) :=
  match valueRow c, pushRowOf c, csrRowOf c with
  | some r, _, _ => some r.1
  | _, some r, _ => some r.1
  | _, _, some r => some r.1
  | _, _, _ =>
    match c with
    | .agnext f => some f | .agrst f => some f | .agbase f => some f | .br f => some f | .jal f => some f
    | .jr f => some f | .loop f => some f | .break_ f => some f | .step f => some f | .waitt f => some f
    | .waits f => some f | .waitb f => some f | .csrr f => some f | .epoch f => some f | .tbset f => some f
    | .cover f => some f | _ => none

/-! Stations. -/

/-- Fen, station and opcode of the station rows (R145, R155 to R167, R277). -/
def stationRowOf : Instr → Option (Fin 288 × Station × Nat)
  | .teLda f => some (f, .te, 0x01) | .teLdb f => some (f, .te, 0x02) | .teMac f => some (f, .te, 0x03)
  | .teDrain f => some (f, .te, 0x04) | .teAddw f => some (f, .te, 0x05) | .teClr f => some (f, .te, 0x06)
  | .veLd f => some (f, .ve, 0x20) | .veSt f => some (f, .ve, 0x21) | .veImm f => some (f, .ve, 0x22)
  | .veFadd f => some (f, .ve, 0x28) | .veFsub f => some (f, .ve, 0x29) | .veFmul f => some (f, .ve, 0x2A)
  | .veFfma f => some (f, .ve, 0x2B) | .veFmin f => some (f, .ve, 0x2C) | .veFmax f => some (f, .ve, 0x2D)
  | .veFneg f => some (f, .ve, 0x2E) | .veFabs f => some (f, .ve, 0x2F) | .veFbcast f => some (f, .ve, 0x30)
  | .veFmask f => some (f, .ve, 0x31) | .veExp2 f => some (f, .ve, 0x38) | .veLog2 f => some (f, .ve, 0x39)
  | .veRcp f => some (f, .ve, 0x3A) | .veRsqrt f => some (f, .ve, 0x3B) | .veTanh f => some (f, .ve, 0x3C)
  | .veGelu f => some (f, .ve, 0x3D) | .veSilu f => some (f, .ve, 0x3E) | .veRsum f => some (f, .ve, 0x40)
  | .veRmax f => some (f, .ve, 0x41) | .veRmin f => some (f, .ve, 0x42) | .veAadd f => some (f, .ve, 0x43)
  | .veAst f => some (f, .ve, 0x44) | .veArnd f => some (f, .ve, 0x45) | .veAclr f => some (f, .ve, 0x46)
  | .smCopy f => some (f, .sm, 0x80) | .smSend f => some (f, .sm, 0x81) | .smSlrd f => some (f, .sm, 0x84)
  | .smSlput f => some (f, .sm, 0x85) | .smSlwr f => some (f, .sm, 0x86) | .lxHdr f => some (f, .lx, 0xE0)
  | _ => none

/-- Result lane `i` of a VE element, function, maximum or broadcast command, from its source registers (R160, R161, R163);
none for the other commands. -/
def veLaneOf (w : W128) (v : Ve) (i : Nat) : Option W32 :=
  let a (n : Nat) : W32 := (v.reg (veA w)).all.getD n 0#32
  let b (n : Nat) : W32 := (v.reg (veB w)).all.getD n 0#32
  let c (n : Nat) : W32 := (v.reg (veC w)).all.getD n 0#32
  match opOf w with
  | 0x22 => some (veValue w)
  | 0x28 => some (fadd (a i) (b i))
  | 0x29 => some (fsub (a i) (b i))
  | 0x2A => some (fmul (a i) (b i))
  | 0x2B => some (ffma (a i) (b i) (c i))
  | 0x2C => some (fmin (a i) (b i))
  | 0x2D => some (fmax (a i) (b i))
  | 0x2E => some (fneg (a i))
  | 0x2F => some (fabs (a i))
  | 0x30 => some (a (veLane w))
  | 0x31 => some (if vePosLimit w ≤ vePosBase w + i then 0xFF800000#32 else a i)
  | 0x38 => some (exp2 (a i))
  | 0x39 => some (log2f (a i))
  | 0x3A => some (rcp (a i))
  | 0x3B => some (rsqrt (a i))
  | 0x3C => some (tanhf (a i))
  | 0x3D => some (gelu (a i))
  | 0x3E => some (silu (a i))
  | 0x41 => some ((List.range 256).foldl (fun m n => fmax m (a n)) (b 0))
  | 0x42 => some ((List.range 256).foldl (fun m n => fmin m (a n)) (b 0))
  | 0x45 => some ((v.ac (veAd w)).acc.to32)
  | _ => none

/-- The head of a station's queue is a legal command of opcode `k` whose tick has come and which nothing holds
(R46, R146). -/
def Pkg.HeadStarts (p : Pkg) (f : Nat) (st : Station) (k : Nat) (q : QCmd) (r : List QCmd) : Prop :=
  p.on = true ∧ (p.fen f).queue st = q :: r ∧ opOf q.word = k ∧ p.legal f st q.word = true ∧
  p.isDue q (p.local_ f) = true ∧ p.canStart f st q (p.local_ f) = true

/-! The block: queue, idle step, isolation. -/

/-- Commands that act on the Bursar (R510 to R519, R588). -/
def bursarCmd : Instr → Bool
  | .bursarTagFrame _ | .bursarInterval | .bursarPowerFail _ | .bursarPowerOn | .bursarSelect _ | .timeMark _ | .calData _ _
  | .calCommit _ _ | .sealChange _ | .senseFault _ _ | .tagInvalid _ | .vauxLoss _ => true
  | _ => false

/-! The Proctor. -/

/-- The indexes of a descriptor after an advance: three comparisons, each at or above the count (R186); a count of 0 is
65,536 (R183). -/
def advanced (d : Desc) : Nat × Nat × Nat :=
  let n (v : Nat) : Nat := if v = 0 then 65536 else v
  let i0 := bits d.idx 15 0 + 1
  let (i0, i1) := if n (bits d.cnt 15 0) ≤ i0 then (0, bits d.idx 31 16 + 1) else (i0, bits d.idx 31 16)
  let (i1, i2) := if n (bits d.cnt 31 16) ≤ i1 then (0, bits d.idx 47 32 + 1) else (i1, bits d.idx 47 32)
  (i0, i1, if n (bits d.cnt 47 32) ≤ i2 then 0 else i2)

/-- The Proctor `y` is `x` but for descriptor `i`, whose BASE and IDX alone may differ. -/
def sameButDesc (x y : Proctor) (i : Nat) : Prop :=
  y = { x with desc := y.desc } ∧ (∀ j, j ≠ i → y.dsc j = x.dsc j) ∧
  y.dsc i = { x.dsc i with base := (y.dsc i).base, idx := (y.dsc i).idx }

/-- Target of a branch: pc + 8 × sext(FI[31:0]), in the 20 bits of pc (R187, R181). -/
def branchTarget (x : PCtx) : Nat := wrapNat 20 (x.pc + 8 * sx 32 (x.fb 31 0))

/-- The word a push builds (R144, R189). -/
def pushedWord (x : PCtx) (w : W128) : Prop :=
  bits w 127 120 = bits x.a 63 56 ∧ bits w 119 96 = (bits x.a 55 32 + x.fb 23 0) % 2 ^ 24 ∧
  bits w 95 88 = x.x.ep.toNat % 256 ∧ bits w 87 64 = bits x.a 23 0 ∧ bits w 63 0 = x.b.toNat

/-! The stations. -/

/-- The first entry of a sampler's queue whose tick has come (R168). -/
def Pkg.drawDue (p : Pkg) (d : Nat) : Option QCmd := (p.samp d).queue.find? fun q => p.isDue q p.refCount

/-! Mesh, slab port, Dredge, sluices and memories. -/

/-- No cell of the slab is stuck. -/
def Pkg.goodCells (p : Pkg) (f : Nat) : Prop := (p.fen f).slab.stuck = []

/-- Bytes of slab `f` after a write of `n` bytes at `a`: `new i` inside, as before outside, as a quiet observer sees them. -/
def Pkg.slabBecomes (p q : Pkg) (f a n : Nat) (new : Nat → Option Byte) : Prop :=
  (∀ i, i < n → q.slabPeek f (a + i) = new i) ∧
  (∀ b, b < slabBytes → (b < a ∨ a + n ≤ b) → q.slabPeek f b = p.slabPeek f b)

/-- Flit `i` of the mesh stands before fen `f`, in its turn, and nothing holds it but its epoch (R75, R147, R303). -/
def Pkg.flitReady (p : Pkg) (i : Nat) (m : MFlit) (l f : Nat) : Prop :=
  p.on = true ∧ p.mesh[i]? = some m ∧ p.inOrder i m = true ∧ m.there p.refCount = true ∧ m.dst = .fen l ∧ p.physOf l = some f ∧
  m.arr ≤ p.local_ f ∧ (p.fen f).hard = false ∧ p.localOut f (p.local_ f) m = true

/-- A planned read of the flit's beat has not been made (R147). -/
def Pkg.readPending' (p : Pkg) (f : Nat) (m : MFlit) : Bool :=
  p.readPending f (m.addr / 512 * 512) m.arr (p.local_ f + b2n (p.fen f).clk.heldNow) none

/-- What a port-B write makes of a byte (R217). -/
def pbByte (k : PbKind) (old new : Byte) : Byte :=
  match k with
  | .bitSet => old ||| new
  | .bitClear => old &&& ~~~new
  | _ => new

/-- The access that port B performs now in a fen: the one granted the present tick (R212, R213). -/
def Pkg.pbNow (p : Pkg) (f i : Nat) (r : PbReq) : Prop :=
  p.on = true ∧ (p.fen f).slab.pb[i]? = some r ∧ r.grant = some (p.local_ f) ∧
  (∀ j x, j < i → (p.fen f).slab.pb[j]? = some x → x.grant ≠ some (p.local_ f))

/-- Port A has an access in the present tick of the fen (R209). -/
def Pkg.paNow (p : Pkg) (f : Nat) : Bool := p.paKnown f (p.local_ f) || decide ((p.fen f).pa ≠ 0)

/-- The port-B accesses of a window request: one per beat it touches, in ascending order (R217). -/
def windowReqs (m : PbMaster) (k : PbKind) (addr n now : Nat) (be : List Bool) (data : List Byte) : List PbReq :=
  (beatRuns addr n).map fun r =>
    { pbReq m k r.1 r.2 with issued := now, be := (be.drop (r.1 - addr)).take r.2, data := (data.drop (r.1 - addr)).take r.2 }

/-- The `i`-th atom on its way back to a sluice that carries read data (`wr` false) or a write acceptance. -/
def Pkg.nthReturn (p : Pkg) (wr : Bool) (i : Nat) : Option (DRet × Nat) :=
  (p.dram.returns.zipIdx.filter fun x => x.1.write == wr && (wr || decide (x.1.slu < 4)))[i]?

/-- Request `i` of stack `st` may be served: no older one waits for its planning bank, the bank is not under refresh, and
the stack is up (R245, R246). -/
def Pkg.dramFree (p : Pkg) (st i k : Nat) (r : DReq) : Prop :=
  nthReq (fun r => decide (r.cls = 0) && decide (nbits r.addr 38 36 = st)) p.dram.queue i = some (k, r) ∧
  (∀ z ∈ p.dram.queue.take k, z.cls = 0 → nbits z.addr 38 36 = st → (sdramMap z.addr).bank ≠ (sdramMap r.addr).bank) ∧
  (p.stack st).selfRefresh = false ∧ (p.stack st).up = true ∧
  (p.stack st).refresh.getD (sdramMap r.addr).win 0 ≤ p.refCount

/-- The atom `x` that answers request `k` leaves its attachment for logical fen `l`, with the atoms of its request that wait
there, when they are four or no more are to come; else it waits too (R244). -/
def Pkg.goesBack (p q : Pkg) (k : Nat) (r : DReq) (l : Nat) (x : DRet) : Prop :=
  let d := p.attachOf l r.cls r.addr
  let own (z : FlitDst × DRet) : Bool := decide (z.1 = d) && z.2.same x
  let mine := (p.dram.out.filter own).map Prod.snd ++ [x]
  let more := (dropAt p.dram.queue k).any fun z => !z.write && decide (z.fen = r.fen) && decide (z.slu = r.slu) && decide (z.ent = r.ent) &&
    decide (p.attachOf l z.cls z.addr = d)
  if mine.length < 4 ∧ more = true then q.dram.out = p.dram.out ++ [(d, x)] ∧ q.mesh = p.mesh
  else q.dram.out = p.dram.out.filter (fun z => !own z) ∧
    ∃ m, q.mesh = p.mesh ++ [m] ∧ m.rets = mine ∧ m.dst = .slu l ∧ m.vc = 2

/-- The router at the attachment of a request is no hole of the mesh. -/
def Pkg.attachFits (p : Pkg) (l : Nat) (r : DReq) : Prop :=
  ∀ side c, p.attachOf l r.cls r.addr = .mem side c → (p.physOf (memAt p.meshW side c)).isSome = true

/-! Issyn links. -/

/-- Beyond the log and the counters, the fields `l` of instance `i` and what `r` replaces, nothing has changed; the other
bits of the registers of `l` are as before. -/
def Pkg.Only (p q r : Pkg) (i : Nat) (l : List Fld) : Prop :=
  p.Keeps q r { regs := l.map fun f => f.at_ i } ∧
  ∀ f ∈ l, ∀ k, k < 64 → (∀ g ∈ l, g.at_ i = f.at_ i → k < g.lo ∨ g.hi < k) →
    bit (q.reg f.blk i f.off) k = bit (p.reg f.blk i f.off) k

/-- Port `n` has become `x`, the other ports are as before, and besides only the fields `l` of the port have changed. -/
def Pkg.PortIs (p q : Pkg) (n : Nat) (x : Port) (l : List Fld := []) : Prop :=
  q.port n = x ∧ (∀ j, j ≠ n → q.port j = p.port j) ∧ p.Only q { p with ports := q.ports } n l

/-- A control flit of type `ct` that a port hears in its present state (R274, R286); it carries no ACK. -/
def Pkg.hearsCtl (p : Pkg) (n ct : Nat) (b : List Byte) : Prop :=
  p.on = true ∧ p.power.state < 2 ∧ flitGood b = true ∧ flitKind b = 1 ∧ flitCtype b = ct ∧ flitAckValid b = false ∧
  ((p.port n).state = .up ∨ ((p.port n).state = .train ∧ (ct = 4 ∨ ct = 5)) ∨
   (((p.port n).state = .identify ∨ (p.port n).state = .retrain) ∧ ct = 1))

/-- Physical lane under logical lane `i` of a map field (R265). -/
def Pkg.laneAt (p : Pkg) (n : Nat) (f : Fld) (i : Nat) : Nat := nbits (p.fget f n) (4 * i + 3) (4 * i)

/-- Lane `l` is a usable spare: neither mapped nor failed (R265, R292). -/
def Pkg.spareIs (p : Pkg) (n : Nat) (map failed : Fld) (l : Nat) : Prop :=
  l < 9 ∧ (∀ i, i < 8 → p.laneAt n map i ≠ l) ∧ hasLane (p.fget failed n) l = false

/-! The Bell. -/

/-- A Bell flit of type `ty` that a port hears and takes (R100, R101, R274). -/
def Pkg.bellIn (p : Pkg) (n ty : Nat) (b : List Byte) : Prop :=
  p.hearsCtl n 3 b ∧ p.fenced n = false ∧ p.fget F.issynStatusForeign n = 0 ∧
  flitPart b = p.fget F.issynPartPartId n ∧ leAt (flitPayload b) 0 1 = ty

/-- Base `d` has become `x`, the other base and the rest of the Bell are as before; besides, only the fields `l` and what
`r` replaces have changed. -/
def Pkg.BaseIs (p q r : Pkg) (d : Bool) (x : TBase) (l : List Fld := []) : Prop :=
  q.bell = (p.setTb d x).bell ∧ p.Only q { r with bell := q.bell } 0 l

/-- Arithmetic shift right, and clamping to ±200 ppm (R18, R104). -/
def sar (i : Int) (k : Nat) : Int := i / (2 ^ k : Nat)
def clamp200 (i : Int) : Int := max (-219902325) (min 219902325 i)

/-! Roll, rings, digest log, shadowing. -/

/-- The egress records `es` of one boundary or scan have been handed over: as many records as the ring takes have left the
backlog, in order, and
HEAD has counted them (R343). -/
def Pkg.Egressed (p q : Pkg) (es : List EgRec) : Prop :=
  ∃ n, n ≤ p.roll.backlog.length + es.length ∧
    q.roll.backlog = (p.roll.backlog ++ es.map fun (e : EgRec) => { e with batch := p.roll.batch }).drop n ∧
    q.fget F.rollEgressHead 0 = (p.fget F.rollEgressHead 0 + n) % 2 ^ 32 ∧ (p.egRoom = false → n = 0) ∧
    (n < p.roll.backlog.length + es.length → q.egRoom = false)

/-- Position `i` of the intake area holds a new record, and the firmware scans, in RUN, IDLE or SLEEP (R333, R417, R471,
R520). -/
def Pkg.newIntake (p : Pkg) (i : Nat) : Prop :=
  leAt (p.roll.intake.read (128 * i) 128) 0x7C 4 ≠ 0 ∧
  leAt (p.roll.intake.read (128 * i) 128) 0x7C 4 ≠ p.roll.lastSeq.getD i 0
def Pkg.scanning' (p : Pkg) : Prop := p.on = true ∧ 2 ≤ p.fget F.chipStage 0 ∧ p.power.state < 3 ∧ p.scripted = false

/-- The first row of R335 that turns a SUBMIT away, as cause and value. -/
def Pkg.submitCause (p : Pkg) (r : List Byte) : Option (Nat × Nat) :=
  let ad := p.adapter (leAt r 0x10 2)
  if leAt r 0 1 ≠ 1 ∨ 3 < leAt r 1 1 ∨ 3 < leAt r 2 2 ∨ leAt r 5 3 ≠ 0 ∨ leAt r 0x2F 1 ≠ 0 ∨ leAt r 0x5C 32 ≠ 0 ∨ leAt r 0x38 4 = 0 ∨
      leAt r 0x3C 4 = 0 then some (0x20, 0)
  else
    match p.armAny with
    | none => some (0x21, 0)
    | some a =>
      if homeSlots a = [] then some (0x21, 1)
      else if a.1.maxCtx < leAt r 0x38 4 + leAt r 0x3C 4 then some (0x22, 0)
      else if leAt r 2 2 % 2 = 0 ∧ (ad.current = none ∨ ad.retired = true) then some (0x23, 0)
      else if 16384 ≤ firstFree 0 p.roll.entries then some (0x24, 0)
      else none

/-- An egress record that answers an intake record. -/
def answerRec (kind cause entry i value : Nat) (r : List Byte) : EgRec :=
  { kind := kind, cause := cause, entry := entry, intake := i, hostTag := leAt r 8 8, value := value, pos := 0, vec := leAt r 4 1,
    idx := 0, n := 0 }

/-- ACC_EST to the power k + 1 in units of 2^-16, each product rounded down (R370). -/
def powerEst (est : Nat) : Nat → Nat
  | 0 => est
  | k + 1 => powerEst est k * est / 65536

/-- A management flit for this package that a port takes, of the type in its byte 0 (R273, R275, R318). -/
def Pkg.mgmtIn (p : Pkg) (n ty : Nat) (b : List Byte) : Prop :=
  p.hearsCtl n 6 b ∧ p.fenced n = false ∧ p.fget F.issynStatusForeign n = 0 ∧ flitPart b = p.fget F.issynPartPartId n ∧
  p.mgmtHere b = true ∧ leAt (flitPayload b) 0 1 = ty

/-! Commands of the ROM and the weights. -/

/-- The completion of a command, and the ACCEPTED one that EARLY asks for (R439, R446). -/
def Cmd.cpl (c : Cmd) (status res0 res1 : Nat) : Cpl :=
  { path := c.path, opcode := c.opcode, status := status, tag := c.tag, res0 := res0, res1 := res1, accepted := false,
    msix := bit (BitVec.ofNat 16 c.flags) 0, silent := c.silent }
def Pkg.earlyOf (p : Pkg) (c : Cmd) : List Cpl :=
  if p.part.b0 = true ∧ bit (BitVec.ofNat 16 c.flags) 1 = true then [{ c.cpl 0 0 0 with accepted := true, msix := false }] else []

/-- The completions `es` have been handed over: what waits for the completion ring, its HEAD and what the Caretaker has sent
are what handing them over in that order gives (R437, R439). -/
def Pkg.Handed (p q : Pkg) (es : List Cpl) : Prop :=
  let u := (es.foldl Pkg.complete p).careCompletions
  q.host.cplQ = u.host.cplQ ∧ q.fget F.hostCplHeadIndex 0 = u.fget F.hostCplHeadIndex 0 ∧ q.care.out = u.care.out ∧
  q.care.outQ = u.care.outQ

/-- The command has ended with its FINAL completion; `Ends` after an ACCEPTED one where EARLY asks for it. -/
def Pkg.Answers (p q : Pkg) (c : Cmd) (status res0 res1 : Nat) : Prop :=
  (∀ x ∈ q.host.running, x.no ≠ c.no) ∧ p.Handed q [c.cpl status res0 res1]
def Pkg.Ends (p q : Pkg) (c : Cmd) (res0 res1 : Nat) : Prop :=
  (∀ x ∈ q.host.running, x.no ≠ c.no) ∧ p.Handed q (p.earlyOf c ++ [c.cpl 0 res0 res1])
/-- The command goes on until its event. -/
def Pkg.GoesOn (p q : Pkg) (c : Cmd) : Prop := q.host.running = p.host.running ++ [c] ∧ p.Handed q (p.earlyOf c)

/-- What a command changes besides its effect: its path and its counters. -/
def Pkg.ByCommand (p q r : Pkg) (l : List Nat := []) : Prop :=
  p.Keeps q { r with host := q.host, care := { r.care with out := q.care.out, outQ := q.care.outQ, nextTag := q.care.nextTag,
                                                            unacked := q.care.unacked } }
    { regs := [F.hostStatRefused.at_ 0, F.hostCplHeadIndex.at_ 0] ++ l }

/-- Refused: the command has ended with its status and nothing else has happened. -/
def Pkg.Refuses (p q : Pkg) (c : Cmd) (status res0 res1 : Nat) : Prop := p.Answers q c status res0 res1 ∧ p.ByCommand q p

/-- The oldest taken record has the opcode `op` and may run now (R435, R523); `l` are the others. -/
def Pkg.Front (p : Pkg) (op : Nat) (c : Cmd) (l : List Cmd) : Prop :=
  p.on = true ∧ p.host.taken = c :: l ∧ c.opcode = op ∧ p.mayRun c = true
/-- It has no reserved byte or flag set (R444). -/
def Pkg.Clean (p : Pkg) (op : Nat) (c : Cmd) (l : List Cmd) : Prop := p.Front op c l ∧ p.recordBad c = false

/-- Opcode of the command rows, and whether the ROM runs the command one at a time with its group (R441, R444). -/
def romRow : Instr → Option (Nat × Bool)
  | .identify => some (0x0001, false) | .loadPlan => some (0x0010, true) | .relocate => some (0x0011, true)
  | .startAt => some (0x0013, false) | .disarm => some (0x0014, false) | .loadWeights => some (0x0020, false)
  | .switchWeightsAt => some (0x0021, false) | .adapterPut => some (0x0030, false) | .adapterRetire => some (0x0031, false)
  | .keyInstall => some (0x0040, false) | .replay => some (0x0050, false) | .digestRead => some (0x0051, false)
  | .shadowBegin => some (0x0058, true) | .shadowEnd => some (0x0059, false) | .timeRebase => some (0x0060, true)
  | .perfConfig => some (0x0070, false) | .logRead => some (0x0071, false) | .powerState => some (0x0080, false) | _ => none

/-! Plans and their start. -/

/-- The checks that an ARM record without hops passes at once (R453, R455): `n` is the relocated plan, `h` the home list. -/
def Pkg.ArmFit (p : Pkg) (c : Cmd) (h : List Byte) (n : PlanInst) : Prop :=
  c.le 0x38 2 = 0 ∧ c.le 0x10 8 ∉ p.liveJobs ∧ p.groupBusy = false ∧ p.job.state = 2 ∧ p.job.next = some n ∧ n.wset = none ∧
  (n.img.single = true ∨ 5 ≤ p.fget F.chipStage 0) ∧ 1 ≤ c.le 0x28 2 ∧ c.le 0x28 2 ≤ 1024 ∧ c.le 0x2B 1 ≤ 8 ∧
  p.input (c.le 0x30 8) (2 * c.le 0x28 2) 1 = .ok h ∧ ∀ r ∈ homeRanks h, r < n.img.rankCount

/-- The plan is armed: what the record says stands beside it, the ready digest in its registers, the command has ended
(R455, R456, R457). -/
def Pkg.ArmedBy (p q : Pkg) (c : Cmd) (h : List Byte) (n : PlanInst) : Prop :=
  let d := readyDigest n c h
  q.job = { p.job with
    state := 4, arming := none, ready := d,
    next := some { n with
      filled := false,
      arm := some { jobId := c.le 0x10 8, dkey := sliceB c.rec_ 0x18 16, batchSlots := c.le 0x28 2, drainSteps := c.le 0x2A 1,
                    specMax := c.le 0x2B 1, maxCtx := c.le 0x2C 4, home := homeRanks h, params := sliceB c.rec_ 0x28 8 } } } ∧
  q.fget F.jobReady0DigestLo 0 = leAt d 0 8 ∧ q.fget F.jobReady1DigestHi 0 = leAt d 8 8 ∧ (∀ x ∈ q.host.running, x.no ≠ c.no) ∧
  p.ErrRegs q .job 0 0x00E0 p.bell.tb2.count 0 ∧ q.fens = p.fens ∧ q.bell = p.bell

/-- What a fit ARM does: it waits while a stack is in training; else it is ready where the weight set and TB2 are. -/
def Pkg.ArmActs (p q : Pkg) (c : Cmd) (h : List Byte) (n : PlanInst) : Prop :=
  (p.training.isSome = true → q.job = { p.job with state := 3, arming := some (c, h) } ∧ q.host.running = p.host.running ++ [c] ∧
    q.fens = p.fens ∧ q.wgt = p.wgt) ∧
  (∀ i, p.training = none → p.refreshOk n.img n.tab.refresh = true → p.armSet n = some i → p.tb2Ready = true →
    p.ArmedBy q c h { n with wset := some i })

/-- No command of this opcode goes on. -/
def Pkg.noneRuns (p : Pkg) (op : Nat) : Prop := ∀ x ∈ p.host.running, x.opcode ≠ op

/-! Other commands, power, host access, reset. -/

/-- A command that wrote bytes into host memory has ended: with the completion ring off, host memory holds them and is
otherwise as before (R445, R501, R413). -/
def Pkg.Delivers (p q : Pkg) (c : Cmd) (addr : Nat) (bs : List Byte) (r0 r1 : Nat) : Prop :=
  p.Ends q c r0 r1 ∧ p.ByCommand q p ∧ (p.fon F.hostCplCfgEn 0 = false → q.host.mem = p.host.mem.write addr bs)

/-- What a PERF_CONFIG leaves in a page's counter control, and in the counter when CLEAR is set (R529). -/
def Pkg.PerfSet (p q : Pkg) (b : Blk) (i n : Nat) (v : W64) : Prop :=
  q.reg b i (0x0C0 + 8 * n) = setBits v 63 62 (b2n (bit (p.reg b i (0x0C0 + 8 * n)) 62 && !bit v 62)) ∧
  q.reg b i (0x080 + 8 * n) = if bit v 63 then 0#64 else p.reg b i (0x080 + 8 * n)

/-- A register whose write only stores: no status that other registers follow, no counter, no action of its own. -/
def plainReg (b : Blk) (o : Nat) : Bool :=
  !(o = 0x020 || o = 0x028 || (0x0C0 ≤ o && o < 0x100)) &&
  !([(Blk.bell, 0x110), (.bell, 0x118), (.bell, 0x150), (.bell, 0x190), (.pclk, 0x110), (.issyn, 0x100), (.issyn, 0x110), (.fab, 0x100),
     (.fab, 0x108), (.roll, 0x108), (.roll, 0x110), (.roll, 0x120), (.host, 0x100), (.host, 0x108), (.host, 0x118), (.brsm, 0x130),
     (.mark, 0x100), (.chip, 0x120), (.fen, 0x100), (.fen, 0x160)].contains (b, o))

/-- The record that a command scan takes (R436, R437). -/
def Pkg.takenCmd (p : Pkg) (path : CmdPath) (r : List Byte) : Cmd :=
  { no := p.host.nextNo, path := path, opcode := leAt r 0 2, flags := leAt r 2 2, tag := leAt r 8 8, rec_ := padTo 512 r,
    takenNs := p.rawNs, silent := false }

/-! The Caretaker. -/

/-- An authenticated message of the fault manager, new and of type `typ`, that the firmware takes in (R502 to R504, R548). -/
def Pkg.msgIn (p : Pkg) (typ port : Nat) (b : List Byte) (m : Msg) : Prop :=
  p.on = true ∧ p.fget F.chipStage 0 ≠ 0 ∧ (port < 2 → p.mgUp / 2 ^ port % 2 = 1) ∧ Msg.parse b = some m ∧ m.isAck = false ∧
  m.typ = typ ∧ p.msgAuth m b = true ∧ p.fwRuns = true ∧ m.tag ∉ p.care.tags ∧ p.host.careCpl = []

/-- An answer to a message, as it goes out. -/
def Pkg.answerMsg (p : Pkg) (port : Nat) (m : Msg) (flags reason : Nat) : Nat × Msg :=
  (2 ^ port, { typ := m.typ, flags := flags, tag := m.tag, src := p.phys, reason := reason, session := m.session, sent := p.tb0,
               body := [] })

/-- The message has been taken: its TAG is among the last 1,024, the fault manager has been heard, and ACK is out where it was
asked for. -/
def Pkg.Took (p q : Pkg) (port : Nat) (m : Msg) : Prop :=
  q.care.tags = (m.tag :: p.care.tags).take 1024 ∧ q.care.lastMsg = p.tb1 ∧ q.care.everMsg = true ∧
  q.care.out = if m.flags % 2 = 1 then q.answerMsg port m 2 0 :: p.care.out else p.care.out

/-- The message has been turned away with NACK and a reason. -/
def Pkg.Nacked (p q : Pkg) (port : Nat) (m : Msg) (reason : Nat) : Prop :=
  q.care = { p.care with lastMsg := p.tb1, everMsg := true, out := p.answerMsg port m 6 reason :: p.care.out } ∧
  p.Keeps q { p with care := q.care, spdm := q.spdm } {}

/-- Row and type of the messages, and whether the type has to carry ACK_REQ (R503, R504). -/
def msgRow (port : Nat) (b : List Byte) : Nat → Option (Instr × Bool)
  | 1 => some (.heartbeat port b, false) | 4 => some (.command port b, true) | 8 => some (.throttleSet port b, true)
  | 9 => some (.time port b, false) | 10 => some (.record port b, true) | 11 => some (.fwWrite port b, true)
  | 12 => some (.fwActivate port b, true) | 13 => some (.fwCommit port b, true) | _ => none

/-- What the Caretaker's firmware sends: at once with a session and a port, else it waits (R503). -/
def Pkg.Sends (p q : Pkg) (typ : Nat) (body : List Byte) : Prop :=
  match p.fmSession with
  | some e =>
    if p.mgUp = 0 then q.care.outQ = p.care.outQ ++ [(typ, body)] ∧ q.care.out = p.care.out
    else p.care.outQ = [] → q.care.outQ = [] ∧ q.care.nextTag = (p.care.nextTag + 1) % 2 ^ 64 ∧
      q.care.out = (p.mgUp, { typ := typ, flags := if typ = 2 then 0 else 1, tag := p.care.nextTag, src := p.phys, reason := 0,
                              session := e.id, sent := p.tb0, body := body }) :: p.care.out
  | none => q.care.outQ = p.care.outQ ++ [(typ, body)] ∧ q.care.out = p.care.out

/-! The Bursar. -/

/-- One record more: `head` is its bytes 0x00 to 0x5F, the rest their SHA-256, and PREV_HASH of the next one (R515). -/
def Bursar.Stored (b q : Bursar) (typ part mec start fin e : Nat) : Prop :=
  ∃ head, q.ring = newest 512 (b.ring ++ [⟨b.nextSeq, head ++ sha256 head⟩]) ∧ q.nextSeq = b.nextSeq + 1 ∧ q.prev = sha256 head ∧
    leAt head 0x00 1 = typ ∧ leAt head 0x02 2 = part % 2 ^ 16 ∧ leAt head 0x04 4 = mec % 2 ^ 32 ∧ leAt head 0x08 8 = b.nextSeq % 2 ^ 64 ∧
    leAt head 0x10 8 = start % 2 ^ 64 ∧ leAt head 0x18 8 = fin % 2 ^ 64 ∧ leAt head 0x30 8 = e % 2 ^ 64 ∧ head.drop 0x40 = b.prev

/-- The Bursar's evidence is whole: at most 512 records with consecutive numbers that end before the next one, each closed by
its SHA-256 and opened on that of the one before it; no more than 16 calibrations; counters by PART that add up to the
total; a fraction below a mJ (R514, R515, R517). -/
def Bursar.Whole (b : Bursar) : Prop :=
  b.ring.length ≤ 512 ∧ b.ring.length ≤ b.nextSeq ∧ b.ring.map BRec.seq = List.range' (b.nextSeq - b.ring.length) b.ring.length ∧
  (∃ heads : List (List Byte), b.ring.map BRec.bytes = heads.map (fun h => h ++ sha256 h) ∧
    (∀ i h k, heads[i]? = some h → heads[i + 1]? = some k → ∃ x, k = x ++ sha256 h) ∧
    (∀ h, heads.getLast? = some h → b.prev = sha256 h)) ∧
  b.calFuses.length ≤ 16 ∧ AMap.sorted b.parts = true ∧ (b.parts.map Prod.snd).foldl (· + ·) 0 = b.total ∧ b.residue < 64000000000

/-! The supply, and SPDM. -/

/-- Commands that reach a dark package (R477, R582, R586 to R589). -/
def railCmd : Instr → Bool
  | .coldReset _ _ _ _ | .wakeN | .powerUpStart | .pwrEnStep | .pwrSeqTimeout _ | .pgLost _ | .thermtrip _ | .vauxLoss _ => true
  | _ => false

/-- Code of the requests, the phase each needs, transport, whether in a record, and bytes (R545, R547). -/
def spdmRow : Instr → Option (Nat × Nat × Bool × Bool × List Byte)
  | .getVersion m e b => some (0x84, 0, m, e, b) | .getCapabilities m e b => some (0xE1, 1, m, e, b)
  | .negotiateAlgorithms m e b => some (0xE3, 2, m, e, b) | .getDigests m e b => some (0x81, 3, m, e, b)
  | .getCertificate m e b => some (0x82, 3, m, e, b) | .challenge m e b => some (0x83, 3, m, e, b)
  | .getMeasurements m e b => some (0xE0, 3, m, e, b) | .keyExchange m e b => some (0xE4, 3, m, e, b)
  | .finish m e b => some (0xE5, 3, m, e, b) | .spdmHeartbeat m e b => some (0xE8, 3, m, e, b)
  | .keyUpdate m e b => some (0xE9, 3, m, e, b) | .endSession m e b => some (0xEC, 3, m, e, b) | _ => none

/-- A plain request that is in its turn and in the negotiated version. -/
def Pkg.spdmPlain (p : Pkg) (mgmt : Bool) (code phase : Nat) (b : List Byte) : Prop :=
  p.on = true ∧ p.spdmUp mgmt = true ∧ 4 ≤ b.length ∧ rqCode b = code ∧ phase ≤ (p.conn mgmt).phase ∧
  (3 ≤ phase → rqVer b = 0x10 + (p.conn mgmt).version)
/-- A request in a record of session `e`, in its turn and in the negotiated version. -/
def Pkg.spdmSealed (p : Pkg) (mgmt : Bool) (code : Nat) (msg : List Byte) (e : Sess) (b : List Byte) : Prop :=
  p.on = true ∧ p.spdmUp mgmt = true ∧ p.openReq mgmt true msg = some (some e, b) ∧ 4 ≤ b.length ∧ rqCode b = code ∧
  3 ≤ (p.conn mgmt).phase ∧ rqVer b = 0x10 + (p.conn mgmt).version ∧ (p.spdm.sessions.map Sess.id).Nodup

/-- The session `id` has become `e`, the others are as before, one more response is out. -/
def Pkg.SessIs (p q : Pkg) (mgmt : Bool) (e : Sess) : Prop :=
  q.spdm.sessions = p.spdm.sessions.map (fun x => if x.id = e.id then e else x) ∧ q.spdm.conns = p.spdm.conns ∧
  ∃ r, q.spdm.resp = (mgmt, r) :: p.spdm.resp

end Sys2Proof.Machine
end

