-- ==== Sys2Proof/Certificates/Slice0/Obligations.lean ====
section
/-! DEFINITION. The statements about the block, each as one proposition; the words they use stand in Safety.lean. -/

open Sys2Proof Sys2Proof.Machine

/-! The block: queue, idle step, isolation. -/

/-- O1. A step with command `c` at the front of the queue is `exec c` on the state with the queue's rest. -/
def Obligations.StepRunsFront : Prop :=
  ∀ (c : Instr) (r : List Instr) (s : State), step { s with pending := c :: r } = exec c { s with pending := r }

/-- O2. On an empty queue a step lets one reference tick pass (the model's choice, log entry 1): the queue stays empty, a
dark package stays as it is, in DEEP the raw counter of TB0 alone counts, else the driving base counts exactly one (R97), on
TB2 when no handover is to come; no register holds anything for set by the tick that ends (R15); the Bursar counts TB3 and is
otherwise as it was. -/
def Obligations.IdleStepIsATick : Prop :=
  ∀ s : State, s.pending = [] → ∃ t, step s = .next t ∧ t.pending = [] ∧
    (s.pkg.on = false → t.pkg = s.pkg) ∧
    (s.pkg.on = true → s.pkg.power.state = 3 → t.pkg = { s.pkg with
        fresh := [], bell := { s.pkg.bell with raw := t.pkg.bell.raw, rawFrac := t.pkg.bell.rawFrac } }) ∧
    (s.pkg.on = true → s.pkg.power.state ≠ 3 → s.pkg.drive = false →
      t.pkg.bell.tb1 = { s.pkg.bell.tb1 with count := (s.pkg.bell.tb1.count + 1) % 2 ^ 64 }) ∧
    (s.pkg.on = true → s.pkg.power.state ≠ 3 → s.pkg.drive = true → s.pkg.bell.tb2.state ≠ .follow →
      s.pkg.bell.handoverTick = none →
      t.pkg.bell.tb2 = { s.pkg.bell.tb2 with count := (s.pkg.bell.tb2.count + 1) % 2 ^ 64 }) ∧
    t.bursar = { s.bursar with tb3 := t.bursar.tb3, ticks := t.bursar.ticks } ∧
    (s.bursar.powered = false → t.bursar = s.bursar)

/-- O3. No command touches the queue, and every command answers a next state: nothing of the table stops the block. -/
def Obligations.CommandsKeepTheQueue : Prop :=
  ∀ (c : Instr) (s : State), ∃ t, exec c s = .next t ∧ t.pending = s.pending

/-- O4. The Bursar is an island (R510): a command that is not its own leaves it as it is, and its own, the loss of VAUX
aside, leave the package as it is. R520, R586: a package that is dark answers none of its commands but those of the supply.
The model's readings and choices it rests on: log entry 104. -/
def Obligations.SuppliesApart : Prop :=
  (∀ (c : Instr) (s t : State), exec c s = .next t →
    (bursarCmd c = false → t.bursar = s.bursar) ∧
    (bursarCmd c = true → (∀ x, c ≠ .vauxLoss x) → t.pkg = s.pkg)) ∧
  (∀ (c : Instr) (s : State), s.pkg.on = false → railCmd c = false → bursarCmd c = false → exec c s = .next s)

/-! The Proctor. -/

/-- O5. R185: the integer instructions put their result, in exact arithmetic modulo 2^64, into DST and change nothing else of
the machine; an operand that the rule calls illegal skips the instruction. The rows of INS, LIDX, AGCUR and AGAT follow the
same form (R186, R187, R189). -/
def Obligations.ProctorArithmetic : Prop :=
  ∀ (c : Instr) (f : Fin 288) (k : Nat) (s : State) (x : PCtx),
    valueRow c = some (f, k) → s.pkg.Issues f k x →
    match valueOf k x with
    | some v => Does c s fun t => x.Done s.pkg t.pkg s.pkg (some v) x.x
    | none => Does c s fun t => x.Skipped s.pkg t.pkg 0x0034

/-- O6. R186: AGNEXT gives the address and then advances the indexes, AGRST zeroes them, AGBASE sets the base; each touches
its descriptor alone. The comparisons of an advance are read as log entry 109 says. The model's readings and choices it rests
on: log entry 109. -/
def Obligations.ProctorDescriptors : Prop :=
  ∀ (f : Fin 288) (s : State) (x : PCtx),
    let i := x.fb 2 0
    let d := x.x.dsc i
    (s.pkg.Issues f 0x11 x → Does (.agnext f) s fun t => ∃ y, sameButDesc x.x y i ∧ (y.dsc i).base = d.base ∧
      bits (y.dsc i).idx 15 0 = (advanced d).1 ∧ bits (y.dsc i).idx 31 16 = (advanced d).2.1 ∧
      bits (y.dsc i).idx 47 32 = (advanced d).2.2 ∧
      x.Done s.pkg t.pkg s.pkg (some (strides d (bits d.idx 15 0) (bits d.idx 31 16) (bits d.idx 47 32))) y) ∧
    (s.pkg.Issues f 0x12 x → Does (.agrst f) s fun t => ∃ y, sameButDesc x.x y i ∧ (y.dsc i).base = d.base ∧
      bits (y.dsc i).idx 47 0 = 0 ∧ x.Done s.pkg t.pkg s.pkg none y) ∧
    (s.pkg.Issues f 0x13 x → Does (.agbase f) s fun t => ∃ y, sameButDesc x.x y i ∧ (y.dsc i).idx = d.idx ∧
      (y.dsc i).base = i64 (x.a.toNat + sx 40 (x.fb 42 3)) ∧ x.Done s.pkg t.pkg s.pkg none y)

/-- O7. R187: branches and jumps, with the condition of BR, the link of JAL and JR, the entry that BREAK pops and the tick
base that STEP advances; the forms that the rule calls illegal are skipped. R190: LOOP skips its body when the count is 0, is
illegal with a full stack or an empty body, and otherwise pushes its entry; the integer instructions, which transfer no
control, take the back-edge or leave the loop at END. The model's readings and choices it rests on: log entries 7, 8 and 118.
-/
def Obligations.ProctorControl : Prop :=
  (∀ (f : Fin 288) (s : State) (x : PCtx),
    let link := some (w64 (x.pc + 8))
    (s.pkg.Issues f 0x18 x →
      match (if x.fb 34 32 = 6 then some true else holdsCond (x.fb 34 32) x.a x.b) with
      | some true => Does (.br f) s fun t => x.Jumped s.pkg t.pkg none x.x (branchTarget x)
      | some false => Does (.br f) s fun t => x.Done s.pkg t.pkg s.pkg none x.x
      | none => Does (.br f) s fun t => x.Skipped s.pkg t.pkg 0x0034) ∧
    (s.pkg.Issues f 0x19 x → Does (.jal f) s fun t => x.Jumped s.pkg t.pkg link x.x (branchTarget x)) ∧
    (s.pkg.Issues f 0x1A x →
      if x.a.toNat % 8 = 0 then Does (.jr f) s fun t => x.Jumped s.pkg t.pkg link x.x (bits x.a 19 0)
      else Does (.jr f) s fun t => x.Skipped s.pkg t.pkg 0x0034) ∧
    (s.pkg.Issues f 0x1D x →
      match x.x.loops with
      | e :: r => Does (.break_ f) s fun t => x.Jumped s.pkg t.pkg none { x.x with loops := r } (e.stop + 8)
      | [] => Does (.break_ f) s fun t => x.Skipped s.pkg t.pkg 0x0034) ∧
    (s.pkg.Issues f 0x1E x → Does (.step f) s fun t =>
      x.Jumped s.pkg t.pkg none { x.x with tb := x.x.tb + x.x.csr.stepTicks, loops := [] } (bits x.x.csr.entry 19 3 * 8))) ∧
  ((∀ (f : Fin 288) (s : State) (x : PCtx),
    let n := w64 (x.a.toNat + x.fb 23 0)
    let len := x.fb 42 24
    s.pkg.Issues f 0x1B x →
    let go (pc : Nat) (ls : List LoopEnt) : Prop := Does (.loop f) s fun t =>
      t.pkg.fen f = { s.pkg.fen f with
        proc := { x.x with pc := pc % 2 ^ 20, loops := ls, st := .run, ready := x.l + 1,
                           icache := x.x.icache.touch (x.pc / 64) } } ∧
      s.pkg.Keeps t.pkg s.pkg { fens := [x.f], marks := [x.f / 72] }
    (len ≠ 0 → n = 0#64 → go (x.pc + 8 + 8 * len) x.x.loops) ∧
    (len ≠ 0 → n ≠ 0#64 → x.x.loops.length < 4 →
      go (x.pc + 8) ({ start := x.pc + 8, stop := x.pc + 8 * len, remaining := n, index := 0#64 } :: x.x.loops)) ∧
    (len = 0 ∨ (n ≠ 0#64 ∧ 4 ≤ x.x.loops.length) → Does (.loop f) s fun t => x.Skipped s.pkg t.pkg 0x0034)) ∧
  (∀ (c : Instr) (f : Fin 288) (k : Nat) (s : State) (x : PCtx) (e : LoopEnt) (r : List LoopEnt),
    valueRow c = some (f, k) → s.pkg.Issues f k x → (valueOf k x).isSome = true → x.x.loops = e :: r → e.stop = x.pc →
    Does c s fun t =>
      let z := (t.pkg.fen f).proc
      if 1 < e.remaining.toNat then
        z.pc = e.start ∧ z.loops = { e with remaining := e.remaining - 1#64, index := e.index + 1#64 } :: r
      else z.pc = (x.pc + 8) % 2 ^ 20 ∧ z.loops = r))

/-- O8. R189, R194, R195: a push builds its word and its firing tick, raises CT, and enters its queue at the end of its tick;
a late one suppresses periods, is counted and logged. A push beyond the run-ahead limit or into a full queue waits with CT
raised, and PUSH_QUEUE_ENTRY enters it when neither wait holds it. The model's readings and choices it rests on: log entry
95. -/
def Obligations.ProctorPush : Prop :=
  (∀ (c : Instr) (f : Fin 288) (k : Nat) (st : Station) (s : State) (x : PCtx),
    pushRowOf c = some (f, k, st) → s.pkg.Issues f k x →
    ∃ w : W128, pushedWord x w ∧
      let fire := (x.x.tb.toNat + bits w 119 96) % 2 ^ 64
      let len := if st = .samp then (s.pkg.samp (f / 72)).queue.length else ((s.pkg.fen f).queue st).length
      let y : Proctor := { x.x with ct := w64 (max x.x.ct.toNat fire) }
      let q : QCmd := { word := w, fire := fire, fen := s.pkg.logNum f, pc := x.pc, late := decide (fire ≤ x.l), avail := x.l + 1 }
      let wait := x.l + 4096 < fire ∨ st.depth ≤ len
      (¬ wait → x.l < fire → Does c s fun t =>
        x.Done s.pkg t.pkg (s.pkg.updFen f fun z => z.setQueue st (z.queue st ++ [q])) none y
          { samps := if st = .samp then [f / 72] else [] } ∧
        (st = .samp → t.pkg.samp (f / 72) = { s.pkg.samp (f / 72) with queue := insertDraw q (s.pkg.samp (f / 72)).queue })) ∧
      (¬ wait → fire ≤ x.l → Does c s fun t =>
        (t.pkg.fen f).clk.suppress = (s.pkg.fen f).clk.suppress + (x.l + 1 - fire) ∧
        (st ≠ .samp → (t.pkg.fen f).queue st = (s.pkg.fen f).queue st ++ [q]) ∧ (t.pkg.fen f).proc.ct = y.ct ∧
        s.pkg.Logged t.pkg .fen f 0x0035 fire 0 ∧
        t.pkg.fget F.fenProcStatLatePush f = satAdd 16 (s.pkg.fget F.fenProcStatLatePush f) 1) ∧
      (wait → Does c s fun t =>
        t.pkg.fen f = { s.pkg.fen f with proc := { y with st := .pushWait, held := some ⟨st, w, fire, x.pc⟩ } } ∧
        s.pkg.Keeps t.pkg s.pkg { fens := [x.f] })) ∧
  (∀ (f : Fin 288) (s : State) (h : HeldPush), s.pkg.on = true →
    let z := s.pkg.fen f
    let l := s.pkg.local_ f
    z.proc.st = .pushWait → z.proc.held = some h → z.hard = false → z.clk.heldNow = false → h.st ≠ .samp → h.fire ≤ l + 4096 → l < h.fire →
    (z.queue h.st).length < h.st.depth → Does (.pushQueueEntry f) s fun t =>
      (t.pkg.fen f).queue h.st = z.queue h.st ++ [⟨h.word, h.fire, s.pkg.logNum f, h.pc, false, l + 1⟩] ∧
      (t.pkg.fen f).proc.held = none ∧ (t.pkg.fen f).proc.st = .run ∧ (t.pkg.fen f).proc.ready = l + 1 ∧
      (t.pkg.fen f).proc.g = z.proc.g)

/-- O9. R191: WAITT completes in the first tick at or after its target; WAITB writes STEP_NO of its completing tick, and its
boundary is fixed when it first executes; WAITB of EVT 2 and 3 is illegal. R192: WAITS, its target reached, reads one word of
the oldest entry of its sluice when that is ready, removes it with POP, waits while it is not, is illegal for a word beyond
the entry and for a sluice to which nothing comes. A word is read through the SEC-DED code of the storage; an uncorrectable
one gives 0 like a poisoned one, with its own event (R234, R481). -/
def Obligations.ProctorWaits : Prop :=
  (∀ (f : Fin 288) (s : State) (x : PCtx),
    (s.pkg.Issues f 0x28 x →
      let target := (x.x.tb.toNat + x.a.toNat + x.fb 23 0) % 2 ^ 64
      if target ≤ x.l then Does (.waitt f) s fun t => x.Done s.pkg t.pkg s.pkg none x.x
      else Does (.waitt f) s fun t => t.pkg = s.pkg.updProc f fun y => { y with st := .waitt }) ∧
    (s.pkg.Issues f 0x2A x →
      let b := if x.fb 1 0 = 0 then x.x.waitB.getD (s.pkg.nextBoundary x.l) else x.a.toNat
      if 2 ≤ x.fb 1 0 then Does (.waitb f) s fun t => x.Skipped s.pkg t.pkg 0x0034
      else if b ≤ x.l then Does (.waitb f) s fun t => x.Done s.pkg t.pkg s.pkg (some (w64 (s.pkg.stepNo x.l))) x.x
      else Does (.waitb f) s fun t => t.pkg = s.pkg.updProc f fun y => { y with st := .waitb, waitB := some b })) ∧
  (∀ (f : Fin 288) (s : State) (x : PCtx), s.pkg.Issues f 0x29 x →
    let target := (x.x.tb.toNat + x.fb 23 0) % 2 ^ 64
    let slu := x.fb 25 24
    let wd := x.fb 31 26
    let waits : Prop := Does (.waits f) s fun t => t.pkg = s.pkg.updProc f fun y => { y with st := .waits }
    (x.l < target → waits) ∧
    (target ≤ x.l → ∀ e, (s.pkg.fen f).headEntry slu = some e →
      (64 * e.beats ≤ wd → Does (.waits f) s fun t => x.Skipped s.pkg t.pkg 0x0034) ∧
      (wd < 64 * e.beats → e.ready = false → waits) ∧
      (∀ v, wd < 64 * e.beats → e.ready = true →
        (if e.write then v = 0#64
         else (e.atoms.getD (wd / 8) ⟨[], true⟩).poison = false ∧ ∃ d, v = w64 d ∧ (e.word wd = .ok d ∨ e.word wd = .corrected d)) →
        Does (.waits f) s fun t =>
          x.Done s.pkg t.pkg (if bit x.w 32 then s.pkg.updFen f fun y => y.popEntry slu else s.pkg) (some v) x.x) ∧
      (wd < 64 * e.beats → e.ready = true → e.write = false →
        (e.atoms.getD (wd / 8) ⟨[], true⟩).poison = true ∨ e.word wd = .bad →
        Does (.waits f) s fun t =>
          (x.dst ≠ 0 → (t.pkg.fen f).proc.greg x.dst = 0#64) ∧
          t.pkg.fget F.fenProcStatPoison f = satAdd 8 (s.pkg.fget F.fenProcStatPoison f) 1 ∧
          (e.word wd ≠ .bad → s.pkg.Logged t.pkg .fen f 0x0037 x.l 0) ∧
          (e.word wd = .bad → e.raw ≠ [] → s.pkg.evq.length + 2 ≤ 4096 → ∃ l a b, t.pkg.evq = s.pkg.evq ++ l ∧ a ∈ l ∧ b ∈ l ∧
            a.code = 0x0114 ∧ b.code = 0x0037))) ∧
    (target ≤ x.l → (s.pkg.fen f).headEntry slu = none →
      if (s.pkg.fen f).slWaits slu then waits else Does (.waits f) s fun t => x.Skipped s.pkg t.pkg 0x0034))

/-- O10. R193 with the table of R183: CSRR reads the table; CSRW, CSRS and CSRC change the CSR they name and nothing else,
and are illegal for an RO CSR or a number not in the table; TBSET and COVER set `tb` and raise CT. R148: EPOCH counts `ep`
up, gives it to DST, takes the queued commands of other epochs off the queues and counts them, clears the engines, and marks
what the sluices hold as discarded; EPOCH_ZEROING_DONE ends the zeroing 64 ticks later. Slab, clock and code of the fen, and
every other fen, are as before. -/
def Obligations.ProctorCsrsAndEpoch : Prop :=
  ((∀ (f : Fin 288) (s : State) (x : PCtx),
    (s.pkg.Issues f 0x30 x →
      match csrValue s.pkg x x.x (x.fb 11 0) with
      | some v => Does (.csrr f) s fun t => x.Done s.pkg t.pkg s.pkg (some v) x.x
      | none => Does (.csrr f) s fun t => x.Skipped s.pkg t.pkg 0x0034) ∧
    (s.pkg.Issues f 0x35 x →
      Does (.tbset f) s fun t => x.Done s.pkg t.pkg s.pkg none { x.x with tb := i64 (x.a.toNat + sx 43 (x.fb 42 0)) }) ∧
    (s.pkg.Issues f 0x36 x →
      Does (.cover f) s fun t => x.Done s.pkg t.pkg s.pkg none
        { x.x with ct := w64 (max x.x.ct.toNat ((x.x.tb.toNat + x.fb 23 0) % 2 ^ 64)) })) ∧
  (∀ (c : Instr) (f : Fin 288) (k : Nat) (g : W64 → W64 → W64) (s : State) (x : PCtx),
    csrRowOf c = some (f, k, g) → s.pkg.Issues f k x →
    let n := x.fb 11 0
    if csrRw n then
      Does c s fun t => ∃ y : Proctor, y = { x.x with tb := y.tb, desc := y.desc, csr := y.csr } ∧
        (∀ m, csrValue s.pkg x y m = if m = n then (csrValue s.pkg x x.x n).map fun o => g o x.a else csrValue s.pkg x x.x m) ∧
        x.Done s.pkg t.pkg s.pkg none y
    else Does c s fun t => x.Skipped s.pkg t.pkg 0x0034)) ∧
  ((∀ (f : Fin 288) (s : State) (x : PCtx), s.pkg.Issues f 0x34 x →
    Does (.epoch f) s fun t =>
      let y := s.pkg.fen f
      let z := t.pkg.fen f
      let ep := x.x.ep + 1#64
      let kept (q : QCmd) : Bool := epOf q.word = ep.toNat % 256
      z.proc.ep = ep ∧ (x.dst ≠ 0 → z.proc.greg x.dst = ep) ∧ (∀ n, n ≠ x.dst → z.proc.greg n = x.x.greg n) ∧
      z.proc.st = .run ∧ z.proc.ready = x.l + 1 ∧ z.proc.tb = x.x.tb ∧ z.proc.ct = x.x.ct ∧ z.proc.desc = x.x.desc ∧
      z.qTe = y.qTe.filter kept ∧ z.qVe = y.qVe.filter kept ∧ z.qSm = y.qSm.filter kept ∧ z.qLx = y.qLx.filter kept ∧
      z.te = .init ∧ z.ve = .init ∧ z.zeroing = true ∧ z.zeroTill = x.l + 64 ∧
      (∀ n, n < 4 → ∀ e ∈ z.sluice n, e.dead = true) ∧ z.slab = y.slab ∧ z.clk = y.clk ∧ z.proc.code = x.x.code ∧
      z.flights = y.flights ∧
      (∀ d q, q ∈ (t.pkg.samp d).queue → d < 4 → q.fen = s.pkg.logNum f → epOf q.word = ep.toNat % 256) ∧
      (∀ j, j ≠ f.val → t.pkg.fen j = s.pkg.fen j)) ∧
  (∀ (f : Fin 288) (s : State), s.pkg.on = true → (s.pkg.fen f).zeroing = true → (s.pkg.fen f).zeroTill ≤ s.pkg.local_ f →
    Does (.epochZeroingDone f) s fun t => t.pkg = s.pkg.setFen f { s.pkg.fen f with zeroing := false }))

/-- O11. R199, R201: an instruction of a major opcode that the tables do not define, or one that its fill poisoned, is
skipped by whichever Proctor row meets it: pc + 8, one tick, ILLEGAL_INSTRUCTION or PROCTOR_POISON logged and counted, the
step defective (log entry 6 for the choice of the row). R151: an illegal command at the head of its queue never starts: in
its firing tick it leaves the queue, is logged with the firing tick and its opcode and counted, the step is defective, and a
fill takes its place where it names a destination legally (R594): the fill of an SM.SLRD or SM.SLWR takes the next entry of
the sluice if one is free. Whichever row of its station meets it does this (log entry 6). As a local tick begins, so does
every illegal command of a queue whose tick has come, wherever it stands, once the commands ahead of it that decide its
legality are gone. The model's readings and choices it rests on: log entries 6, 8 and 135. -/
def Obligations.IllegalCommands : Prop :=
  (∀ (c : Instr) (f : Fin 288) (s : State) (x : PCtx),
    procRowOf c = some f → s.pkg.on = true → s.pkg.pFetch f = some x →
    (x.pc ∈ x.x.icache.bad → Does c s fun t => x.Skipped s.pkg t.pkg 0x0037 ∧
      t.pkg.fget F.fenProcStatPoison f = satAdd 8 (s.pkg.fget F.fenProcStatPoison f) 1) ∧
    (x.pc ∉ x.x.icache.bad →
      x.op ∈ [0x15, 0x16, 0x17, 0x1F, 0x26, 0x27, 0x2B, 0x2C, 0x2D, 0x2E, 0x2F, 0x37, 0x38, 0x39, 0x3A, 0x3B, 0x3C, 0x3D, 0x3E,
        0x3F] → Does c s fun t => x.Skipped s.pkg t.pkg 0x0034)) ∧
  ((∀ (p : Pkg) (f t : Nat) (st : Station), (p.fen f).hard = false → (p.illegalDue f t).illegalAt f st t = none) ∧
  ∀ (c : Instr) (f : Fin 288) (st : Station) (k : Nat) (s : State) (q : QCmd) (r : List QCmd),
    stationRowOf c = some (f, st, k) → s.pkg.on = true → (s.pkg.fen f).queue st = q :: r → (s.pkg.fen f).hard = false →
    (s.pkg.fen f).clk.heldNow = false → s.pkg.isDue q (s.pkg.local_ f) = true → s.pkg.legal f st q.word = false →
    Does c s fun t =>
      let y := s.pkg.fen f
      let z := t.pkg.fen f
      z.queue st = r ∧ z.lastStart = y.lastStart ∧ z.proc = y.proc ∧ z.te = y.te ∧ z.ve = y.ve ∧ z.slab = y.slab ∧
      (if st = .sm ∧ (opOf q.word = 0x84 ∨ opOf q.word = 0x86) ∧ y.slotFree (slSlu q.word) = true then
        z.sluice (slSlu q.word) = y.sluice (slSlu q.word) ++
          [{ fillEntry q.word (s.pkg.local_ f) s.pkg.refCount with id := s.pkg.dram.nextEnt }]
       else z.slu = y.slu ∧ t.pkg.dram = s.pkg.dram) ∧
      s.pkg.Logged t.pkg .fen f 0x0033 q.fire (opOf q.word) ∧
      t.pkg.fget F.fenCmdStatIllegal f = satAdd 16 (s.pkg.fget F.fenCmdStatIllegal f) 1 ∧
      (z.flights = y.flights ∨ ∃ g : Flight, z.flights = insertFlight g y.flights ∧ g.fill = true ∧ g.start = s.pkg.local_ f) ∧
      (stationOf (opOf q.word) ≠ some st → z.flights = y.flights) ∧
      (s.pkg.job.cur.isSome = true → s.pkg.job.start ≤ s.pkg.local_ f → s.pkg.planRuns = true → 
        (none, 0x0033, s.pkg.stepOf (s.pkg.local_ f)) ∈ t.pkg.dig.reports) ∧
      s.pkg.Keeps t.pkg { s.pkg with dig := t.pkg.dig, dram := t.pkg.dram } { fens := [f], marks := [f / 72], regs := [F.fenCmdStatIllegal.at_ f] })

/-- O12. R198, R200, R201: a miss, or a parity error, stalls the Proctor and asks for the missing line and the next, each
asked for by a request of its own to package memory (R244); a line that came back is filled: it is present with the bytes and
the uncorrectable words that memory gave, the other requested lines stay, and the stall ends when it is the line of the pc; a
pc at or beyond CODE_LEN executes nothing, is logged once, and the Proctor goes on at RESUME at the next step boundary. The
model's readings and choices it rests on: log entry 94. -/
def Obligations.ProctorFetch : Prop :=
  ∀ (f : Fin 288) (s : State), s.pkg.on = true →
    let y := s.pkg.fen f
    let x := y.proc
    let l := s.pkg.local_ f
    let line := x.pc / 64
    (∀ par : Bool, x.st = .run → x.ready ≤ l → y.hard = false → y.clk.heldNow = false → x.pc < x.code.length →
      ((x.icache.wayOf line).isNone = true ∨ par = true) → Does (.icacheMiss f par) s fun t =>
        let z := (t.pkg.fen f).proc
        z.st = .fetch ∧ z.pc = x.pc ∧ line ∈ z.icache.want ∧ (64 * (line + 1) < x.code.length → line + 1 ∈ z.icache.want) ∧
        z.g = x.g ∧ z.loops = x.loops ∧ z.tb = x.tb ∧
        t.pkg.fget F.fenIcacheMisses f = satAdd 32 (s.pkg.fget F.fenIcacheMisses f) 1 ∧
        (∀ n, n ∈ z.icache.want → n ∉ x.icache.want → s.pkg.atomMapped 0 (codeAddr f + 64 * n) false = true →
          ∃ m ∈ t.pkg.mesh, ∃ r ∈ m.reqs, r.fen = f.val ∧ r.slu = 4 ∧ r.ent = n ∧ r.cls = 0 ∧ r.addr = codeAddr f + 64 * n ∧ r.write = false) ∧
        s.pkg.Keeps t.pkg { s.pkg with mesh := t.pkg.mesh, dram := t.pkg.dram } { fens := [f], regs := [F.fenIcacheMisses.at_ f] }) ∧
    (∀ n i r, n ∈ x.icache.want → s.pkg.dram.returns[i]? = some r → r.fen = f.val → r.slu = 4 → r.ent = n → r.data.bytes.length = 64 →
      (∀ j q, j < i → s.pkg.dram.returns[j]? = some q → ¬ (q.fen = f.val ∧ q.slu = 4 ∧ q.ent = n)) →
      (x.icache.order (n % 64)).any (fun w => x.icache.ways.contains w) = true →
      Does (.icacheFill f n) s fun t =>
        let z := (t.pkg.fen f).proc
        t.pkg.dram.returns = dropAt s.pkg.dram.returns i ∧
        (∀ k, k < 64 → 64 * n + k < x.code.length → z.code.getD (64 * n + k) 0#8 = r.data.bytes.getD k 0#8) ∧
        (∀ k ∈ r.bad, 64 * n + 8 * k ∈ z.icache.bad) ∧
        (z.icache.wayOf n).isSome = true ∧ n ∉ z.icache.want ∧ (∀ m, m ∈ x.icache.want → m ≠ n → m ∈ z.icache.want) ∧
        z.g = x.g ∧ z.pc = x.pc ∧ (x.st = .fetch → line = n → z.st = .run ∧ z.ready = l + 1) ∧
        (¬ (x.st = .fetch ∧ line = n) → z.st = x.st ∧ z.ready = x.ready)) ∧
    (∀ n, (∀ r ∈ s.pkg.dram.returns, ¬ (r.fen = f.val ∧ r.slu = 4 ∧ r.ent = n)) → Does (.icacheFill f n) s fun t => t.pkg = s.pkg) ∧
    (x.st = .run → x.ready ≤ l → y.hard = false → y.clk.heldNow = false → x.code.length ≤ x.pc → Does (.pcRange f) s fun t =>
        (t.pkg.fen f).proc = { x with st := .stepWait, waitB := some (s.pkg.nextBoundary l),
                                      unpushed := x.unpushed ++ [(x.ct.toNat, s.pkg.nextBoundary l)] } ∧
        s.pkg.Logged t.pkg .fen f 0x0036 l 0 ∧
        t.pkg.fget F.fenProcStatPcRange f = satAdd 8 (s.pkg.fget F.fenProcStatPcRange f) 1) ∧
    (∀ b, x.st = .stepWait → x.waitB = some b → b ≤ l → y.clk.heldNow = false → Does (.pcRangeResume f) s fun t =>
        t.pkg = s.pkg.updProc f fun p =>
          { p with pc := bits x.csr.resume 19 3 * 8, tb := w64 b, ct := w64 b, st := .run, ready := l, waitB := none })

/-! The stations. -/

/-- O13. R146: the legal head command of a station's queue, its tick come and nothing holding it (R46), starts: it leaves the
queue, the station notes its start, and it runs on as a flight with its start tick, firing tick and epoch. What it writes
later, it writes in the ticks of its layout; at the start nothing of the Proctor, the slab, the vector engine, the clock or
the other queues changes. The model's readings and choices it rests on: log entries 9, 10 and 117. -/
def Obligations.StationStart : Prop :=
  ∀ (c : Instr) (f : Fin 288) (st : Station) (k : Nat) (s : State) (q : QCmd) (r : List QCmd),
    stationRowOf c = some (f, st, k) → s.pkg.HeadStarts f st k q r →
    Does c s fun t =>
      let y := s.pkg.fen f
      let z := t.pkg.fen f
      z.queue st = r ∧ (∀ u, u ≠ st → z.queue u = y.queue u) ∧ z.lastStart.getD st.idx 0 = s.pkg.local_ f + 1 ∧
      z.proc = y.proc ∧ z.slab = y.slab ∧ z.ve = y.ve ∧ z.clk = y.clk ∧ (k ≠ 0x04 → z.te = y.te) ∧
      (k ≠ 0x84 → k ≠ 0x86 → z.slu = y.slu) ∧
      (∃ g : Flight, z.flights = insertFlight g y.flights ∧ g.st = st ∧ g.start = s.pkg.local_ f ∧ g.fire = q.fire ∧
        g.ep = y.proc.ep.toNat ∧ g.word = q.word ∧ g.fill = false) ∧
      (k ∉ [0x81, 0x84, 0x85, 0x86] → s.pkg.Keeps t.pkg s.pkg { fens := [f], marks := [f / 72] }) ∧
      (k = 0x85 → (∀ e, y.headEntry (slSlu q.word) = some e → e.raw = []) →
        s.pkg.Keeps t.pkg s.pkg { fens := [f], marks := [f / 72] }) ∧
      s.pkg.Keeps t.pkg { s.pkg with dig := t.pkg.dig, dram := t.pkg.dram, mesh := t.pkg.mesh }
        { fens := [f], marks := [f / 72],
          regs := [F.fenSkipUnmapped.at_ f, F.fenSluiceStatUnmapped.at_ f, F.fenSluiceStatPoison.at_ f, F.chipFaultUe.at_ 0,
                   F.chipFaultUeTotal.at_ 0] }

/-- O14. R160 to R163: a vector command takes its sources in its start tick: the result lanes of every element, function,
maximum, immediate and rounding command, the sum of RSUM, the bytes of ST and AST, and the poison of what it read. -/
def Obligations.VectorCapture : Prop :=
  ∀ (c : Instr) (f : Fin 288) (k : Nat) (s : State) (q : QCmd) (r : List QCmd),
    stationRowOf c = some (f, .ve, k) → s.pkg.HeadStarts f .ve k q r →
    Does c s fun t =>
      let v := (s.pkg.fen f).ve
      let w := q.word
      ∃ g : Flight, g ∈ (t.pkg.fen f).flights ∧ g.st = .ve ∧ g.start = s.pkg.local_ f ∧ g.word = w ∧
        (∀ i x, i < 256 → veLaneOf w v i = some x → g.lanes.getD i 0#32 = x) ∧
        (k = 0x40 → g.acc = sum32 (v.ac (veAd w)).acc (v.reg (veA w)).all ∧
          g.poison = ((v.ac (veAd w)).poison || (v.reg (veA w)).poison)) ∧
        (k = 0x43 → g.acc = (v.ac (veAd w)).acc ∧ g.poison = (v.ac (veAd w)).poison) ∧
        (k = 0x21 → g.beats.map Beat.bytes =
          [(vecStore ((veFmt w).getD .fp32) (v.reg (veD w)).all).1, (vecStore ((veFmt w).getD .fp32) (v.reg (veD w)).all).2]) ∧
        (k = 0x44 → g.beats.map Beat.bytes = [leBytes 20 (v.ac (veAd w)).acc.export.toNat]) ∧
        (k ∈ [0x28, 0x29, 0x2A, 0x2C, 0x2D, 0x41, 0x42] → g.poison = ((v.reg (veA w)).poison || (v.reg (veB w)).poison)) ∧
        (k = 0x2B → g.poison = ((v.reg (veA w)).poison || (v.reg (veB w)).poison || (v.reg (veC w)).poison)) ∧
        (k ∈ [0x2E, 0x2F, 0x30, 0x31, 0x38, 0x39, 0x3A, 0x3B, 0x3C, 0x3D, 0x3E] → g.poison = (v.reg (veA w)).poison)

/-- O15. R158, R167, R235, R237, R240, R244: a drain snapshots its bank, and with CLR leaves it at value 0; SM.SLRD and
SM.SLWR take the next entry of their sluice, under a number that no entry had before, and SM.SLRD sends each of its atoms in
a request flit of VC2 to the attachment that serves it, or answers it with poisoned zeros where no memory does; SM.SLPUT
takes the oldest entry's beats. -/
def Obligations.MoverAndDrainStart : Prop :=
  ∀ (f : Fin 288) (s : State) (q : QCmd) (r : List QCmd),
    let y := s.pkg.fen f
    let w := q.word
    (s.pkg.HeadStarts f .te 0x04 q r → Does (.teDrain f) s fun t =>
      ∃ g ∈ (t.pkg.fen f).flights, g.word = w ∧ g.start = s.pkg.local_ f ∧ g.beats = drainSnap (drOfmt w) (s.pkg.bank f (bankOf w)) ∧
        t.pkg.bank f (bankOf w) = (if drClr w then .init else s.pkg.bank f (bankOf w))) ∧
    (∀ wr : Bool, s.pkg.HeadStarts f .sm (if wr then 0x86 else 0x84) q r →
      Does (if wr then .smSlwr f else .smSlrd f) s fun t =>
        ∃ e : SlEnt, (t.pkg.fen f).sluice (slSlu w) = y.sluice (slSlu w) ++ [e] ∧ e.write = wr ∧ e.cls = slClass w ∧
          e.addr = slAddr w ∧ e.beats = slBeats w ∧ e.ready = false ∧ e.dead = false ∧ e.start = s.pkg.local_ f ∧
          e.id = s.pkg.dram.nextEnt ∧ e.id < t.pkg.dram.nextEnt ∧
          (∀ n, n ≠ slSlu w → (t.pkg.fen f).sluice n = y.sluice n) ∧
          t.pkg.dram.queue = s.pkg.dram.queue ∧
          (wr = true → t.pkg.mesh = s.pkg.mesh ∧ t.pkg.dram.returns = s.pkg.dram.returns) ∧
          (∀ k, wr = false → k < 8 * slBeats w →
            let a := slAddr w + 64 * k
            (s.pkg.atomMapped (slClass w) a false = true →
              ∃ m ∈ t.pkg.mesh.drop s.pkg.mesh.length, m.src = f ∧ m.vc = 2 ∧ m.dst = s.pkg.attachOf (s.pkg.logNum f) (slClass w) a ∧
                { fen := f, slu := slSlu w, ent := e.id, atom := k, cls := slClass w, addr := a, write := false,
                  data := ⟨List.replicate 64 0#8, true⟩, held := false } ∈ m.reqs) ∧
            (s.pkg.atomMapped (slClass w) a false = false →
              ∃ r ∈ t.pkg.dram.returns.drop s.pkg.dram.returns.length, r.fen = f ∧ r.slu = slSlu w ∧ r.ent = e.id ∧ r.atom = k ∧
                r.write = false ∧ r.data = ⟨List.replicate 64 0#8, true⟩))) ∧
    (s.pkg.HeadStarts f .sm 0x85 q r → Does (.smSlput f) s fun t =>
      ∃ e, y.headEntry (slSlu w) = some e ∧
        ∃ g ∈ (t.pkg.fen f).flights, g.word = w ∧ g.start = s.pkg.local_ f ∧ g.beats = e.beatsOf)

/-- O16. R160, R176: what a vector command has captured becomes visible in its register at the start of the tick its class
latency ends, if its epoch still holds; the other registers stand. The model's readings and choices it rests on: log entry
10. -/
def Obligations.VectorResultVisible : Prop :=
  ∀ (p : Pkg) (f t : Nat) (y : Flight),
    (p.fen f).flights = [y] → y.ep = (p.fen f).proc.ep.toNat → y.st = .ve →
    let op := opOf y.word
    let lat := if 0x38 ≤ op ∧ op ≤ 0x3E then funcLat p.lc2 else if op = 0x41 ∨ op = 0x42 ∨ op = 0x45 then redLat p.lc2 else 6
    (op = 0x22 ∨ (0x28 ≤ op ∧ op ≤ 0x31) ∨ (0x38 ≤ op ∧ op ≤ 0x3E) ∨ op = 0x41 ∨ op = 0x42 ∨ op = 0x45) → y.start ≤ t →
    let z := (p.beginTick f t).fen f
    (t = y.start + lat → (∀ i, i < 256 → (z.ve.reg (veD y.word)).all.getD i 0#32 = y.lanes.getD i 0#32) ∧
      (z.ve.reg (veD y.word)).poison = y.poison ∧ ∀ n, n ≠ veD y.word → z.ve.reg n = (p.fen f).ve.reg n) ∧
    (t ≠ y.start + lat → z.ve = (p.fen f).ve) ∧ z.proc = (p.fen f).proc ∧ z.te = (p.fen f).te ∧ z.slab = (p.fen f).slab

/-- O17. R46, R168, R172, R174, R175, R329: the first draw whose tick has come starts when none runs and no flit that the
plan has written into its bank or entry before is still to come: it leaves the queue, runs until its record is delivered, and
its record of token, probability, flags and POS goes to DST_ADDR + 16 × RIDX of DST_FEN, or is logged as unmapped, and with
TO_ROLL also to the Roll, with the step in which the draw fires. An illegal one does not start and is logged. The model's
readings and choices it rests on: log entry 23. -/
def Obligations.SamplerDraw : Prop :=
  ∀ (d : Fin 4) (s : State) (q : QCmd), s.pkg.on = true → s.pkg.drawDue d = some q →
    let p := s.pkg
    let f := (p.physOf q.fen).getD 0
    let w := q.word
    let e := SlotEnt.parse ((p.samp d).mem.read (0x200000 + 512 * drSlot w) 512)
    let a := e.dstAddr + 16 * drRidx w
    let arr := p.refCount + topkLat p.lc2 + hopSamp p.meshW e.dstFen d
    let (tok, prob, fl) := p.drawOf d q
    (p.legal f .samp w = true → (p.samp d).run = none → (p.samp d).lastStart ≤ p.refCount → p.drawWaits d q = false → Does (.sampDraw d) s fun t =>
      let z := t.pkg.samp d
      z.queue = (p.samp d).queue.erase q ∧ z.run = some ⟨q, p.refCount, arr⟩ ∧ z.lastStart = p.refCount + 1 ∧
      z.mem = (p.samp d).mem ∧
      (if e.dstAddr % 16 = 0 ∧ a + 15 ≤ 10485759 ∧ (p.physOf e.dstFen).isSome then
        ∃ m : MFlit, t.pkg.mesh = p.mesh ++ [m] ∧ m.dst = .fen e.dstFen ∧ m.addr = a ∧ m.len = 16 ∧ m.arr = arr ∧
          m.ep = epOf w ∧ m.data.bytes = leBytes 4 tok ++ leBytes 4 prob ++ leBytes 2 fl ++ leBytes 2 0 ++ leBytes 4 (drPos w)
       else t.pkg.mesh = p.mesh ∧ p.Logged t.pkg .fen f 0x0031 q.fire 0) ∧
      (if e.toRoll then ∃ x : SampRec, t.pkg.roll.inbound = p.roll.inbound ++ [x] ∧ x.die = d ∧ x.slot = drSlot w ∧
          x.ridx = drRidx w ∧ x.token = tok ∧ x.prob = prob ∧ x.flags = fl ∧ x.pos = drPos w ∧ x.due = arr ∧ x.step = p.stepOf q.fire
       else t.pkg.roll = p.roll) ∧
      (∀ j, t.pkg.fen j = p.fen j)) ∧
    (p.legal f .samp w = false → Does (.sampDraw d) s fun t =>
      (t.pkg.samp d).queue = (p.samp d).queue.erase q ∧ (t.pkg.samp d).run = (p.samp d).run ∧
      t.pkg.fget F.fenCmdStatIllegal f = satAdd 16 (p.fget F.fenCmdStatIllegal f) 1 ∧
      (opOf w ≠ 0xC1 → p.Logged t.pkg .fen f 0x0033 q.fire (opOf w) ∧ t.pkg.mesh = p.mesh))

/-! Fen clocks, the package clock. -/

/-- O18. R66, R68, R88: a droop beyond the threshold stretches the present period by min(8, 1 + excess // STEP_MV) sixteenths
of a tick, 22 units each, once a period (a second droop in it lengthens the stretch to the larger, log entry 121); R76, R77:
SLIP_HIGH and DROOP_HIGH are logged once each when the lag, or the part of it that stretches made, passes 64 or 4 ticks, and
are re-armed when the lag is back at zero. R486, R487, R489: a fen whose clock generator stays out of lock raises FEN_HARD:
logged at the fen with bit 10 of INT_RAW, the fen marked failed, CHIP.REPLACE.FEN_HARD set, and under a plan its state is
lost and it starts no further command, while its slab and clock stay and every other fen runs on. The model's readings and
choices it rests on: log entries 5, 11 and 121. -/
def Obligations.FenSlipAndFailure : Prop :=
  (∀ (f : Fin 288) (s : State), s.pkg.on = true →
    let p := s.pkg
    let c := (p.fen f).clk
    let th := max 16 (p.fget F.fenDroopCfgThresholdMv f)
    (∀ mv, p.fused f = false → th < mv → Does (.droopStretch f mv) s fun t =>
      let had := max c.stretched c.pend
      t.pkg.fen f = { p.fen f with
        clk := { c with pend := max had (22 * min 8 (1 + (mv - th) / max 1 (p.fget F.fenDroopCfgStepMv f))) } } ∧
      t.pkg.fget F.fenClkStatStretchEvents f = satAdd 24 (p.fget F.fenClkStatStretchEvents f) (if had = 0 then 1 else 0) ∧
      p.Keeps t.pkg p { fens := [f], regs := [F.fenClkStatStretchEvents.at_ f] }) ∧
    (∀ mv, mv ≤ th → Does (.droopStretch f mv) s fun t => t = s) ∧
    (22528 < c.lag → p.fget F.fenClkStatSlipHighAct f = 0 → Does (.slipHigh f) s fun t =>
      p.Logged t.pkg .fen f 0x0040 (p.local_ f) 0 ∧ t.pkg.fget F.fenClkStatSlipHighAct f = 1 ∧ bit (t.pkg.reg .fen f 0x020) 8 = true ∧
      p.Keeps t.pkg p { regs := [F.fenClkStatSlipHighAct.at_ f] }) ∧
    (p.fget F.fenClkStatSlipHighAct f = 1 → Does (.slipHigh f) s fun t => t = s) ∧
    (1408 < c.stretchLag → p.fget F.fenClkStatDroopHighAct f = 0 → Does (.droopHigh f) s fun t =>
      p.Logged t.pkg .fen f 0x0041 (p.local_ f) 0 ∧ t.pkg.fget F.fenClkStatDroopHighAct f = 1 ∧ bit (t.pkg.reg .fen f 0x020) 9 = true ∧
      p.Keeps t.pkg { p with care := { p.care with droopSince := t.pkg.care.droopSince } } { regs := [F.fenClkStatDroopHighAct.at_ f] }) ∧
    (c.lag = 0 → Does (.lagCleared f) s fun t =>
      t.pkg.fget F.fenClkStatSlipHighAct f = 0 ∧ t.pkg.fget F.fenClkStatDroopHighAct f = 0 ∧
      p.Keeps t.pkg { p with care := { p.care with droopSince := t.pkg.care.droopSince } } { regs := [F.fenClkStatDroopHighAct.at_ f] })) ∧
  (∀ (f : Fin 288) (s : State), s.pkg.on = true → s.pkg.fused f = false → Does (.fenClockUnlock f) s fun t =>
    s.pkg.LoggedFirst t.pkg .fen f 0x0110 (s.pkg.local_ f) 1 ∧ bit (t.pkg.reg .fen f 0x020) 10 = true ∧
    t.pkg.fget F.fenMapFailed f = 1 ∧ t.pkg.fget F.chipFaultFenHard 0 = 1 ∧ bit (t.pkg.reg .chip 0 0x120) 7 = true ∧
    (t.pkg.rowUsable (f / 9) < t.pkg.meshW / 2 → bit (t.pkg.reg .chip 0 0x120) 0 = true) ∧
    (s.pkg.planRuns = true → (t.pkg.fen f).hard = true ∧ (t.pkg.fen f).qTe = [] ∧ (t.pkg.fen f).flights = [] ∧
      (t.pkg.fen f).te = .init ∧ (t.pkg.fen f).proc.st = .idle ∧ (t.pkg.fen f).slab = (s.pkg.fen f).slab ∧
      (t.pkg.fen f).clk = (s.pkg.fen f).clk) ∧
    (s.pkg.planRuns = false → t.pkg.fens = s.pkg.fens) ∧ (∀ j, j ≠ f.val → t.pkg.fen j = s.pkg.fen j) ∧
    t.pkg.dram = s.pkg.dram ∧ t.pkg.roll = s.pkg.roll ∧ t.pkg.bell = s.pkg.bell ∧ t.pkg.job = s.pkg.job)

/-- O19. R82, R83, R89: loss of the reference sets REF_LOSS and HOLDOVER, clears REF_PRESENT, counts and logs it, interrupts
the Caretaker, freezes the frequency word and touches no plan and no fen; its return clears HOLDOVER and leaves REF_LOSS set.
A loss in HOLDOVER is no second one (log entry 111). R80: a write of PCLK.THROTTLE_TICK arms the ratio as it stands when the
ratio is at most 64, the tick is a step boundary and lies 1,050,000 ticks ahead; without a job only tick 0 is accepted, and
applies at once; anything else is REJECTED, logged, and leaves the ratio in force and an armed change as they were. An armed
change is applied at its tick, logged, and is then armed no more. The model's readings and choices it rests on: log entries
5, 29 and 111. -/
def Obligations.ReferenceAndThrottle : Prop :=
  (∀ (s : State), s.pkg.on = true →
    let p := s.pkg
    (p.fget F.pclkPllStatusHoldover 0 = 0 → Does .refLoss s fun t =>
      t.pkg.fget F.pclkPllStatusRefLoss 0 = 1 ∧ t.pkg.fget F.pclkPllStatusHoldover 0 = 1 ∧
      t.pkg.fget F.pclkPllStatusRefLossCount 0 =
        satAdd (F.pclkPllStatusRefLossCount.hi + 1 - F.pclkPllStatusRefLossCount.lo) (p.fget F.pclkPllStatusRefLossCount 0) 1 ∧
      t.pkg.fget F.pclkPllStatusRefPresent 0 = 0 ∧ Blk.base .pclk 0 / 0x4000 ∈ t.pkg.careIrq ∧
      p.Logged t.pkg .pclk 0 0x0042 p.tb1 0 ∧
      p.Keeps t.pkg { p with bell := { p.bell with frozen := some (if p.drive then p.bell.tb2.trim else p.bell.tb1.trim) } } { regs := [F.pclkPllStatusRefLoss.at_ 0] }) ∧
    (p.fget F.pclkPllStatusHoldover 0 = 1 → Does .refLoss s fun t => t = s) ∧
    (p.fget F.pclkPllStatusHoldover 0 = 1 → Does .refRestored s fun t =>
      t.pkg.fget F.pclkPllStatusHoldover 0 = 0 ∧ t.pkg.fget F.pclkPllStatusRefLoss 0 = p.fget F.pclkPllStatusRefLoss 0 ∧
      t.pkg.fget F.pclkPllStatusRefPresent 0 = 1 ∧
      p.Logged t.pkg .pclk 0 0x0043 p.tb1 0 ∧ p.Keeps t.pkg { p with bell := { p.bell with frozen := none } } { regs := [F.pclkPllStatusRefLoss.at_ 0] })) ∧
  (∀ (s : State), s.pkg.on = true →
    let p := s.pkg
    let r := p.fget F.pclkThrottleRatioNext 0
    (∀ v : W64,
      let armed := p.planRuns = true ∧ r ≤ 64 ∧ (∃ k : Int, (v.toNat : Int) = p.job.start + k * p.stepTicks) ∧ p.refCount + 1050000 ≤ v.toNat
      let now := p.planRuns = false ∧ r ≤ 64 ∧ v = 0#64
      (p.stepTicks ≠ 0 → armed → Does (.throttleTickWrite v) s fun t =>
        t.pkg.bell = { p.bell with throttle := some (r, v.toNat) } ∧
        t.pkg.fget F.pclkThrottleRatioNow 0 = p.fget F.pclkThrottleRatioNow 0 ∧ t.pkg.evq = p.evq) ∧
      (now → Does (.throttleTickWrite v) s fun t =>
        t.pkg.bell = { p.bell with throttle := none } ∧ t.pkg.fget F.pclkThrottleRatioNow 0 = r ∧
        p.Logged t.pkg .pclk 0 0x0044 p.tb1 0) ∧
      (p.stepTicks ≠ 0 → ¬ armed → ¬ now → Does (.throttleTickWrite v) s fun t =>
        t.pkg.bell = p.bell ∧ t.pkg.fget F.pclkThrottleRatioNow 0 = p.fget F.pclkThrottleRatioNow 0 ∧
        t.pkg.fget F.pclkThrottleRejected 0 = 1 ∧ p.Logged t.pkg .pclk 0 0x0045 p.tb1 0)) ∧
    (∀ r t0, p.bell.throttle = some (r, t0) → t0 ≤ p.refCount → r ≤ 64 → Does .throttleApplied s fun t =>
      t.pkg.bell = { p.bell with throttle := none } ∧ t.pkg.fget F.pclkThrottleRatioNow 0 = r ∧
      p.Logged t.pkg .pclk 0 0x0044 p.tb1 0 ∧ p.Keeps t.pkg { p with bell := t.pkg.bell } { regs := [F.pclkThrottleRatioNow.at_ 0] }))

/-! Mesh, slab port, Dredge, sluices and memories. -/

/-- O20. R166, R150, R220: a flit at its fen is written through port A, all of it, poisoned words for a poisoned one, and
nothing else of the slab changes; a flit of another epoch is dropped and counted and writes nothing; R169, R276: a flit for a
sampler enters its space or, outside it, is dropped and logged; a flit for a staging entry sets its payload tag, and waits
while the entry still holds a payload or is ready as NULL; R316: a transit comes out at its edge die. R305, R481, R486: a bad
CRC at the receiving router has the sender repeat the flit: it waits four ticks more and is counted; when the sixteenth
repeat of the hop fails too, MESH_LINK_FAIL and FEN_HARD are raised on the fens of the link: two, or the one router of a hop
from or to an attachment. The model's readings and choices it rests on: log entries 22, 39, 41, 101, 107, 122 and 134. -/
def Obligations.MeshFlits : Prop :=
  ((∀ (i : Nat) (m : MFlit) (l f : Nat) (s : State), s.pkg.flitReady i m l f →
    let p := s.pkg
    let own := m.ep % 256 = (p.fen f).proc.ep.toNat % 256 ∨ 256 ≤ m.ep
    (own → p.readPending' f m = false → m.addr % 8 = 0 → m.data.bytes ≠ [] → m.data.bytes.length % 8 = 0 →
      m.addr + m.data.bytes.length ≤ slabBytes → p.goodCells f →
      Does (.meshFlitArrival i) s fun t =>
        t.pkg.mesh = dropAt p.mesh i ∧
        p.slabBecomes t.pkg f m.addr m.data.bytes.length (fun k => if m.data.poison then none else some (m.data.bytes.getD k 0#8)) ∧
        (t.pkg.fen f).proc = (p.fen f).proc ∧ (t.pkg.fen f).te = (p.fen f).te ∧ (t.pkg.fen f).ve = (p.fen f).ve ∧
        (∀ j, j ≠ f → t.pkg.fen j = p.fen j)) ∧
    (¬ own → Does (.meshFlitArrival i) s fun t =>
      t.pkg.mesh = dropAt p.mesh i ∧ (t.pkg.fen f).slab = (p.fen f).slab ∧
      t.pkg.fget F.fenCmdStatEpochDrop f = satAdd 16 (p.fget F.fenCmdStatEpochDrop f) 1 ∧
      p.Keeps t.pkg { p with mesh := t.pkg.mesh } { fens := [f], regs := [F.fenCmdStatEpochDrop.at_ f] })) ∧
  (∀ (i : Nat) (m : MFlit) (s : State), s.pkg.on = true → s.pkg.mesh[i]? = some m → s.pkg.inOrder i m = true →
    m.there s.pkg.refCount = true → m.arr ≤ s.pkg.refCount →
    (∀ d, m.dst = .samp d → m.addr + m.len ≤ 0x280000 → (s.pkg.samp d).holds m.addr = false → m.data.poison = false →
      Does (.meshFlitArrival i) s fun t =>
        t.pkg.mesh = dropAt s.pkg.mesh i ∧
        (∀ k, k < m.data.bytes.length → (t.pkg.samp d).mem.byte (m.addr + k) = m.data.bytes.getD k 0#8) ∧
        (∀ b, b < m.addr ∨ m.addr + m.data.bytes.length ≤ b → (t.pkg.samp d).mem.byte b = (s.pkg.samp d).mem.byte b) ∧
        s.pkg.Keeps t.pkg { s.pkg with mesh := t.pkg.mesh } { samps := [d] }) ∧
    (∀ d, m.dst = .samp d → 0x280000 < m.addr + m.len → Does (.meshFlitArrival i) s fun t =>
      t.pkg.mesh = dropAt s.pkg.mesh i ∧ t.pkg.samps = s.pkg.samps ∧ s.pkg.Logged t.pkg .samp d 0x0033 s.pkg.refCount 0) ∧
    (∀ q e, m.dst = .edge q → (s.pkg.port q).stag.getD (m.addr / 256) .init = e → (e.payTag || e.hdrTag && e.null) = true →
      Does (.meshFlitArrival i) s fun t => t = s) ∧
    (∀ q o, m.dst = .cross q o → Does (.meshFlitArrival i) s fun t =>
      t.pkg.mesh = dropAt s.pkg.mesh i ∧ t.pkg.port q = (s.pkg.port q).crossed o m.data ∧
      (∀ j, j ≠ q → t.pkg.port j = s.pkg.port j) ∧ t.pkg.fens = s.pkg.fens) ∧
    (∀ q e, m.dst = .edge q → (s.pkg.port q).stag.getD (m.addr / 256) .init = e → (e.payTag || e.hdrTag && e.null) = false →
      Does (.meshFlitArrival i) s fun t =>
        t.pkg.mesh = dropAt s.pkg.mesh i ∧
        (t.pkg.port q).stag.getD (m.addr / 256) .init =
          { e with payTag := true, payload := m.data.bytes.take 240, poison := m.data.poison } ∧
        (∀ j, j ≠ q → t.pkg.port j = s.pkg.port j) ∧ t.pkg.fens = s.pkg.fens))) ∧
  (∀ (i : Nat) (snd rcv : Fin 288) (m : MFlit) (s : State),
    let p := s.pkg
    p.on = true → p.mesh[i]? = some m → p.hopOf m snd rcv = true →
    (m.tries < 16 → Does (.meshHopRepeat i snd rcv) s fun t =>
      (∃ z, t.pkg.mesh[i]? = some z ∧ z = { m with tries := m.tries + 1, left := max m.left (352 * p.refCount) + 4 * 352 }) ∧
      t.pkg.mesh.length = p.mesh.length ∧
      t.pkg.fget F.fenMeshCrcRetry snd = satAdd 16 (p.fget F.fenMeshCrcRetry snd) 1 ∧
      p.Keeps t.pkg { p with mesh := t.pkg.mesh } { regs := [F.fenMeshCrcRetry.at_ snd] }) ∧
    (m.tries = 16 → Does (.meshHopRepeat i snd rcv) s fun t =>
      t.pkg.fget F.fenMapFailed snd = 1 ∧ t.pkg.fget F.fenMapFailed rcv = 1 ∧ t.pkg.fget F.chipFaultFenHard 0 = 1 ∧
      bit (t.pkg.reg .fen snd 0x020) 10 = true ∧ bit (t.pkg.reg .fen rcv 0x020) 10 = true ∧
      (∃ z, t.pkg.mesh[i]? = some z ∧ z.tries = 17) ∧
      (snd ≠ rcv → p.evq.length + 2 ≤ 4096 → ∃ l, t.pkg.evq = p.evq ++ l ∧ (l.take 2).map Ev.code = [0x0090, 0x0090]) ∧
      (snd = rcv → p.evRoom → ∃ l, t.pkg.evq = p.evq ++ l ∧ (l.take 1).map Ev.code = [0x0090])) ∧
    (16 < m.tries → Does (.meshHopRepeat i snd rcv) s fun t => t = s))

/-- O21. R211, R212: at the end of tick t − 4, tick t goes to the oldest waiting access of the first master in the
round-robin order, when no port-A access is known for it and no access holds it yet; nothing else changes. -/
def Obligations.PortBGrants : Prop :=
  ∀ (f : Fin 288) (s : State) (m : PbMaster) (i : Nat) (r : PbReq), s.pkg.on = true →
    let p := s.pkg
    let b := (p.fen f).slab
    let t0 := p.local_ f + 4
    p.paKnown f t0 = false → (∀ x ∈ b.pb, x.grant ≠ some t0) →
    b.pb[i]? = some r → r.master = m → r.grant = none → r.forced = false →
    (∀ j x, j < i → b.pb[j]? = some x → x.master = m → x.grant ≠ none ∨ x.forced = true) →
    (∃ pre post, pbOrder b.lastGrant = pre ++ m :: post ∧
      ∀ x ∈ b.pb, x.master ∈ pre → x.grant ≠ none ∨ x.forced = true) →
    Does (.portBGrant f) s fun t =>
      t.pkg.fen f = { p.fen f with slab := { b with pb := setAt b.pb i { r with grant := some t0 }, lastGrant := m } } ∧
      p.Keeps t.pkg p { fens := [f] }

/-- O22. R213, R217: in a tick without a port-A access the granted access is performed: a read returns the slab's bytes, a
write replaces, sets or clears the bits of the enabled bytes and leaves all others; when port A has an access in the tick, a
write is displaced with every later granted access of its master, each of which is counted, and the slab does not change. The
model's readings and choices it rests on: log entries 15, 119 and 136. -/
def Obligations.PortBAccesses : Prop :=
  ∀ (f : Fin 288) (s : State) (i : Nat) (r : PbReq), s.pkg.pbNow f i r →
    let p := s.pkg
    let words := ∀ k, k < r.len → ∃ d, p.slabWord f ((r.addr + k) / 8 * 8) = .ok d
    (p.paNow f = false → r.kind = .read → words → r.addr + r.len ≤ slabBytes → 0 < r.len → Does (.portBAccess f) s fun t =>
      ∃ a : PbResp, (t.pkg.fen f).slab.resp = (p.fen f).slab.resp ++ [a] ∧ a.master = r.master ∧ a.addr = r.addr ∧ a.ur = false ∧
        a.busy = false ∧ a.poison = false ∧ a.data.length = r.len ∧
        (∀ k, k < r.len → p.slabPeek f (r.addr + k) = some (a.data.getD k 0#8)) ∧
        (t.pkg.fen f).slab.pb = dropAt (p.fen f).slab.pb i ∧ (t.pkg.fen f).slab.mem = (p.fen f).slab.mem ∧
        p.Keeps t.pkg p { fens := [f] }) ∧
    (p.paNow f = false → r.kind ∈ [.write, .bitSet, .bitClear] → r.poison = false → words → r.data.length = r.len →
      r.be.length = r.len → r.addr + r.len ≤ slabBytes → p.goodCells f → Does (.portBAccess f) s fun t =>
        p.slabBecomes t.pkg f r.addr r.len (fun k => (p.slabPeek f (r.addr + k)).map fun o =>
          if r.be.getD k false then pbByte r.kind o (r.data.getD k 0#8) else o) ∧
        (t.pkg.fen f).slab.pb = dropAt (p.fen f).slab.pb i ∧ (t.pkg.fen f).proc = (p.fen f).proc ∧
        (∀ j, j ≠ f.val → t.pkg.fen j = p.fen j)) ∧
    (p.paNow f = true → r.kind ≠ .read → Does (.portBAccess f) s fun t =>
      let n := (((p.fen f).slab.pb.drop i).filter fun z => decide (z.master = r.master) && z.grant.isSome).length
      (∀ j x, (p.fen f).slab.pb[j]? = some x →
        (t.pkg.fen f).slab.pb[j]? = some (if i ≤ j ∧ x.master = r.master then { x with grant := none } else x)) ∧
      (t.pkg.fen f).slab.mem = (p.fen f).slab.mem ∧ (t.pkg.fen f).slab.raw = (p.fen f).slab.raw ∧
      t.pkg.fget F.fenSlabPortPbDisplaced f = satAdd 16 (p.fget F.fenSlabPortPbDisplaced f) n ∧
      p.Keeps t.pkg p { fens := [f], regs := [F.fenSlabPortPbDisplaced.at_ f] })

/-- O23. R214, R221: an access that has waited PB_MAX_WAIT ticks is counted and logged and is to be served in an inserted
period, which then serves it without meeting port A; the scrubber issues the write-back of the word that has waited longest.
-/
def Obligations.PortBForcedAndScrub : Prop :=
  ∀ (f : Fin 288) (s : State), s.pkg.on = true →
    let p := s.pkg
    let b := (p.fen f).slab
    let lim := max 1 (p.fget F.fenSlabCfgPbMaxWait f)
    (∀ i r, b.pb[i]? = some r → r.forced = false →
      (∀ j x, j < i → b.pb[j]? = some x → x.forced = true ∨ p.local_ f < x.issued + lim) → r.issued + lim ≤ p.local_ f →
      Does (.pbForced f) s fun t =>
        t.pkg.fen f = { p.fen f with
          clk := { (p.fen f).clk with suppress := (p.fen f).clk.suppress + 1 },
          slab := { b with pb := setAt b.pb i { r with grant := none, forced := true } } } ∧
        t.pkg.fget F.fenSlabPortPbForced f = satAdd 16 (p.fget F.fenSlabPortPbForced f) 1 ∧
        p.Logged t.pkg .fen f 0x0062 (p.local_ f) 0 ∧
        p.Keeps t.pkg p { fens := [f], regs := [F.fenSlabPortPbForced.at_ f] }) ∧
    (∀ i r, b.pb[i]? = some r → r.forced = true → (∀ j x, j < i → b.pb[j]? = some x → x.forced = false) → r.kind = .read →
      let q := p.pbInserted f
      (q.fen f).slab.pb = dropAt b.pb i ∧ (q.fen f).proc = (p.fen f).proc ∧ (q.fen f).clk = (p.fen f).clk ∧
      ∃ a : PbResp, (q.fen f).slab.resp = b.resp ++ [a] ∧ a.master = r.master ∧ a.addr = r.addr ∧ a.busy = false) ∧
    (∀ a, b.scrubQ.head? = some a → (∀ r ∈ b.pb, r.kind ≠ .scrub) → Does (.scrubWriteback f) s fun t =>
      (t.pkg.fen f).slab.pb = b.pb ++ [{ pbReq .scrub .scrub a 8 with issued := p.local_ f }] ∧
      (t.pkg.fen f).slab.mem = b.mem ∧ p.Keeps t.pkg p { fens := [f] })

/-- O24. R211, R215 to R217, R433, R496: a window request of the host, the Caretaker or the debug path on a slab is issued to
port B, one access per beat in ascending order, and touches nothing else at once; on a stride byte that holds no slab, or a
fen without a mapping, a host read completes with Unsupported Request and a host write changes nothing and is logged; a read
of a fused fen by the Caretaker or the debug path gives zeros. Each form of each slab byte has one offset. -/
def Obligations.SlabWindows : Prop :=
  (∀ (by_ : SlabPath) (form n a : Nat), form < 3 → a < 2 ^ 24 → n < (if by_ = .host then 256 else 288) →
    slabPlace by_ (slabOff by_ form n a) = some (form, n, a)) ∧
  ∀ (by_ : SlabPath) (n addr : Nat) (be : List Bool) (data : List Byte) (s : State), s.pkg.on = true →
    let p := s.pkg
    let m : PbMaster := match by_ with | .host => .host | .care => .care | .debug => .debug
    let issue (k : PbKind) (len f : Nat) (t : State) : Prop :=
      t.pkg.fen f = { p.fen f with slab := { (p.fen f).slab with
        pb := (p.fen f).slab.pb ++ windowReqs m k addr len (p.local_ f) (if k = .read then [] else be) (if k = .read then [] else data) } } ∧
      p.Keeps t.pkg p { fens := [f] }
    (∀ f, p.winFen by_ n = some f → addr + data.length ≤ slabBytes →
      Does (.slabWindowWrite by_ n addr be data false) s (issue .write data.length f) ∧
      Does (.slabWindowBitSet by_ n addr be data false) s (issue .bitSet data.length f) ∧
      Does (.slabWindowBitClear by_ n addr be data false) s (issue .bitClear data.length f) ∧
      Does (.slabWindowRead by_ n addr data.length) s (issue .read data.length f)) ∧
    (by_ ≠ .host → n < 288 → p.winFen by_ n = none → Does (.slabWindowRead by_ n addr data.length) s fun t =>
      t.pkg = { p with host := { p.host with resp := p.host.resp ++ [(List.replicate data.length 0#8, false, false)] } }) ∧
    (p.winFen .host n = none ∨ slabBytes < addr + data.length →
      Does (.slabWindowRead .host n addr data.length) s (fun t =>
        t.pkg = { p with host := { p.host with resp := p.host.resp ++ [([], true, false)] } }) ∧
      ∀ c ∈ [Instr.slabWindowWrite .host n addr be data false, .slabWindowBitSet .host n addr be data false,
             .slabWindowBitClear .host n addr be data false],
        Does c s fun t => t.pkg.fens = p.fens ∧ p.Logged t.pkg .host 0 0x00D1 p.tb0 0 ∧ p.Keeps t.pkg p {})

/-- O25. R224 to R230, R232: Dredge starts the priority row, or the next region of its order, when an interval has begun and
ENABLE is set, at most one an interval; a march that fails takes the lowest free spare row into the repair map and restores
into it, or without one leaves the row in service; the region ends when all eight beats are restored, and with the last of
its order the pass, which is counted; the Caretaker alone writes ENABLE. The model's readings and choices it rests on: log
entries 16, 18, 120 and 124. -/
def Obligations.DredgeRegions : Prop :=
  ∀ (d : Fin 4) (s : State), s.pkg.on = true →
    let p := s.pkg
    let x := p.dredge d
    let iv := max 1 (p.fget F.dredgeCfgInterval d) * 1024
    (p.fget F.dredgeCfgEnable d = 1 → x.phase = 0 → (x.started = true → x.lastStart + iv ≤ p.refCount) → p.power.state < 2 →
      p.power.target < 2 → Does (.dredgeRegionStart d) s fun t =>
        let y := t.pkg.dredge d
        y.started = true ∧ y.lastStart = (if x.started then x.lastStart + (p.refCount - x.lastStart) / iv * iv else p.refCount) ∧ y.done = 0 ∧ y.failed = false ∧
        y.redirect = [] ∧
        ((∃ j, j < 72 ∧ p.fused (d * 72 + j) = false ∧ p.fget F.fenSlabRepairPriorityValid (d * 72 + j) = 1 ∧
            (∀ k, k < j → ¬ (p.fused (d * 72 + k) = false ∧ p.fget F.fenSlabRepairPriorityValid (d * 72 + k) = 1)) ∧
            y.fen = d * 72 + j ∧ y.region = p.fget F.fenSlabRepairPriorityRow (d * 72 + j) ∧ y.phase = 1 ∧
            t.pkg.fget F.fenSlabRepairPriorityValid (d * 72 + j) = 0) ∨
         ((∀ j, j < 72 → ¬ (p.fused (d * 72 + j) = false ∧ p.fget F.fenSlabRepairPriorityValid (d * 72 + j) = 1)) ∧
            let n := p.dredgeNext d (x.nextFen % 72) x.nextRegion
            y.fen = d * 72 + n.1 ∧ y.region = n.2.1 ∧ y.nextRegion = n.2.1 + 1 ∧ y.phase = (if n.2.1 < 2560 then 1 else 4))) ∧
        (∃ r, (t.pkg.fen y.fen).slab.pb = (p.fen y.fen).slab.pb ++ [r] ∧ r.master = .dredge ∧
          (y.phase = 1 → r.kind = .save ∧ r.addr = y.region * 4096))) ∧
    (x.phase = 2 → 160 ≤ x.done → x.failed = false → Does (.dredgeMarchDone d) s fun t =>
      (t.pkg.dredge d).phase = 3 ∧ (t.pkg.dredge d).restoreTo = x.restoreTo ∧ t.pkg.evq = p.evq ∧
      ∃ r, (t.pkg.fen x.fen).slab.pb = (p.fen x.fen).slab.pb ++ [r] ∧ r.kind = .restore ∧ r.addr = x.region * 4096) ∧
    (∀ k, x.phase = 2 → 160 ≤ x.done → x.failed = true → k < 64 → x.row < 2560 → x.region < 2560 →
      (∀ j, j < k → p.fget (F.fenSlabRmapValid.nth j) x.fen = 1 ∨ p.fget (F.fenSlabRmapRetired.nth j) x.fen = 1) →
      p.fget (F.fenSlabRmapValid.nth k) x.fen = 0 → p.fget (F.fenSlabRmapRetired.nth k) x.fen = 0 →
      Does (.dredgeMarchDone d) s fun t =>
        (t.pkg.dredge d).phase = 3 ∧ (t.pkg.dredge d).restoreTo = 2560 + k ∧
        t.pkg.fget (F.fenSlabRmapValid.nth k) x.fen = 1 ∧ t.pkg.fget (F.fenSlabRmapRow.nth k) x.fen = x.region ∧
        t.pkg.fget F.dredgeStatRowsFailed d = satAdd 16 (p.fget F.dredgeStatRowsFailed d) 1 ∧
        p.Logged t.pkg .dredge d 0x0063 (p.local_ x.fen) x.region) ∧
    (x.phase = 2 → 160 ≤ x.done → x.failed = true →
      (∀ j, j < 64 → p.fget (F.fenSlabRmapValid.nth j) x.fen = 1 ∨ p.fget (F.fenSlabRmapRetired.nth j) x.fen = 1) →
      Does (.dredgeMarchDone d) s fun t =>
        (t.pkg.dredge d).phase = 3 ∧ (t.pkg.dredge d).restoreTo = x.restoreTo ∧ t.pkg.fget F.fenSlabRepairSparesOut x.fen = 1 ∧
        t.pkg.fget F.dredgeStatUnrepaired d = satAdd 16 (p.fget F.dredgeStatUnrepaired d) 1 ∧
        bit (t.pkg.reg .chip 0 0x120) 1 = true) ∧
    (x.phase = 3 → x.done = 8 → Does (.dredgeRegionEnd d) s fun t =>
      (t.pkg.dredge d).phase = 0 ∧ (t.pkg.dredge d).redirect = [] ∧
      (let n := p.dredgeNext d (x.nextFen % 72) x.nextRegion
       (t.pkg.dredge d).nextRegion = (if n.2.2 then n.2.1 else x.nextRegion) ∧
       (t.pkg.dredge d).nextFen = (if n.2.2 then n.1 else x.nextFen) ∧
       t.pkg.fget F.dredgePosPasses d = satAdd (F.dredgePosPasses.hi + 1 - F.dredgePosPasses.lo) (p.fget F.dredgePosPasses d)
         (if n.2.2 then 1 else 0)) ∧
      (x.failed = true → x.restoreTo ≠ x.row → p.Logged t.pkg .dredge d 0x0064 (p.local_ x.fen) x.region ∧
        t.pkg.fget F.dredgeStatRepairs d = satAdd 16 (p.fget F.dredgeStatRepairs d) 1) ∧ t.pkg.fens = p.fens) ∧
    (∀ care v, Does (.dredgeEnableWrite d care v) s fun t =>
      t.pkg.fget F.dredgeCfgEnable d = (if care then (if v then 1 else 0) else p.fget F.dredgeCfgEnable d) ∧
      t.pkg.fget F.dredgeCfgInterval d = p.fget F.dredgeCfgInterval d ∧ p.Keeps t.pkg p { regs := [F.dredgeCfgEnable.at_ d] })

/-- O26. R235, R237, R239: data that arrives enters its atom of its entry, other entries as they are; the last atom of a
discarded entry frees its slot and its data is dropped; an acceptance is noted in its write entry. The model's readings and
choices it rests on: log entries 13, 107, 133 and 137. -/
def Obligations.SluiceReturns : Prop :=
  ∀ (i : Nat) (r : DRet) (k : Nat) (s : State), s.pkg.on = true →
    let p := s.pkg
    let l := (p.fen r.fen).sluice r.slu
    (p.nthReturn false i = some (r, k) → Does (.sluiceDataArrival i) s fun t =>
      let l2 := (t.pkg.fen r.fen).sluice r.slu
      t.pkg.dram.returns = dropAt p.dram.returns k ∧
      (∀ e ∈ l, e.id ≠ r.ent → (e.dead = false ∨ e.atoms.length < 8 * e.beats) → e ∈ l2) ∧
      (∀ e ∈ l, e.id = r.ent → e.dead = false → { e with atoms := AMap.put e.atoms r.atom r.data } ∈ l2) ∧
      (∀ e ∈ l, e.id = r.ent → e.dead = true → 8 * e.beats ≤ (AMap.put e.atoms r.atom (⟨[], false⟩ : Beat)).length →
        { e with atoms := AMap.put e.atoms r.atom (⟨[], false⟩ : Beat) } ∉ l2) ∧
      (∀ n, n ≠ r.slu → (t.pkg.fen r.fen).sluice n = (p.fen r.fen).sluice n) ∧ (∀ j, j ≠ r.fen → t.pkg.fen j = p.fen j) ∧
      p.Keeps t.pkg { p with dram := { p.dram with returns := t.pkg.dram.returns } } { fens := [r.fen] }) ∧
    (p.nthReturn true i = some (r, k) → Does (.sluiceWriteAccept i) s fun t =>
      let l2 := (t.pkg.fen r.fen).sluice r.slu
      t.pkg.dram.returns = dropAt p.dram.returns k ∧ l2.map SlEnt.id = l.map SlEnt.id ∧
      (∀ e ∈ l, e.id ≠ r.ent → e ∈ l2) ∧
      (∀ e ∈ l, e.id = r.ent → ∃ z ∈ l2, z.id = e.id ∧ r.atom ∈ z.accepted ∧ z.atoms = e.atoms ∧ z.ready = e.ready) ∧
      p.Keeps t.pkg { p with dram := { p.dram with returns := t.pkg.dram.returns } } { fens := [r.fen] })

/-- O27. R237, R244, R245, R246, R254, R258: a controller serves a request: a read returns the eight words of its atom, a
write stores them, poisoned where the atom is, and every other word stays; the row is then the open one. The atom read goes
back in a flit of VC2 with up to three others of its request; the acceptance of a write goes to its sluice. R249, R250, R252,
R253: in a window of the image its planning bank is under refresh until the window's end, and its rows close; without a plan
a controller refreshes on its own; a band above the covered one sets DEFICIT, logged with bit 8, and 2 °C below the covered
band's limit clears it. The model's readings and choices it rests on: log entries 13, 19, 21, 45, 107, 133 and 138. -/
def Obligations.MemoryServiceAndRefresh : Prop :=
  ((∀ (st : Fin 8) (i k : Nat) (r : DReq) (s : State), s.pkg.on = true → s.pkg.dramFree st i k r →
    let p := s.pkg
    let a := r.addr % 2 ^ 39
    let m := sdramMap r.addr
    (r.write = true → r.data.bytes.length = 64 → Does (.dramRequestService st i) s fun t =>
      t.pkg.dram.queue = dropAt p.dram.queue k ∧
      (r.fen < 288 → ∃ x, t.pkg.dram.returns = p.dram.returns ++ [x] ∧ x.fen = r.fen ∧ x.slu = r.slu ∧ x.ent = r.ent ∧
        x.atom = r.atom ∧ x.write = true) ∧
      (288 ≤ r.fen → t.pkg.dram.returns = p.dram.returns) ∧
      (∀ j, j < 8 → t.pkg.dramWord (a + 8 * j) = if r.data.poison then .bad else .ok (leAt r.data.bytes (8 * j) 8)) ∧
      (∀ b, b + 8 ≤ a ∨ a + 64 ≤ b → t.pkg.dramWord b = p.dramWord b) ∧ t.pkg.dram.peat = p.dram.peat ∧ t.pkg.fens = p.fens) ∧
    (∀ l, r.write = false → p.logOf r.fen = some l → p.attachFits l r → inWpt (a % 2 ^ 36) = false → (∀ j, j < 8 → ∃ d, p.dramWord (a + 8 * j) = .ok d) →
      Does (.dramRequestService st i) s fun t =>
        t.pkg.dram.queue = dropAt p.dram.queue k ∧ t.pkg.dram.mem = p.dram.mem ∧ t.pkg.fens = p.fens ∧
        (∃ x : DRet, p.goesBack t.pkg k r l x ∧ x.fen = r.fen ∧ x.slu = r.slu ∧ x.ent = r.ent ∧ x.atom = r.atom ∧
          x.write = false ∧ x.bad = [] ∧ x.data.poison = false ∧
          ∀ j, j < 8 → p.dramWord (a + 8 * j) = .ok (leAt x.data.bytes (8 * j) 8)) ∧
        (t.pkg.stack st).banks.getD m.bank ⟨0, 0⟩ = ⟨m.sid * 2 ^ 14 + m.row, p.refCount⟩)) ∧
  (∀ (i k : Nat) (r : DReq) (s : State), s.pkg.on = true →
    nthReq (fun r => decide (r.cls = 1)) s.pkg.dram.queue i = some (k, r) →
    (∀ z ∈ s.pkg.dram.queue.take k, z.cls = 1 → z.addr = r.addr → (z.fen, z.slu) ≠ (r.fen, r.slu)) →
    let p := s.pkg
    let a := r.addr % 2 ^ 41
    (r.write = true → r.data.bytes.length = 64 → Does (.peatRequestService i) s fun t =>
      t.pkg.dram.queue = dropAt p.dram.queue k ∧
      (∀ j, j < 64 → t.pkg.dram.peat.byte (a + j) = if r.data.poison then 0#8 else r.data.bytes.getD j 0#8) ∧
      (∀ b, b < a ∨ a + 64 ≤ b → t.pkg.dram.peat.byte b = p.dram.peat.byte b) ∧
      t.pkg.dram.peatBad.getD a 0 = (if r.data.poison then 2 else 0) ∧ t.pkg.dram.mem = p.dram.mem) ∧
    (∀ l, r.write = false → p.logOf r.fen = some l → p.attachFits l r → p.dram.peatBad.getD a 0 = 0 → Does (.peatRequestService i) s fun t =>
      t.pkg.dram.queue = dropAt p.dram.queue k ∧ t.pkg.dram.peat = p.dram.peat ∧
      (∃ x : DRet, p.goesBack t.pkg k r l x ∧ x.fen = r.fen ∧ x.slu = r.slu ∧ x.ent = r.ent ∧ x.atom = r.atom ∧
        x.data = ⟨p.dram.peat.read a 64, false⟩) ∧ t.pkg.evq = p.evq))) ∧
  (∀ (st : Fin 8) (s : State), s.pkg.on = true →
    let p := s.pkg
    let closed (bank until_ : Nat) (t : State) : Prop :=
      (t.pkg.stack st).refresh.getD bank 0 = until_ ∧ (∀ b ∈ (t.pkg.stack st).banks, b.1 % 16 ≠ bank) ∧
      (∀ b ∈ (p.stack st).banks, b.1 % 16 ≠ bank → b ∈ (t.pkg.stack st).banks) ∧ (∀ j, j ≠ st.val → t.pkg.stack j = p.stack j) ∧
      t.pkg.dram.mem = p.dram.mem ∧ t.pkg.fens = p.fens ∧ t.pkg.regs = p.regs
    (∀ bank c w, p.job.cur = some c → p.planRuns = true → p.fitted st = true →
      (c.tab.refresh.find? fun w => decide (w.2.1 = st.val) && decide (w.2.2 = bank) &&
        decide (w.1 ≤ p.refCount - p.stepStart (p.stepOf p.refCount)) &&
        decide (p.refCount - p.stepStart (p.stepOf p.refCount) < w.1 + 160)) = some w →
      Does (.refreshWindow st bank) s
        (closed bank (p.refCount - (p.refCount - p.stepStart (p.stepOf p.refCount)) + w.1 + 160))) ∧
    (∀ bank, p.planRuns = false → p.fitted st = true → bank < 16 → (p.stack st).selfRefresh = false →
      Does (.ownRefresh st bank) s (closed bank (p.refCount + Config.jedecRefresh))) ∧
    (∀ temp, temp < 256 → p.planRuns = true → p.fitted st = true →
      p.fget F.sdramThermCover st < (if temp ≤ 85 then 0 else if temp ≤ 95 then 1 else if temp ≤ 105 then 2 else 3) →
      p.fget F.sdramThermDeficit st = 0 → Does (.refreshDeficit st temp) s fun t =>
        t.pkg.fget F.sdramThermDeficit st = 1 ∧ t.pkg.fget F.sdramThermTempC st = temp ∧
        bit (t.pkg.reg .sdram st 0x020) 8 = true ∧ p.Logged t.pkg .sdram st 0x0074 p.tb1 0 ∧
        p.Keeps t.pkg p { regs := [F.sdramThermDeficit.at_ st] }) ∧
    (∀ temp, temp < 256 → temp + 2 ≤ (if p.fget F.sdramThermCover st = 0 then 85 else if p.fget F.sdramThermCover st = 1 then 95 else 105) →
      Does (.deficitClear st temp) s fun t =>
        t.pkg.fget F.sdramThermDeficit st = 0 ∧ t.pkg.fget F.sdramThermTempC st = temp ∧ p.Keeps t.pkg p { regs := [F.sdramThermDeficit.at_ st] }))

/-! Issyn links. -/

/-- O28. R286, R287: ENABLE, TRAIN, the begin of bring-up and the retry interval of a port that is DOWN begin full training
with 64 PINGs; clearing ENABLE empties the port and takes it to OFF; a training that fails or takes 400 ms ends in DOWN with
cause 1; one that passes ends in IDENTIFY with the lane maps of the lanes that passed, the spare in place of one that failed,
and in DOWN with cause LANES when three failed. The model's readings and choices it rests on: log entries 5, 32 and 34. -/
def Obligations.LinkTraining : Prop :=
  ∀ (n : Fin 16) (s : State), s.pkg.on = true →
    let p := s.pkg
    let x := p.port n
    let enter (st : PState) : Port := { x with state := st, since := p.tb1, sinceNs := p.rawNs }
    let down (t : State) : Prop := t.pkg.fget F.issynStatusDownCause n = 1 ∧ p.PortIs t.pkg n (enter .down) [F.issynStatusDownCause]
    let trains (tx rx : Nat) (l : List Fld) (t : State) : Prop :=
      t.pkg.fget F.issynTimingTxCorr n = tx ∧ t.pkg.fget F.issynTimingRxCorr n = rx ∧
      p.PortIs t.pkg n { enter .train with paths := [], pings := [], pendPing := (List.range 64).map fun i => 0#8 :: leBytes 8 i }
        ([F.issynTimingTxCorr, F.issynTimingRxCorr] ++ l)
    let up : Port := { enter .identify with pendPing := [], laneErr := [], blkBase := 0, blkAt := p.bell.raw }
    let lanes : List Fld := [F.issynLaneCfgTxFailed, F.issynLaneCfgRxFailed, F.issynLanemapTxMap, F.issynLanemapRxMap, F.issynStatusSpareUsed]
    (∀ v tx rx, Does (.portEnable n false v tx rx) s fun t => t.pkg = p) ∧
    (∀ tx rx, tx < 2 ^ 32 → rx < 2 ^ 32 → x.state = .off →
      Does (.portEnable n true true tx rx) s fun t => t.pkg.fget F.issynCtrlEnable n = 1 ∧ trains tx rx [F.issynCtrlEnable] t) ∧
    (∀ tx rx, Does (.portEnable n true false tx rx) s fun t => t.pkg.fget F.issynCtrlEnable n = 0 ∧
      t.pkg.fget F.issynStatusPartnerChanged n = 0 ∧
      p.PortIs t.pkg n { enter .off with stag := [], ordTx := 0, nextSeq := 0, replay := [], replayRun := 0, ordRx := 0, rx := [],
                                         gaps := [], nakDue := [], lastSlot := 0, transit := [], busy := 0, fenceFrom := 0 }
        [F.issynCtrlEnable, F.issynStatusPartnerChanged]) ∧
    (∀ tx rx, tx < 2 ^ 32 → rx < 2 ^ 32 → x.state ≠ .off → Does (.train n true tx rx) s (trains tx rx [])) ∧
    (∀ tx rx, tx < 2 ^ 32 → rx < 2 ^ 32 → x.state = .down →
      x.sinceNs + max 1 (p.fget F.issynCtrlRetryMs n) * 1000000 ≤ p.rawNs →
      Does (.train n false tx rx) s (trains tx rx [])) ∧
    (∀ care tx rx, tx < 2 ^ 32 → rx < 2 ^ 32 → x.state = .off → p.fget F.issynCtrlEnable n = 1 →
      Does (.train n care tx rx) s (trains tx rx [])) ∧
    (∀ txf rxf, x.state = .train → x.sinceNs + 400000000 < p.rawNs → Does (.trainDone n true txf rxf) s down) ∧
    (x.state = .train → x.sinceNs + 400000000 ≤ p.rawNs → Does (.trainTimeout n) s down) ∧
    (∀ txf rxf, x.state = .train → Does (.trainDone n false txf rxf) s down) ∧
    (x.state = .train → p.rawNs ≤ x.sinceNs + 400000000 → 64 ≤ x.paths.length → Does (.trainDone n true 0 0) s fun t =>
      t.pkg.fget F.issynLanemapTxMap n = 0x76543210 ∧ t.pkg.fget F.issynLanemapRxMap n = 0x76543210 ∧
      t.pkg.fget F.issynStatusSpareUsed n = 0 ∧ p.PortIs t.pkg n up lanes) ∧
    (∀ k, k < 8 → x.state = .train → p.rawNs ≤ x.sinceNs + 400000000 → 64 ≤ x.paths.length → Does (.trainDone n true (2 ^ k) 0) s fun t =>
      (∀ i, i < 8 → t.pkg.laneAt n F.issynLanemapTxMap i = if i = k then 8 else i) ∧
      t.pkg.fget F.issynLaneCfgTxFailed n = 2 ^ k ∧ t.pkg.fget F.issynStatusSpareUsed n = 1 ∧
      p.PortIs t.pkg n up lanes) ∧
    (∀ txf rxf, txf < 512 → 3 ≤ popcount 9 txf → x.state = .train → p.rawNs ≤ x.sinceNs + 400000000 → 64 ≤ x.paths.length → Does (.trainDone n true txf rxf) s fun t =>
      t.pkg.port n = enter .down ∧ t.pkg.fget F.issynStatusDownCause n = 4 ∧ bit (t.pkg.reg .chip 0 0x120) 2 = true)

/-- O29. R282, R286, R288, R290: loss of block lock takes a port that is UP to RETRAIN, counted and logged; an attempt fails
after 200 µs, and the last one of RETRAIN_LIMIT takes the port to DOWN with LINK_DOWN; 1,050,000 ticks in UP reset the count,
and nothing else does. The IDENT, within those 200 µs, of an unchanged partner takes the port to UP with every flit of its
replay buffer pending; a changed partner at a port that holds traffic sets PARTNER_CHANGED; a partner of another partition or
fenced sets FOREIGN. R287: a PING is answered before anything else, with its number and the receive stamp; the PONG of a PING
that is outstanding gives one path measurement ((e − a) − (c − b)) ÷ 2. The model's readings and choices it rests on: log
entries 5, 30, 32 and 35. -/
def Obligations.LinkRetrainAndPings : Prop :=
  (∀ (n : Fin 16) (s : State), s.pkg.on = true →
    let p := s.pkg
    let x := p.port n
    let enter (st : PState) : Port := { x with state := st, since := p.tb1, sinceNs := p.rawNs }
    let limit := max 1 (p.fget F.issynCtrlRetrainLimit n)
    (x.state = .up → Does (.blockLockLoss n) s fun t => p.PortIs t.pkg n (enter .retrain) [F.issynErrRetrains] ∧
      t.pkg.fget F.issynErrRetrains n = satAdd 8 (p.fget F.issynErrRetrains n) 1 ∧ p.Logged t.pkg .issyn n 0x0081 p.tb1 0) ∧
    (x.state ≠ .up → Does (.blockLockLoss n) s fun t => t.pkg = p) ∧
    (x.state = .retrain → x.sinceNs + 200000 ≤ p.rawNs → Does (.retrainTimeout n) s fun t =>
      if limit ≤ x.retrainFails + 1 then
        p.PortIs t.pkg n { enter .down with retrainFails := x.retrainFails + 1 } [F.issynStatusDownCause] ∧
        t.pkg.fget F.issynStatusDownCause n = 3 ∧ p.Logged t.pkg .issyn n 0x0082 p.tb1 0
      else p.PortIs t.pkg n { enter .retrain with retrainFails := x.retrainFails + 1 }) ∧
    (x.state = .up → x.since + 1050000 ≤ p.tb1 →
      Does (.retrainCountReset n) s fun t => p.PortIs t.pkg n { x with retrainFails := 0 }) ∧
    (∀ b, p.hearsCtl n 1 b → x.state = .retrain → x.sinceNs + 200000 < p.rawNs → Does (.ident n b) s fun t =>
      (t.pkg.port n).state = (if limit ≤ x.retrainFails + 1 then .down else .retrain) ∧
      (t.pkg.port n).retrainFails = x.retrainFails + 1) ∧
    (∀ b, p.hearsCtl n 1 b → x.state = .retrain → p.rawNs ≤ x.sinceNs + 200000 → x.paths = [] →
      let i := Ident.parse (flitPayload b)
      let foreign := i.part ≠ p.fget F.issynPartPartId n ∨ i.fence = true ∨ p.fget F.issynPartFence n = 1
      let same := ∃ o, x.partner = some o ∧ o.phys = i.phys ∧ o.port = i.port ∧ o.nonce = i.nonce ∧ o.part = i.part
      Does (.ident n b) s fun t =>
        t.pkg.port n = { enter .up with replay := x.replay.map (fun r => { r with pend := true, replays := 0 }), pendIdent := 1,
                                        partner := some i, lastIdent := some i } ∧
        (∀ j, j ≠ n.val → t.pkg.port j = p.port j) ∧
        t.pkg.fget F.issynPartnerValid n = 1 ∧ t.pkg.fget F.issynPartnerAddr n = i.phys ∧ t.pkg.fget F.issynStatusDownCause n = 0 ∧
        (foreign → t.pkg.fget F.issynStatusForeign n = 1) ∧ (¬ foreign → t.pkg.fget F.issynStatusForeign n = 0) ∧
        (same → t.pkg.fget F.issynStatusPartnerChanged n = p.fget F.issynStatusPartnerChanged n) ∧
        (¬ same → x.stag ≠ [] → t.pkg.fget F.issynStatusPartnerChanged n = 1))) ∧
  (∀ (n : Fin 16) (b : List Byte) (phase : Nat) (s : State),
    let p := s.pkg
    let x := p.port n
    (p.hearsCtl n 4 b → Does (.ping n b phase) s fun t =>
      p.PortIs t.pkg n { x with pendPing := (1#8 :: (leBytes 8 (leAt b 8 8) ++ leBytes 10 (wrapNat 80 (p.nomRx n phase)))) :: x.pendPing }) ∧
    (∀ a, p.hearsCtl n 5 b → AMap.find? x.pings (leAt b 8 8) = some a → Does (.pong n b phase) s fun t =>
      p.PortIs t.pkg n { x with pings := AMap.erase x.pings (leAt b 8 8),
                                paths := x.paths ++ [((p.nomRx n phase - (a : Int)) - sx 64 (leAt b 16 8)) / 2] }) ∧
    (p.hearsCtl n 5 b → AMap.find? x.pings (leAt b 8 8) = none → Does (.pong n b phase) s fun t => t.pkg = p))

/-- O30. R265, R292, R293: a receive lane's symbol errors are counted; it fails beyond SER_LIMIT of them, or when it loses
lock. A mapped lane that fails requests a swap while a spare is usable, else a narrowing; a third failed lane takes the port
DOWN. The transmitter grants a request with the block 256 after the present one of its count, refuses another while its own
change runs; at that boundary the spare takes the logical lane, or the port narrows. LANE_RETRY retests the failed lanes, and
a receive lane that passes asks to be added. The model's readings and choices it rests on: log entries 33, 35 and 127. -/
def Obligations.LinkLanes : Prop :=
  ∀ (n : Fin 16) (s : State), s.pkg.on = true →
    let p := s.pkg
    let x := p.port n
    let rxm := F.issynLanemapRxMap
    let rxf := F.issynLaneCfgRxFailed
    (∀ lane errs lost, lane < 9 → hasLane (p.fget rxf n) lane = true ∨ lost = false ∧ errs ≤ p.fget F.issynLaneCfgSerLimit n →
      Does (.laneFail n ⟨lane, errs, lost⟩) s fun t => p.PortIs t.pkg n { x with laneErr := AMap.put x.laneErr lane errs }) ∧
    (∀ lane errs lost, lane < 9 → hasLane (p.fget rxf n) lane = false → lost = true ∨ p.fget F.issynLaneCfgSerLimit n < errs →
      let y := { x with laneErr := AMap.put x.laneErr lane errs }
      let swaps := ∃ c ∈ x.changes, c.tx = false ∧ c.op = 1
      let m := p.fget rxf n + 2 ^ lane
      let mapped := ∃ i, i < 8 ∧ p.laneAt n rxm i = lane
      Does (.laneFail n ⟨lane, errs, lost⟩) s fun t =>
        t.pkg.fget rxf n = m ∧
        (¬ mapped → popcount 9 m < 3 → p.PortIs t.pkg n
          { y with changes := x.changes.map fun c => if c.tx = false ∧ c.granted = false ∧ c.op = 1 then { c with op := 2 } else c }
          [rxf]) ∧
        (3 ≤ popcount 9 m → (t.pkg.port n).state = .down ∧ t.pkg.fget F.issynStatusDownCause n = 4 ∧
          p.ErrRegs t.pkg .issyn n 0x0082 p.tb1 0) ∧
        (mapped → popcount 9 m < 3 → ∃ op, (op = 1 ∧ ¬ swaps ∧ (∃ l, l ≠ lane ∧ p.spareIs n rxm rxf l) ∨
            op = 2 ∧ (swaps ∨ ∀ l, l ≠ lane → ¬ p.spareIs n rxm rxf l)) ∧
          p.PortIs t.pkg n { y with changes := x.changes ++ [⟨op, lane, 0, false, false⟩] } [rxf])) ∧
    (∀ b, p.hearsCtl n 2 b → x.state = .up →
      let op := leAt (flitPayload b) 0 1
      let lane := leAt (flitPayload b) 1 1
      ((op = 1 ∨ op = 2 ∨ op = 3) → (∀ c ∈ x.changes, c.tx = false) → Does (.lane n b) s fun t =>
        let blk := (p.txBlocks n + 256) % 2 ^ 64
        p.PortIs t.pkg n { x with
          changes := x.changes ++ [⟨op, lane, blk, true, true⟩],
          pendLane := x.pendLane ++ [leBytes 1 4 ++ leBytes 1 lane ++ List.replicate 6 0#8 ++ leBytes 8 blk] }) ∧
      (∀ c, (op = 1 ∨ op = 2 ∨ op = 3) → x.changes.find? (fun c => c.tx) = some c → c.op ≠ op → Does (.lane n b) s fun t =>
        p.PortIs t.pkg n { x with pendLane := x.pendLane ++ [leBytes 1 5 ++ leBytes 1 lane] }) ∧
      (op = 4 → Does (.lane n b) s fun t => p.PortIs t.pkg n { x with changes := x.changes.map fun c =>
        if c.tx = false ∧ c.granted = false ∧ c.lane = lane then { c with granted := true, block := leAt (flitPayload b) 8 8 } else c })) ∧
    (∀ c r i, x.changes = c :: r → c.granted = true → (c.tx = true → c.block ≤ p.txBlocks n) → i < 8 →
      let y : Port := if c.tx then { x with blkBase := p.txBlocks n, blkAt := p.bell.raw } else x
      let mp := if c.tx then F.issynLanemapTxMap else rxm
      let fl := if c.tx then F.issynLaneCfgTxFailed else rxf
      p.laneAt n mp i = c.lane → c.lane < 9 → (∀ j, j < i → p.laneAt n mp j ≠ c.lane) →
      (∀ l, c.op = 1 → p.spareIs n mp fl l → (∀ k, k < l → ¬ p.spareIs n mp fl k) → Does (.laneMapChange n) s fun t =>
        (∀ j, j < 8 → t.pkg.laneAt n mp j = if j = i then l else p.laneAt n mp j) ∧ t.pkg.fget F.issynStatusSpareUsed n = 1 ∧
        p.Logged t.pkg .issyn n 0x0083 p.tb1 0 ∧ p.PortIs t.pkg n { y with changes := r } [mp, fl, F.issynStatusSpareUsed]) ∧
      (c.op = 2 → Does (.laneMapChange n) s fun t =>
        (∀ j, j < 8 → t.pkg.laneAt n mp j = if j = i then 15 else p.laneAt n mp j) ∧ t.pkg.fget F.issynStatusNarrow n = 1 ∧
        bit (t.pkg.reg .chip 0 0x120) 2 = true ∧ t.pkg.port n = { y with changes := r } ∧
        p.ErrRegs t.pkg .issyn n 0x0084 p.tb1 0)) ∧
    (Does (.laneRetry n true) s fun t =>
      let l := (List.range 9).filter (fun k => hasLane (p.fget rxf n) k) ++
        ((List.range 9).filter fun k => hasLane (p.fget F.issynLaneCfgTxFailed n) k).map fun k => 16 + k
      t.pkg.fget F.issynCtrlLaneRetry n = (if l = [] then 0 else 1) ∧ p.PortIs t.pkg n { x with retest := l } [F.issynCtrlLaneRetry]) ∧
    (∀ tx lane ok, (if tx then 16 + lane else lane) ∈ x.retest → Does (.laneRetestDone n tx lane ok) s fun t =>
      let l := x.retest.filter fun k => decide (k ≠ if tx then 16 + lane else lane)
      t.pkg.fget F.issynCtrlLaneRetry n = (if l = [] then 0 else 1) ∧
      p.PortIs t.pkg n { x with retest := l, changes := if ok = true ∧ tx = false then x.changes ++ [⟨3, lane, 0, false, false⟩] else x.changes }
        [F.issynCtrlLaneRetry])

/-- O31. R268, R272, R279, R280 to R283: a reserved slot sends the ready entry of ordinal J as a new flit and keeps it for
replay; a free slot sends the oldest pending replay, at most three in a row; a slot is served once, and one that the block of
an earlier flit fills, as on 7 lanes, sends nothing (R293). A cumulative ACK releases the replay buffer, a NAK and the
acknowledgement time-out schedule replays, and gaps that stay are named again, each from the tick in which an ACK flit named
it. The model's readings and choices it rests on: log entries 5 and 37. -/
def Obligations.LinkSending : Prop :=
  ∀ (n : Fin 16) (s : State), s.pkg.on = true → s.pkg.power.state < 2 →
    let p := s.pkg
    let x := p.port n
    let limit := max 1 (p.fget F.issynCtrlReplayLimit n)
    let late := p.fget F.issynLatencyLoopTicks n + 160
    (∀ id k, p.slotNow = some (id, k) →
      (x.lastSlot = id + 1 → Does (.issynSlot n) s fun t => t.pkg = p) ∧
      let clear := p.reach n id < p.slotUnits
      let sent := p.reach n id + p.blockUnits n
      (x.lastSlot ≠ id + 1 → ¬ clear → Does (.issynSlot n) s fun t =>
        p.PortIs t.pkg n { x with lastSlot := id + 1, busy := p.reach n id }) ∧
      (x.lastSlot ≠ id + 1 → clear → x.state = .down ∨ x.state = .off → Does (.issynSlot n) s fun t =>
        p.PortIs t.pkg n { x with lastSlot := id + 1, busy := sent }) ∧
      (∀ e, x.lastSlot ≠ id + 1 → clear → x.state = .up → p.drive = false → k ∈ p.slotTable n → p.dataOpen n = true →
        AMap.find? x.stag (x.ordTx % 1024) = some e → p.entryReady n = true → x.replay.length < 1024 →
        let b := mkFlit ((if e.null then 2 else 0) + x.nextSeq * 4 + e.vc % 4 * 2 ^ 14 + p.fget F.issynPartPartId n * 2 ^ 16 +
          e.dest % 2 ^ 14 * 2 ^ 24 + e.space % 2 * 2 ^ 38 + e.addr % 2 ^ 24 * 2 ^ 39 +
          (if e.poison = true ∧ e.null = false then 2 ^ 63 else 0)) (if e.null then [] else e.payload)
        Does (.issynSlot n) s fun t => flitGood b = true ∧
          p.PortIs t.pkg n { x with lastSlot := id + 1, busy := sent, stag := AMap.erase x.stag (x.ordTx % 1024), ordTx := x.ordTx + 1,
                                    nextSeq := (x.nextSeq + 1) % 4096, wire := (p.tb1, b) :: x.wire,
                                    replay := x.replay ++ [⟨x.nextSeq, b, p.tb1, 0, false⟩] }) ∧
      (∀ r, x.lastSlot ≠ id + 1 → clear → x.state = .up → k ∉ p.slotTable n → p.dataOpen n = true → x.replayRun < 3 →
        x.replay.find? (fun r => r.pend) = some r → Does (.issynSlot n) s fun t =>
          t.pkg.fget F.issynErrReplays n = satAdd 16 (p.fget F.issynErrReplays n) 1 ∧
          p.PortIs t.pkg n { x with lastSlot := id + 1, busy := sent, replayRun := x.replayRun + 1, wire := (p.tb1, r.bytes) :: x.wire,
                                    replay := x.replay.map fun y =>
                                      if y.seq = r.seq then { y with pend := false, replays := y.replays + 1, lastSent := p.tb1 } else y }
            [F.issynErrReplays])) ∧
    (∀ b r l, flitGood b = true → flitKind b = 1 → flitCtype b = 0 → x.state = .up → flitAckValid b = true → x.replay = r :: l →
      leAt (flitPayload b) 0 1 = 0 →
      let d := (flitAck b + 4096 - r.seq) % 4096
      Does (.ack n b) s fun t => if d < x.replay.length then p.PortIs t.pkg n { x with replay := x.replay.drop (d + 1) } else t.pkg = p) ∧
    (∀ b r, p.hearsCtl n 0 b → leAt (flitPayload b) 0 1 = 1 →
      let seq := leAt (flitPayload b) 2 2 % 4096
      x.replay.find? (fun r => decide (r.seq = seq)) = some r → r.pend = false → r.replays < limit → Does (.ack n b) s fun t =>
        p.PortIs t.pkg n { x with replay := x.replay.map fun y => if y.seq = seq then { y with pend := true } else y }) ∧
    (∀ b r, p.hearsCtl n 0 b → leAt (flitPayload b) 0 1 = 1 →
      x.replay.find? (fun r => decide (r.seq = leAt (flitPayload b) 2 2 % 4096)) = some r → r.pend = false → limit ≤ r.replays →
      Does (.ack n b) s fun t => p.PortIs t.pkg n { x with state := .retrain, since := p.tb1, sinceNs := p.rawNs } [F.issynErrRetrains]) ∧
    ((x.replay.map TxRec.seq).Nodup → (∀ r ∈ x.replay, r.replays < limit) → Does (.replayTimeout n) s fun t =>
      p.PortIs t.pkg n { x with replay := x.replay.map fun r => if r.lastSent + late < p.tb1 then { r with pend := true } else r }) ∧
    (Does (.nakRepeat n) s fun t =>
      let y := t.pkg.port n
      p.PortIs t.pkg n { x with nakDue := y.nakDue } ∧
      (∀ o ∈ x.nakDue, o ∈ y.nakDue) ∧ (∀ g ∈ x.gaps, g.2 + late ≤ p.tb1 → g.1 ∈ y.nakDue)) ∧
    (let y := (p.sendAck n).port n
     y.gaps.map Prod.fst = x.gaps.map Prod.fst ∧ y.nakDue = x.nakDue.drop 32 ∧
     ∀ g ∈ x.gaps, (if g.1 ∈ x.nakDue.take 32 then (g.1, p.tb1) else g) ∈ y.gaps)

/-- O32. R266, R283, R284, R315: a block with a bad CRC is counted and dropped; a data flit in the window enters the receive
buffer under its ordinal and E advances past it when it is the next one; a flit of another partition is counted and dropped.
The earliest flit that is due leaves the port, for the slab that the rank table and its address name, or with SPACE 1 for the
stacked DRAM as write requests on VC2. The model's readings and choices it rests on: log entries 5, 36 and 76. -/
def Obligations.LinkReceiving : Prop :=
  (∀ (n : Fin 16) (corr lost : Nat) (b : List Byte) (s : State), s.pkg.on = true → s.pkg.power.state < 2 →
    let p := s.pkg
    let x := p.port n
    let d := (flitSeq b + 4096 - x.ordRx % 4096) % 4096
    let fec (t : State) : Prop :=
      t.pkg.fget F.issynFecCorrected n = satAdd 32 (p.fget F.issynFecCorrected n) corr ∧
      t.pkg.fget F.issynFecUncorrectable n = satAdd 16 (p.fget F.issynFecUncorrectable n) lost
    let fecs : List Fld := [F.issynFecCorrected, F.issynFecUncorrectable]
    let matched := flitPart b = p.fget F.issynPartPartId n ∧ p.fenced n = false ∧ p.fget F.issynStatusForeign n = 0
    (x.state ≠ .up → Does (.issynFlitReceive n corr lost b) s fun t => t.pkg = p) ∧
    (x.state = .up → flitGood b = false → Does (.issynFlitReceive n corr lost b) s fun t => fec t ∧
      t.pkg.fget F.issynErrCrcErr n = satAdd 16 (p.fget F.issynErrCrcErr n) 1 ∧ p.PortIs t.pkg n x (F.issynErrCrcErr :: fecs)) ∧
    (x.state = .up → flitGood b = true → flitKind b = 0 ∨ flitKind b = 2 → ¬ matched → Does (.issynFlitReceive n corr lost b) s fun t =>
      fec t ∧ t.pkg.fget F.issynErrForeignDrop n = satAdd 8 (p.fget F.issynErrForeignDrop n) 1 ∧
      p.PortIs t.pkg n { x with lastData := some p.rawNs } (F.issynErrForeignDrop :: fecs)) ∧
    (x.state = .up → flitGood b = true → flitKind b = 0 ∨ flitKind b = 2 → matched → p.fget F.issynStatusPartnerChanged n = 0 →
      d < 1024 → (∀ r ∈ x.rx, r.ord ≠ x.ordRx + d) → x.rxHeld < 1024 → p.rxTable n ≠ [] →
      Does (.issynFlitReceive n corr lost b) s fun t =>
        let y := t.pkg.port n
        fec t ∧ (∃ r ∈ y.rx, r = ⟨x.ordRx + d, b, p.refCount, false, none, false⟩) ∧ x.ordRx ≤ y.ordRx ∧ (d = 0 → x.ordRx < y.ordRx) ∧
        (∀ r ∈ x.rx, r.delivered = false → r ∈ y.rx) ∧
        p.PortIs t.pkg n { x with lastData := some p.rawNs, ordRx := y.ordRx, rx := y.rx, gaps := y.gaps, nakDue := y.nakDue } fecs)) ∧
  (∀ (n : Fin 16) (s : State) (r : RxRec) (f : Nat), s.pkg.on = true →
    let p := s.pkg
    let x := p.port n
    let e := p.rank.getD (flitDest r.bytes) 0#64
    let a := flitAddr r.bytes
    x.rx = [r] → r.delivered = false → r.transit = none → r.ord < x.ordRx → x.gaps = [] → x.nakDue = [] →
    p.dueTick n r.ord ≤ p.refCount → r.arrived ≤ p.dueTick n r.ord ∨ r.arrived < p.refCount → flitKind r.bytes = 0 →
    bit e 1 = true → bit e 2 = false →
    (p.physOf ((portIn p.meshW n).1 * p.meshW + (portIn p.meshW n).2)).isSome = true →
    (flitSpace r.bytes = 0 → p.physOf (nbits a 23 16) = some f → nbits a 15 0 < 40960 → Does (.issynDelivery n) s fun t =>
      (∃ m, t.pkg.mesh = p.mesh ++ [m] ∧ m.dst = .fen (nbits a 23 16) ∧ m.addr = 256 * nbits a 15 0 ∧ m.len = 240 ∧
        m.arr = p.dueTick n r.ord + hopFromPort p.meshW n (nbits a 23 16) ∧
        m.data = ⟨flitPayload r.bytes, flitPoison r.bytes⟩ ∧ m.src = 292 + n.val) ∧
      t.pkg.port n = { x with rx := [] } ∧ (∀ j, j ≠ n.val → t.pkg.port j = p.port j) ∧
      p.Keeps t.pkg { p with ports := t.pkg.ports, mesh := t.pkg.mesh } {}) ∧
    (let o := nbits a 23 21 * 2 ^ 36 + (match p.job.cur with | some c => c.dramBase | none => 0) + 256 * nbits a 20 0
     flitSpace r.bytes = 1 → p.atomMapped 0 o true = true → Does (.issynDelivery n) s fun t =>
       t.pkg.port n = { x with rx := [] } ∧ t.pkg.fens = p.fens ∧
       ∀ k, k < 4 → ∃ m ∈ t.pkg.mesh.drop p.mesh.length, m.vc = 2 ∧ m.src = 292 + n.val ∧ m.dst = p.attachOf 0 0 (o + 64 * k) ∧
         ∃ q ∈ m.reqs, q.write = true ∧ q.cls = 0 ∧ q.addr = o + 64 * k ∧
           q.data = ⟨sliceB (flitPayload r.bytes) (64 * k) (if k = 3 then 48 else 64), flitPoison r.bytes⟩))

/-- O33. R319, R320: the Caretaker alone writes PART: FENCE goes on and off at any time, and one set acts from the next slot
boundary; PART_ID changes only at a fenced port that is empty, and a write turned away is logged; a change has the port send
IDENT. The model's readings and choices it rests on: log entry 5. -/
def Obligations.Partitions : Prop :=
  ∀ (n : Fin 16) (v : Nat) (s : State), s.pkg.on = true → v < 256 →
    let p := s.pkg
    let x := p.port n
    let id := p.fget F.issynPartPartId n
    let fence := p.fget F.issynPartFence n
    let empty := x.stag = [] ∧ x.replay = [] ∧ ∀ r ∈ x.rx, r.delivered = true ∧ r.transit = none
    let becomes (i f : Nat) (t : State) : Prop := t.pkg.fget F.issynPartPartId n = i ∧ t.pkg.fget F.issynPartFence n = f ∧
      p.PortIs t.pkg n (if i = id ∧ f = fence then x
        else { x with pendIdent := 1, fenceFrom := if f = 1 ∧ fence ≠ 1 then p.nextSlot else x.fenceFrom }) [F.issynPartPartId, F.issynPartFence]
    (∀ c ∈ [Instr.fenceSet n false, .fenceClear n false, .partIdWrite n false v], Does c s fun t => t.pkg = p) ∧
    Does (.fenceSet n true) s (becomes id 1) ∧ Does (.fenceClear n true) s (becomes id 0) ∧
    (fence = 1 ∧ empty ∨ v = id → Does (.partIdWrite n true v) s (becomes v fence)) ∧
    (v ≠ id → ¬ (fence = 1 ∧ empty) → Does (.partIdWrite n true v) s fun t =>
      p.Logged t.pkg .issyn n 0x0092 p.tb1 0 ∧ p.PortIs t.pkg n x)

/-! The Bell. -/

/-- O34. R101, R102, R103: a served port's SYNC falls due once per interval and voids an open exchange; SYNC is stamped by
the bases whose master port and base it names, and voids an exchange at the others; FOLLOW_UP gives t1 and sends DELAY_REQ;
DELAY_REQ gives t4, which DELAY_RESP carries; a message of no known type voids the exchange it belongs to. The first SYNC on
a port newly served is due at once (log entry 112). The model's readings and choices it rests on: log entries 5, 25, 26 and
112. -/
def Obligations.BellMessages : Prop :=
  ∀ (n : Fin 16) (s : State), s.pkg.on = true →
    let p := s.pkg
    let y := p.port n
    let sends (msg : List Byte) (t : State) : Prop :=
      t.pkg.port n = { y with pendBell := y.pendBell ++ [msg] } ∧ ∀ j, j ≠ n.val → t.pkg.port j = p.port j
    (∀ d, bit (p.reg .bell 0 (if d then 0x198 else 0x158)) n = false → Does (.bellSync d n) s fun t => t.pkg = p) ∧
    (∀ d, bit (p.reg .bell 0 (if d then 0x198 else 0x158)) n = true →
      let k := (p.tb d).count / 2 ^ p.interval d
      let go (id void : Nat) : Prop := Does (.bellSync d n) s fun t =>
        sends (p.bellMsg 1 d id 0) t ∧ t.pkg.fget (voidF d) 0 = satAdd 16 (p.fget (voidF d) 0) void ∧
        p.BaseIs t.pkg { p with ports := t.pkg.ports } d
          { p.tb d with masters := AMap.put (p.tb d).masters n ⟨id, k, false, 0, false⟩ } [voidF d]
      (AMap.find? (p.tb d).masters n = none → go (if d then 1 else 0) 0) ∧
      (∀ x, AMap.find? (p.tb d).masters n = some x → x.due ≠ k → go ((x.id + 2) % 65536) (if x.closed then 0 else 1)) ∧
      (∀ x, AMap.find? (p.tb d).masters n = some x → x.due = k → Does (.bellSync d n) s fun t => t.pkg = p)) ∧
    (∀ b phase, p.bellIn n 1 b → Does (.sync n b phase) s fun t =>
      let m := flitPayload b
      (∀ d, p.master d = .port n → leAt m 1 1 = 1 + p.fget (masterBaseF d) 0 →
        t.pkg.tb d = { p.tb d with slave := some { id := leAt m 4 2, port := n, t1 := 0, t2 := p.stampRx n d phase, t3 := 0, gotT1 := false,
                                                   gotT3 := false, steps := leAt m 6 2, ratio := leAt m 2 1,
                                                   valid := bit (BitVec.ofNat 8 (leAt m 3 1)) 0, base := leAt m 1 1, gm := leAt m 8 8 } } ∧
        t.pkg.fget (voidF d) 0 = satAdd 16 (p.fget (voidF d) 0) (if (p.tb d).slave.isSome then 1 else 0)) ∧
      (∀ d, ¬ (p.master d = .port n ∧ leAt m 1 1 = 1 + p.fget (masterBaseF d) 0) →
        t.pkg.tb d = p.tb d ∧ t.pkg.fget (voidF d) 0 = satAdd 16 (p.fget (voidF d) 0) 1) ∧
      p.Only t.pkg { p with bell := { p.bell with tb1 := t.pkg.bell.tb1, tb2 := t.pkg.bell.tb2 } } 0 [voidF false, voidF true]) ∧
    (∀ b d x, p.bellIn n 2 b → (p.tb d).slave = some x → (p.tb !d).slave = none → x.port = n → x.id = leAt (flitPayload b) 4 2 →
      x.base = leAt (flitPayload b) 1 1 → Does (.followUp n b) s fun t =>
        sends (p.bellMsg 3 d x.id 0) t ∧ p.BaseIs t.pkg { p with ports := t.pkg.ports } d
          { p.tb d with slave := some { x with t1 := (leAt (flitPayload b) 16 8 * 65536 + leAt (flitPayload b) 24 2 : Nat), gotT1 := true } }) ∧
    (∀ b phase d x, p.bellIn n 3 b → AMap.find? (p.tb d).masters n = some x → AMap.find? (p.tb !d).masters n = none →
      x.id = leAt (flitPayload b) 4 2 → x.sent = true → x.closed = false → Does (.delayReq n b phase) s fun t =>
        sends (p.bellMsg 4 d x.id (p.stampRx n d phase)) t ∧ p.BaseIs t.pkg { p with ports := t.pkg.ports } d
          { p.tb d with masters := AMap.put (p.tb d).masters n { x with closed := true } }) ∧
    (∀ b ty phase d x, p.bellIn n ty b → (ty = 0 ∨ 4 < ty) → (p.tb d).slave = some x → (p.tb !d).slave = none →
      AMap.find? (p.tb !d).masters n = none → x.port = n → x.id = leAt (flitPayload b) 4 2 → x.base = leAt (flitPayload b) 1 1 →
      Does (.sync n b phase) s fun t =>
        p.BaseIs t.pkg p d { p.tb d with slave := none } [voidF d] ∧
        t.pkg.fget (voidF d) 0 = satAdd 16 (p.fget (voidF d) 0) 1)

/-- O35. R103, R104: DELAY_RESP completes the exchange of a base. An incomplete or invalid one is void, one of another
throttle ratio is a mismatch, and neither changes anything else; the first one used moves the count by o, once; in LOCKED the
servo steers integ and TRIM, as it does in FOLLOW, and an offset beyond JUMP_NS is refused: the base goes to FREQ_ONLY,
counted and logged. The model's readings and choices it rests on: log entries 24, 25 and 113. -/
def Obligations.BellServo : Prop :=
  ∀ (n : Fin 16) (b : List Byte) (d : Bool) (x : SlaveX) (s : State),
    let p := s.pkg
    let m := flitPayload b
    let z := p.tb d
    let valid := bit (BitVec.ofNat 8 (leAt m 3 1)) 0
    let t4 : Int := (leAt m 16 8 * 65536 + leAt m 24 2 : Nat)
    let o := sx 64 (wrapNat 64 (((t4 - x.t3) - (x.t2 - x.t1)) / 2))
    let path := sx 64 (wrapNat 64 (((x.t2 - x.t1) + (t4 - x.t3)) / 2))
    let e := sx 64 (wrapNat 64 (sar (o * 2 ^ 24) (p.interval d)))
    let jump := max 1 (p.fget F.bellJumpJumpNs 0) * 65536 * periodDen < o.natAbs * p.periodNum
    let used : TBase := { z with slave := none, steps := leAt m 6 2 + 1, gm := leAt m 8 8, offset := o, path := path, lastUse := z.count }
    let go := Does (.delayResp n b) s
    p.bellIn n 4 b → z.slave = some x → (p.tb !d).slave = none → x.port = n → x.id = leAt m 4 2 → x.base = leAt m 1 1 →
    ((x.gotT1 && x.gotT3 && valid) = false → go fun t =>
      p.BaseIs t.pkg p d { z with slave := none } [voidF d] ∧ t.pkg.fget (voidF d) 0 = satAdd 16 (p.fget (voidF d) 0) 1) ∧
    ((x.gotT1 && x.gotT3 && valid) = true → leAt m 2 1 ≠ p.ratio → go fun t =>
      p.BaseIs t.pkg p d { z with slave := none } [mismatchF d] ∧ t.pkg.fget (mismatchF d) 0 = satAdd 16 (p.fget (mismatchF d) 0) 1) ∧
    ((x.gotT1 && x.gotT3 && valid) = true → leAt m 2 1 = p.ratio →
      (z.state = .free ∨ (z.state = .acquire ∧ z.phaseStepped = false) → go fun t =>
        let c := wrapNat 104 ((z.count : Int) * 2 ^ 40 + z.frac + o * 2 ^ 24)
        p.BaseIs t.pkg p d { used with state := .acquire, phaseStepped := true, prevO := 0, lockN := 0, acqN := 0,
                                       count := c / 2 ^ 40, frac := c % 2 ^ 40, lastUse := c / 2 ^ 40 }) ∧
      (z.state = .locked → ¬ jump → go fun t =>
        let i := clamp200 (z.integ + sar e (p.fget (kiF d) 0))
        p.BaseIs t.pkg p d
          { used with integ := i, trim := clamp200 (i + sar e (p.fget (kpF d) 0)), prevO := o, everLocked := true }) ∧
      (z.state = .follow → go fun t =>
        let i := clamp200 (z.integ + sar e (p.fget (kiF d) 0))
        p.BaseIs t.pkg p d { used with integ := i, trim := clamp200 (i + sar e (p.fget (kpF d) 0)), prevO := o }) ∧
      (z.state = .locked → jump → go fun t =>
        p.BaseIs t.pkg p d { used with state := .freqOnly, prevO := o } [jumpsF d] ∧
        t.pkg.fget (jumpsF d) 0 = satAdd 16 (p.fget (jumpsF d) 0) 1 ∧ p.Logged t.pkg .bell 0 0x0050 p.tb1 0))

/-- O36. R96, R107, R108, R109, R111, R581: only the Caretaker writes TB0, a new RATE makes the reading no step and an
adjustment moves it by its ns; a base that loses its master holds its rate, counted and logged; a new master port is logged
on a base that has locked, which keeps its rate and checks the new master's first exchange as in HOLD, while TB2 with nothing
armed or running on it acquires anew. With BELL_OUT_EN the pin is high for 64 reference periods from a step boundary, without
it tri-stated. The model's readings and choices it rests on: log entries 5 and 27. -/
def Obligations.BellTime : Prop :=
  ∀ (d : Bool) (v : W64) (s : State), s.pkg.on = true →
    let p := s.pkg
    let z := p.tb d
    (∀ c ∈ [Instr.tb0RateWrite false v, .tb0AdjWrite false v, .masterChange d false v], Does c s fun t => t.pkg = p) ∧
    (p.fget F.bellCtrlTb0Mode 0 = 0 → Does (.tb0RateWrite true v) s fun t =>
      t.pkg.tb0Raw = p.tb0Raw ∧ t.pkg.bell.anchor = p.bell.raw ∧ t.pkg.fget F.bellTb0Rate 0 = bits v 31 0 ∧
      p.Only t.pkg { p with bell := { p.bell with off0 := t.pkg.bell.off0, anchor := t.pkg.bell.anchor } } 0 [F.bellTb0Rate]) ∧
    (p.fget F.bellCtrlTb0Mode 0 = 0 → Does (.tb0AdjWrite true v) s fun t =>
      t.pkg.tb0Raw = p.tb0Raw + v.toInt * 2 ^ 32 ∧ t.pkg = { p with bell := { p.bell with off0 := t.pkg.bell.off0 } }) ∧
    (z.state = .acquire ∨ z.state = .locked ∨ z.state = .freqOnly →
      (∃ n, p.master d = .port n ∧ ((p.port n).state = .down ∨ (p.port n).state = .off)) ∨
        max 1 (p.fget F.bellJumpMissLimit 0) ≤ (z.count - z.lastUse) / 2 ^ p.interval d →
      Does (.timeMasterLost d) s fun t =>
        p.BaseIs t.pkg p d { z with state := .hold, trim := z.integ, slave := none } [lostF d] ∧
        t.pkg.fget (lostF d) 0 = satAdd 16 (p.fget (lostF d) 0) 1 ∧ p.Logged t.pkg .bell 0 0x0052 p.tb1 0) ∧
    (bits v 4 0 < 16 → bits v 4 0 ≠ p.fget (masterPortF d) 0 → z.state ≠ .self → Does (.masterChange d true v) s fun t =>
      t.pkg.fget (masterPortF d) 0 = bits v 4 0 ∧ t.pkg.fget (masterBaseF d) 0 = (if d then bits v 5 5 else p.fget (masterBaseF d) 0) ∧
      t.pkg.fget (intervalF d) 0 = bits v 10 6 ∧ t.pkg.fget (kpF d) 0 = bits v 14 11 ∧ t.pkg.fget (kiF d) 0 = bits v 18 15 ∧
      p.BaseIs t.pkg p d
        (if d = true ∧ p.armedTb2 = false then
          { z with slave := none, state := .acquire, phaseStepped := false, lockN := 0, acqN := 0, lastUse := z.count }
         else if z.everLocked = true ∨ (if d then p.armedTb2 else p.tb1Run && !p.drive) = true then
          { z with slave := none, state := if z.state = .locked ∨ z.state = .follow then z.state else .hold, lastUse := z.count }
         else { z with slave := none, lastUse := z.count })
        [masterPortF d, masterBaseF d, intervalF d, kpF d, kiF d] ∧
      (z.everLocked = true → p.Logged t.pkg .bell 0 0x0053 p.tb1 0) ∧ (z.everLocked = false → t.pkg.evq = p.evq)) ∧
    (bits v 4 0 = 16 → p.fget (masterPortF d) 0 ≠ 16 → Does (.masterChange d true v) s fun t =>
      (t.pkg.tb d).state = .self ∧ (t.pkg.tb d).everSelf = true ∧ (t.pkg.tb d).steps = 0 ∧ (t.pkg.tb d).gm = p.phys ∧ (t.pkg.tb d).trim = z.trim ∧
      (t.pkg.tb d).count = z.count ∧ t.pkg.tb (!d) = p.tb !d) ∧
    (p.fget F.bellCtrlBellOutEn 0 = 0 → p.bellOut = none) ∧
    (p.fget F.bellCtrlBellOutEn 0 = 1 → ∀ k, ((List.range k).foldl (fun u _ => u.bellEdge) p.bellPulse).bellOut = some (decide (k < 64)))

/-! Roll, rings, digest log, shadowing. -/

/-- O37. R333, R335, R336: a new SUBMIT is rejected with the first row that applies, or takes the lowest FREE entry as
QUEUED; a CANCEL marks the request it names or is rejected, with no vector (log entry 130); a scan of the area does for a new
record what its own row does. The model's readings and choices it rests on: log entries 77, 107, 129, 130 and 131. -/
def Obligations.RollIntake : Prop :=
  ∀ (i : Nat) (s : State), s.pkg.scanning' → i < 1024 → s.pkg.newIntake i → s.pkg.egFull = false → s.pkg.roll.upset = [] →
    let p := s.pkg
    let r := p.roll.intake.read (128 * i) 128
    let seqs := AMap.set 0 p.roll.lastSeq i (leAt r 0x7C 4)
    let quiet (k : Nat) := ∀ e ∈ p.roll.backlog, e.kind = 3 ∨ e.kind = 4 → e.entry ≠ k
    (leAt r 0 1 ≠ 2 → ∀ c v, p.submitCause r = some (c, v) → Does (.submit i) s fun t =>
      p.Egressed t.pkg [answerRec 2 c 0xFFFF i v r] ∧ t.pkg.roll.lastSeq = seqs ∧
      t.pkg.fget F.rollStatRejected 0 = satAdd 16 (p.fget F.rollStatRejected 0) 1 ∧
      (∀ k, quiet k → t.pkg.entry k = p.entry k) ∧ t.pkg.roll.slots = p.roll.slots ∧ t.pkg.fens = p.fens) ∧
    (leAt r 0 1 ≠ 2 → p.submitCause r = none →
      let k := firstFree 0 p.roll.entries
      quiet k → Does (.submit i) s fun t =>
        p.Egressed t.pkg [answerRec 1 0 k i 0 r] ∧ t.pkg.roll.lastSeq = seqs ∧ t.pkg.roll.acceptNo = p.roll.acceptNo + 1 ∧
        t.pkg.entry k = { REntry.ofRecord r with
          state := 1, arrival := p.tb0, acceptNo := p.roll.acceptNo % 2 ^ 32,
          deadline := if leAt r 0x14 4 = 0 then 2 ^ 64 - 1 else (p.tb0 + leAt r 0x14 4) % 2 ^ 64 } ∧
        (∀ j, j ≠ k → quiet j → t.pkg.entry j = p.entry j) ∧ t.pkg.roll.slots = p.roll.slots ∧ t.pkg.fens = p.fens) ∧
    (leAt r 0 1 = 2 →
      let k := leAt r 0x12 2
      let e := p.entry k
      quiet k → Does (.cancel i) s fun t =>
        t.pkg.roll.lastSeq = seqs ∧ (∀ j, j ≠ k → quiet j → t.pkg.entry j = p.entry j) ∧
        if (e.state = 1 ∨ e.state = 2) ∧ e.hostTag = leAt r 8 8 then
          t.pkg.entry k = { e with cancel := true } ∧
          p.Egressed t.pkg [{ answerRec 1 0 k i 0 r with hostTag := e.hostTag, vec := e.msix }]
        else t.pkg.entry k = e ∧ p.Egressed t.pkg [{ answerRec 2 0x25 0xFFFF i 0 r with vec := 0xFF }]) ∧
    ((∀ j, j < 1024 → j ≠ i → ¬ p.newIntake j) →
      exec .intakeScan s = exec (if leAt r 0 1 = 2 then .cancel i else .submit i) s)

/-- O38. R174, R330, R332, R337, R339, R353: a sampler record is kept for an ACTIVE home slot and counted as stray elsewhere.
At a boundary with one ACTIVE request and its one record, the token is committed and posted, and the request closes on a STOP
entry or at MAX_NEW. At the boundary after a DISARM the plan ends and no request is ACTIVE. An entry found with an
uncorrectable word closes its request with ROLL_UE, logged. The model's readings and choices it rests on: log entries 5, 53,
77 and 132. -/
def Obligations.RollBoundary : Prop :=
  (∀ (i : Nat) (r : SampRec) (s : State), s.pkg.on = true → s.pkg.roll.inbound[i]? = some r → r.due ≤ s.pkg.refCount →
    let p := s.pkg
    Does (.samplerRecordToRoll i) s fun t =>
      if p.homes.contains r.slot ∧ (p.bslot r.slot).state = 1 then
        t.pkg = { p with roll := { p.roll with inbound := dropAt p.roll.inbound i, recs := p.roll.recs ++ [r] } }
      else t.pkg.fget F.rollStatStray 0 = satAdd 16 (p.fget F.rollStatStray 0) 1 ∧
        p.Only t.pkg { p with roll := { p.roll with inbound := dropAt p.roll.inbound i } } 0 [F.rollStatStray]) ∧
  (∀ (s : State), s.pkg.on = true → s.pkg.boundaryDue = false →
    Does .stepBoundary s (fun t => t.pkg = s.pkg) ∧ Does .disarmEffect s (fun t => t.pkg = s.pkg)) ∧
  (∀ (n i : Nat) (e : REntry) (b : BSlot) (r : SampRec) (s : State), s.pkg.on = true → s.pkg.boundaryDue = true →
    let p := s.pkg
    let k := p.roll.lastStep
    p.job.disarmReq = false → p.dig.halted = false → p.scripted = false → p.dig.role = 0 → p.dig.pendingRole = 0 →
    p.roll = { p.roll with entries := [(i, e)], upset := [], slots := [(n, b)], recs := [r], inbound := [], changes := [], backlog := [],
                           intake := [] } →
    p.dig.reports = [] → p.homes = [n] → b.state = 1 → b.entry = i → e.state = 2 → e.slot = n → e.cancel = false → e.runDepth = 0 →
    r.due < p.stepStart k → r.slot = n → r.ridx = 0 → r.pos = e.promptLen + e.tokensOut → r.flags = 0 → p.egRoom = false →
    Does .stepBoundary s fun t =>
      let x := t.pkg.entry i
      let stop := r.token ≠ 0xFFFFFFFF ∧ r.token ∈ e.stops
      let last := e.maxNew ≤ e.tokensOut + 1
      let token : EgRec := { kind := 3, cause := 0, entry := i, intake := 0, hostTag := e.hostTag, value := r.token, pos := r.pos,
                             vec := e.msix, idx := 0, n := 1, batch := p.roll.batch }
      let final (c : Nat) : EgRec := { kind := 4, cause := c, entry := i, intake := 0, hostTag := e.hostTag, value := e.tokensOut + 1,
                                       pos := 0, vec := e.msix, idx := 0, n := 0, batch := p.roll.batch }
      t.pkg.roll.lastStep = k + 1 ∧ t.pkg.roll.recs = [] ∧ x.tokensOut = e.tokensOut + 1 ∧ x.committed = r.pos ∧
      x.lastTick = p.stepStart k ∧
      (stop → x.state = 3 ∧ x.cause = 2 ∧ (e.noAdapter = true → t.pkg.roll.backlog = [token, final 2])) ∧
      (¬ stop → last → x.state = 3 ∧ x.cause = 3 ∧ (e.noAdapter = true → t.pkg.roll.backlog = [token, final 3])) ∧
      (¬ stop → ¬ last → x.state = 2 ∧ t.pkg.roll.backlog = [token])) ∧
  (∀ (s : State), s.pkg.on = true → s.pkg.boundaryDue = true → s.pkg.job.disarmReq = true →
    Does .disarmEffect s fun t =>
      t.pkg.tb1Run = false ∧ t.pkg.drive = false ∧ t.pkg.job.disarmReq = false ∧ (∀ i, (t.pkg.entry i).state ≠ 2) ∧
      t.pkg.roll.slots = [] ∧ t.pkg.dig.role = 0) ∧
  (∀ (i : Nat) (p : Pkg), p.entryBad i = true → (p.entry i).state = 1 ∨ (p.entry i).state = 2 →
    let q := p.readEntry i
    (q.entry i).state = 3 ∧ (q.entry i).cause = 0x1A ∧ p.Logged q .roll 0 0x00A3 p.tb1 0)

/-- O39. R356, R357, R358, R361, R370, R374: the records of a slot for one boundary. Records beyond the run's depth D are
dropped and counted; unless RIDX 0 to D come once each with their positions the request fails with POSITION, with POISON or
MASKED when a record has that flag, and its lengths stay. Else the accepted drafts and the token after them are committed and
posted in order, up to the first stop or MAX_NEW, where the request closes; COMMITTED_LEN is the last position. One that goes
on has COMMITTED_LEN = PROMPT_LEN + TOKENS_OUT − 1, and for D ≥ 1 its estimate and depth as the controller sets them; the
next run has the least of DEPTH, SPEC_MAX and what MAX_NEW leaves, and 0 without SPEC_EN. No other entry, and no fen,
changes. -/
def Obligations.SpeculativeCommit : Prop :=
  ∀ (p : Pkg) (s tick : Nat) (recs : List SampRec),
    let i := (p.bslot s).entry
    let e := p.entry i
    let d := e.runDepth
    let b := e.promptLen + e.tokensOut
    let keep := recs.filter fun r => decide (r.ridx ≤ d)
    let q := p.commitSlot s tick recs
    let x := q.entry i
    let fails (c : Nat) : Prop := x = { e with state := 3, cause := c, slot := 0xFFFF }
    let once := (keep.map SampRec.ridx).Perm (List.range (d + 1)) ∧ ∀ r ∈ keep, r.pos = b + r.ridx
    (recs = [] → q = p) ∧
    (recs ≠ [] → p.roll.upset = [] → e.state = 2 →
      q.fget F.rollSpecStatExtra 0 = satAdd 16 (p.fget F.rollSpecStatExtra 0) (recs.length - keep.length) ∧
      (∀ j, j ≠ i → q.entry j = p.entry j) ∧ q.fens = p.fens ∧ q.dram = p.dram ∧
      (¬ once → fails 0x16) ∧
      (once → (∃ r ∈ keep, r.flags / 8 % 2 = 1) → fails 0x15) ∧
      (once → (∀ r ∈ keep, r.flags / 8 % 2 = 0) → (∃ r ∈ keep, r.flags / 16 % 2 = 1) → fails 0x17) ∧
      (∀ (run : Nat → SampRec) (a : Nat), once → (∀ r ∈ keep, r.flags / 8 % 2 = 0 ∧ r.flags / 16 % 2 = 0) →
        (∀ r, r ≤ d → run r ∈ keep ∧ (run r).ridx = r) → a ≤ d → (∀ r, r < a → (run r).flags % 2 = 1) →
        (a < d → (run a).flags % 2 = 0) →
        let stops (r : Nat) : Prop := (run r).token ≠ 0xFFFFFFFF ∧ (run r).token ∈ e.stops
        let full (r : Nat) : Prop := e.maxNew ≤ e.tokensOut + r + 1
        let token (n r : Nat) : EgRec :=
          { kind := 3, cause := 0, entry := i, intake := 0, hostTag := e.hostTag, value := (run r).token, pos := b + r,
            vec := e.msix, idx := r, n := n, batch := p.roll.batch }
        let final (c n : Nat) : EgRec :=
          { kind := 4, cause := c, entry := i, intake := 0, hostTag := e.hostTag, value := n, pos := 0, vec := e.msix,
            idx := 0, n := 0, batch := p.roll.batch }
        q.fget F.rollSpecStatRuns 0 = satAdd 24 (p.fget F.rollSpecStatRuns 0) (if d = 0 then 0 else 1) ∧
        q.fget F.rollSpecStatAccepted 0 = satAdd 24 (p.fget F.rollSpecStatAccepted 0) (if d = 0 then 0 else a) ∧
        (∀ j, j ≤ a → (∀ r, r < j → ¬ stops r ∧ ¬ full r) → stops j ∨ full j →
          x.state = 3 ∧ x.tokensOut = e.tokensOut + j + 1 ∧ x.committed = b + j ∧ x.prov = 0 ∧ (stops j → x.cause = 2) ∧
          (¬ stops j → x.cause = 3) ∧ (e.noAdapter = true →
            q.roll.backlog = p.roll.backlog ++ (List.range (j + 1)).map (token (j + 1)) ++ [final x.cause (e.tokensOut + j + 1)])) ∧
        ((∀ r, r ≤ a → ¬ stops r ∧ ¬ full r) →
          let sm := match p.armRec with | some z => z.1.specMax | none => 0
          let sh := max 1 (p.fget F.rollSpecCfgEstShift 0)
          let g := max 1 (p.fget F.rollSpecCfgGainMin 0)
          x.state = 2 ∧ x.tokensOut = e.tokensOut + a + 1 ∧ x.committed = b + a ∧ x.committed + 1 = x.promptLen + x.tokensOut ∧
          q.roll.backlog = p.roll.backlog ++ (List.range (a + 1)).map (token (a + 1)) ∧
          x.runDepth = (if e.specEn then min (min x.depth sm) (e.maxNew - x.tokensOut - 1) else 0) ∧ x.prov = x.runDepth + 1 ∧
          (d = 0 → x.depth = e.depth ∧ x.accEst = e.accEst ∧ x.runs = e.runs ∧ x.proposed = e.proposed ∧ x.accepted = e.accepted) ∧
          (d ≠ 0 → x.runs = satAdd 32 e.runs 1 ∧ x.proposed = satAdd 32 e.proposed d ∧ x.accepted = satAdd 32 e.accepted a ∧
            (x.accEst : Int) = (List.range (min a (d - 1) + 1)).foldl (fun (y : Int) r =>
              y + ((if r < a then 65536 else 0) - y) / ((2 ^ sh : Nat) : Int)) (e.accEst : Int) ∧
            1 ≤ x.depth ∧ x.depth ≤ 8 ∧ (∀ k, 1 ≤ k → k < x.depth → g ≤ powerEst x.accEst k) ∧
            (x.depth < 8 → powerEst x.accEst x.depth < g)))))

/-- O40. R343, R439: records and completions are posted oldest first while their ring has room, at HEAD modulo its size, with
the phase of the pass, and the vector is raised with the last record of its boundary or scan; a TAIL that would pass HEAD by
more than the ring is ignored, and another makes room. The model's readings and choices it rests on: log entry 5. -/
def Obligations.HostRings : Prop :=
  ∀ (s : State), s.pkg.on = true →
    let p := s.pkg
    let h := p.fget F.rollEgressHead 0
    let c0 := p.fget F.hostCplHeadIndex 0
    let phase (h size : Nat) : Nat := if h / 2 ^ size % 2 = 0 then 1 else 0
    (p.roll.backlog = [] ∨ p.egRoom = false → Does .egressPost s fun t => t.pkg = p) ∧
    (∀ e l, p.roll.backlog = e :: l → p.egRoom = true → p.roll.upset = [] →
      let a := p.fget F.rollEgressBase 0 + 32 * (h % 2 ^ p.egSize)
      a + 32 ≤ 2 ^ 64 → Does .egressPost s fun t =>
        let b := t.pkg.host.mem.read a 32
        t.pkg.roll.backlog = l ∧ t.pkg.fget F.rollEgressHead 0 = (h + 1) % 2 ^ 32 ∧
        leAt b 0 1 = e.kind % 256 ∧ leAt b 1 1 % 2 = phase h p.egSize ∧ leAt b 2 1 = e.cause % 256 ∧ leAt b 4 2 = e.entry % 65536 ∧
        leAt b 6 2 = e.intake % 65536 ∧ leAt b 8 8 = e.hostTag % 2 ^ 64 ∧ leAt b 0x10 4 = e.value % 2 ^ 32 ∧
        leAt b 0x14 4 = e.pos % 2 ^ 32 ∧ leAt b 0x18 8 = p.tb0 ∧
        (∀ x, x < a ∨ a + 32 ≤ x → t.pkg.host.mem.byte x = p.host.mem.byte x) ∧
        (∀ k, k ≠ e.entry → t.pkg.entry k = p.entry k) ∧ t.pkg.fens = p.fens ∧ t.pkg.evq = p.evq ∧
        (p.hasPerf .roll 0 = false → t.pkg.host.msix = p.host.msix ++
          (if e.vec < 64 ∧ ∀ x ∈ l, ¬ (x.batch = e.batch ∧ x.vec = e.vec) then [e.vec] else []))) ∧
    (∀ v, Does (.egressTailWrite v) s fun t =>
      if (h + 2 ^ 32 - v % 2 ^ 32) % 2 ^ 32 ≤ 2 ^ p.egSize then
        t.pkg.fget F.rollEgressTail 0 = v % 2 ^ 32 ∧ p.Only t.pkg p 0 [F.rollEgressTail]
      else t.pkg = p) ∧
    (p.host.careCpl = [] → p.host.cplQ = [] ∨ p.cplRoom = false ∧ (∀ c ∈ p.host.cplQ, c.silent = false ∧ ∃ n, c.path = .slot n) →
      Does .completionPost s fun t => t.pkg = p) ∧
    (∀ c l n, p.host.careCpl = [] → p.host.cplQ = c :: l → c.path = .slot n → c.silent = false → p.cplRoom = true →
      let a := p.fget F.hostCplBaseBase 0 + 32 * (c0 % 2 ^ p.cplSize)
      a + 32 ≤ 2 ^ 64 → Does .completionPost s fun t =>
        let b := t.pkg.host.mem.read a 32
        t.pkg.host.cplQ = l ∧ t.pkg.fget F.hostCplHeadIndex 0 = (c0 + 1) % 2 ^ 32 ∧
        leAt b 0 1 = phase c0 p.cplSize + (if c.accepted then 2 else 0) ∧ leAt b 1 1 = n % 256 ∧ leAt b 2 2 = c.opcode % 65536 ∧
        leAt b 4 2 = c.status % 65536 ∧ leAt b 8 8 = c.tag % 2 ^ 64 ∧ leAt b 0x10 8 = c.res0 % 2 ^ 64 ∧ leAt b 0x18 8 = c.res1 % 2 ^ 64 ∧
        (∀ x, x < a ∨ a + 32 ≤ x → t.pkg.host.mem.byte x = p.host.mem.byte x) ∧ t.pkg.fens = p.fens) ∧
    (∀ v, Does (.cplTailWrite v) s fun t =>
      if (c0 + 2 ^ 32 - v % 2 ^ 32) % 2 ^ 32 ≤ 2 ^ p.cplSize then
        t.pkg.fget F.hostCplTailIndex 0 = v % 2 ^ 32 ∧ (t.pkg.host.cplQ = [] ∨ t.pkg.cplRoom = false) ∧
        ∃ n, t.pkg.host.cplQ = p.host.cplQ.drop n
      else t.pkg = p)

/-- O41. R45, R409, R411, R413, R414, R418, R424: a point with an untaken beat is dropped at the end of its step and marks
the step incomplete, and one whose beats are all taken never is; the oldest step that has ended with no point open leaves one
STEP record at the head of the log; a replay that reaches its halt stops its queues; a pupil's step whose SDIG is late is
counted, and SROLL entries are kept in order. The model's readings and choices it rests on: log entries 5, 54, 79, 93 and
139. -/
def Obligations.DigestAndShadow : Prop :=
  ∀ (s : State), s.pkg.on = true →
    let p := s.pkg
    (∀ i o d, p.dig.open_[i]? = some o → (p.points.map DPoint.parse)[o.idx]? = some d →
      let now := match p.physOf d.fen with | some f => p.local_ f | none => p.refCount
      (now < p.stepEnd o.step → Does (.digestPointDrop i) s fun t => t.pkg = p) ∧
      (o.due ≠ none → Does (.digestPointDrop i) s fun t => t.pkg = p) ∧
      (p.stepEnd o.step ≤ now → o.due = none → Does (.digestPointDrop i) s fun t =>
        t.pkg.dig.open_ = dropAt p.dig.open_ i ∧ (t.pkg.dig.steps.getD o.step .init).incomplete = true ∧
        (∀ k, k ≠ o.step → t.pkg.dig.steps.getD k .init = p.dig.steps.getD k .init) ∧
        t.pkg.fget F.dlogStatIncomplete 0 = satAdd 16 (p.fget F.dlogStatIncomplete 0) 1 ∧
        p.Logged t.pkg .dlog 0 0x00C0 p.refCount 0 ∧ p.Only t.pkg { p with dig := t.pkg.dig } 0 [F.dlogStatIncomplete])) ∧
    (∀ k z l, p.dig.steps = (k, z) :: l → (∀ o ∈ p.dig.open_, o.step ≠ k) → (p.planRuns = true → p.stepEnd k ≤ p.refCount) →
      p.dig.role = 0 → p.fget F.dlogTraceArmed 0 = 0 → Does .digestStepRecord s fun t =>
        let h := p.fget F.dlogHeadIndex 0
        t.pkg.dig.steps = AMap.erase p.dig.steps k ∧ t.pkg.fget F.dlogHeadIndex 0 = (h + 1) % 2 ^ 20 ∧
        t.pkg.fget F.dlogStatDefective 0 = satAdd 16 (p.fget F.dlogStatDefective 0) (if z.defect.isSome then 1 else 0) ∧
        t.pkg.memRead 0 (0xBE8000000 + 64 * h) 64 =
          leBytes 1 1 ++ leBytes 1 ((if z.defect.isSome then 1 else 0) + (if z.incomplete || z.noMask then 2 else 0) +
            (if z.poison then 4 else 0) + (if p.replaying then 8 else 0)) ++
          leBytes 2 (z.defect.getD 0) ++ leBytes 4 z.points ++ leBytes 8 (k % 2 ^ 48) ++ leBytes 16 z.digest ++
          leBytes 8 (p.stepStart k) ++ leBytes 8 p.tb0 ++ List.replicate 16 0#8 ∧
        t.pkg.fens = p.fens ∧ t.pkg.evq = p.evq) ∧
    (∀ n hs ht sc, p.job.cur = some n → n.replay = some (sc, hs, ht) → p.tb1Run = true → p.dig.halted = false → hs ≠ 2 ^ 48 - 1 →
      let tick := p.stepStart hs + ht
      tick ≤ p.refCount → Does .replayHalted s fun t =>
        t.pkg.dig.halted = true ∧ t.pkg.job.state = (if p.job.state = 6 then 7 else p.job.state) ∧
        p.ErrRegs t.pkg .dlog 0 0x00C4 p.refCount 0 ∧
        (∀ f ∈ p.planFens, (t.pkg.fen f).proc.st = .idle ∧ (t.pkg.fen f).te = (p.fen f).te ∧
          ∀ st, st ≠ .samp → (t.pkg.fen f).queue st = ((p.fen f).queue st).filter fun c => decide (c.fire < tick)) ∧
        (∀ c ∈ t.pkg.host.running, c.opcode ≠ 0x0050)) ∧
    (∀ k x l, p.dig.role = 2 → p.dig.own = (k, x) :: l → p.stepEnd (k + 2) ≤ p.refCount → Does .shadowLate s fun t =>
      t.pkg.dig = { p.dig with own := AMap.erase p.dig.own k, tutor := AMap.erase p.dig.tutor k } ∧
      t.pkg.fget F.dlogShadowCntClean 0 = 0 ∧ p.Logged t.pkg .dlog 0 0x00C2 p.refCount 0 ∧
      p.Only t.pkg { p with dig := t.pkg.dig } 0 [F.dlogShadowCntLate, F.dlogShadowCntClean]) ∧
    (∀ (n : Fin 16) b, p.mgmtIn n 0x51 b → p.dig.role = 2 → p.dig.port = n →
      let e := sliceB (flitPayload b) 8 160
      (p.drive = false ∨ p.roll.lastStep ≤ leAt e 0 8) → Does (.sroll n b) s fun t =>
        t.pkg = { p with roll := { p.roll with script := p.roll.script ++ [e] } }) ∧
    (∀ (n : Fin 16) b, p.mgmtIn n 0x50 b → p.dig.role = 2 → p.dig.port = n →
      let y := flitPayload b
      let k := leAt y 8 8
      AMap.find? p.dig.tutor k = none → AMap.find? p.dig.own k = none → leAt y 1 1 % 16 ≤ 11 → Does (.sdig n b) s fun t =>
        let x := t.pkg.dig.tutor.getD k StepDig.init
        t.pkg = { p with dig := { p.dig with tutor := t.pkg.dig.tutor } } ∧ x.plain = leAt y 16 16 ∧ x.got = [leAt y 2 2] ∧
        x.slots = (List.range (leAt y 1 1 % 16)).map (fun j => (leAt y (32 + 18 * j) 2, leAt y (34 + 18 * j) 16)) ∧
        (∀ j, j ≠ k → AMap.find? t.pkg.dig.tutor j = AMap.find? p.dig.tutor j)) ∧
    (∀ n, p.job.next = some n → p.dig.pendingRole = 2 → p.job.state = 4 → n.placed = true → n.filled = true → p.planRuns = false →
      Does .shadowStart s fun t =>
        t.pkg.drive = true ∧ t.pkg.dig.role = 2 ∧ t.pkg.dig.pendingRole = 0 ∧ t.pkg.job.next = none ∧ t.pkg.job.start = p.bell.tb2.count ∧
        t.pkg.job.cur = some { n with startTick := p.bell.tb2.count - p.dig.beginStep * n.img.stepTicks, stepBase := p.dig.beginStep } ∧
        t.pkg.roll.lastStep = p.dig.beginStep ∧ (∀ c ∈ t.pkg.host.running, c.opcode ≠ 0x0058))

/-! Commands of the ROM and the weights. -/

/-- O42. R440, R441, R444, R446: a command waits while it may not run and leaves a record of another opcode to its own row;
an unknown opcode ends with status 1; a command of the group ends with BUSY while one of the group runs; a record with a
reserved byte or flag set is never carried out. The model's readings and choices it rests on: log entries 5, 57 and 58. -/
def Obligations.CommandChecks : Prop :=
  ∀ (i : Instr) (op : Nat) (grp : Bool) (s : State), romRow i = some (op, grp) → s.pkg.on = true →
    let p := s.pkg
    (p.host.taken = [] → Does i s fun t => t.pkg = p) ∧
    ∀ c l, p.host.taken = c :: l →
      let q := { p with host := { p.host with taken := l } }
      (p.mayRun c = false → Does i s fun t => t.pkg = p) ∧
      (p.mayRun c = true → c.opcode ∉ opcodes → Does i s fun t => q.Refuses t.pkg c 1 0 0 ∧ t.pkg.host.taken = l) ∧
      (p.mayRun c = true → c.opcode ∈ opcodes → c.opcode ≠ op → Does i s fun t => t.pkg = p) ∧
      (p.mayRun c = true → c.opcode = op → grp = true → p.groupBusy = true → Does i s fun t =>
        q.Refuses t.pkg c 3 0 0 ∧ t.pkg.host.taken = l) ∧
      (p.mayRun c = true → c.opcode = op → (grp = true → p.groupBusy = false) → p.recordBad c = true → Does i s fun t =>
        (q.Refuses t.pkg c 2 0 0 ∨ q.Refuses t.pkg c 7 0 0) ∧ t.pkg.host.taken = l)

/-- O43. R383 to R390: a WCHUNK of a load adds to its partial chunk, and the last flit makes the chunk whole; a partial chunk
is dropped after 2 ms, counted and logged. A chunk that authenticates is held, and kept bytes are written; one that does not
is dropped and logged. CHUNK_ACK and NACK act on the chunk they name, 5 ms without an acknowledgement sends it again, 50 ms
without a chunk is logged, and a new host frame brings its chunk in. The model's readings and choices it rests on: log
entries 5, 80 and 107. -/
def Obligations.WeightChunks : Prop :=
  ∀ (s : State), s.pkg.on = true →
    let p := s.pkg
    (∀ (n : Fin 16) b m, p.mgmtIn n 0x40 b → p.wgt.asm_ = [] →
      let y := flitPayload b
      let sh := leAt y 8 4
      let ch := leAt y 12 4
      let count := cdiv (64 + (p.wset m).chunkLen sh ch) 224
      p.setOfLoad (leAt y 4 4) false = some m → sh < (p.wset m).shards → ch < (p.wset m).chunks sh → Does (.wchunk n b) s fun t =>
        p.Keeps t.pkg { p with wgt := { p.wgt with asm_ := t.pkg.wgt.asm_, ready := t.pkg.wgt.ready } } {} ∧
        if count = 1 ∧ leAt y 2 2 = 0 then
          t.pkg.wgt.asm_ = [] ∧
          t.pkg.wgt.ready = p.wgt.ready ++ [⟨leAt y 4 4, (sliceB y 16 224).take (64 + (p.wset m).chunkLen sh ch), none⟩]
        else t.pkg.wgt.ready = p.wgt.ready ∧ t.pkg.wgt.asm_ = [⟨leAt y 4 4, sh, ch, [(leAt y 2 2, sliceB y 16 224)], p.rawNs⟩]) ∧
    (∀ (n : Fin 16) b, p.mgmtIn n 0x40 b → p.setOfLoad (leAt (flitPayload b) 4 4) false = none →
      Does (.wchunk n b) s fun t => t.pkg = p) ∧
    (∀ i a, p.wgt.asm_[i]? = some a → a.last + 2000000 ≤ p.rawNs → Does (.chunkIncomplete i) s fun t =>
      t.pkg.wgt.asm_ = p.wgt.asm_.filter (fun b => decide (b ≠ a)) ∧ t.pkg.wgt.sets = p.wgt.sets ∧
      t.pkg.fget F.wgtErrIncomplete 0 = satAdd 16 (p.fget F.wgtErrIncomplete 0) 1 ∧ p.Logged t.pkg .wgt 0 0x00B1 p.tb1 0 ∧
      p.Only t.pkg { p with wgt := { p.wgt with asm_ := t.pkg.wgt.asm_ }, ports := t.pkg.ports } 0 [F.wgtErrIncomplete]) ∧
    (∀ i x, p.wgt.ready[i]? = some x →
      let sh := leAt x.bytes 8 4
      let ch := leAt x.bytes 0xC 4
      (p.setOfLoad x.loadId x.frame.isSome = none → Does (.chunkAuthenticated i) s fun t =>
        t.pkg = { p with wgt := { p.wgt with ready := dropAt p.wgt.ready i } }) ∧
      (∀ m, p.setOfLoad x.loadId x.frame.isSome = some m →
        (∀ z ∈ p.wgt.keys, z.2.id ≠ leAt x.bytes 0x10 4) ∨ (p.wset m).headerOk x.bytes = false → Does (.chunkAuthenticated i) s fun t =>
          t.pkg.wgt.ready = dropAt p.wgt.ready i ∧ t.pkg.wgt.sets = p.wgt.sets ∧ t.pkg.dram = p.dram ∧
          t.pkg.fget F.wgtErrTagFail 0 = satAdd 16 (p.fget F.wgtErrTagFail 0) 1 ∧ p.Logged t.pkg .wgt 0 0x00B0 p.tb1 0) ∧
      (∀ m k z pt, p.setOfLoad x.loadId x.frame.isSome = some m →
        List.find? (fun z => decide (z.2.id = leAt x.bytes 0x10 4)) p.wgt.keys = some (k, z) → (p.wset m).headerOk x.bytes = true →
        gcmOpen z.key (sliceB x.bytes 0x18 12) (x.bytes.take 0x30) (x.bytes.drop 64) (sliceB x.bytes 0x30 16) = some pt →
        (sh, ch) ∉ (p.wset m).held → (p.wset m).down = noPeer → (p.wset m).out = [] → (p.wset m).state = 1 → (p.wset m).keeps sh = true →
        sh ∉ (p.wset m).checked → (∃ j, j < (p.wset m).chunks sh ∧ j ≠ ch ∧ (sh, j) ∉ (p.wset m).held) →
        Does (.chunkAuthenticated i) s fun t =>
          let w := t.pkg.wset m
          let a := pkgAddr ((p.wset m).addr sh) + 1048576 * ch
          t.pkg.wgt.ready = dropAt p.wgt.ready i ∧ w.held = (p.wset m).held ++ [(sh, ch)] ∧ w.state = 1 ∧ w.checked = (p.wset m).checked ∧
          w.lastAuth = p.rawNs ∧ w.store.getD (chunkKey sh ch) [] = x.bytes ∧
          (∀ j, j < pt.length → pt.getD j 0#8 = if pkgCls ((p.wset m).addr sh) = 0 then t.pkg.dram.mem.byte (a % 2 ^ 39 + j)
            else t.pkg.dram.peat.byte (a % 2 ^ 41 + j)) ∧
          t.pkg.evq = p.evq ∧ t.pkg.fens = p.fens)) ∧
    (∀ (n : Fin 16) b m o, p.mgmtIn n 0x41 b → p.setOfLoad (leAt (flitPayload b) 4 4) false = some m → (p.wset m).out = [o] → o.sends ≠ 0 →
      o.resend = false → o.abandoned = false → o.shard = leAt (flitPayload b) 8 4 → o.chunk = leAt (flitPayload b) 12 4 →
      (p.wset m).state = 1 → (∃ i, i < (p.wset m).shards ∧ (p.wset m).keeps i = true ∧ i ∉ (p.wset m).checked) →
      (leAt (flitPayload b) 1 1 = 1 → Does (.wack n b) s fun t =>
        (t.pkg.wset m).out = [{ o with acked := true }] ∧ t.pkg.ports = p.ports ∧ (t.pkg.wset m).held = (p.wset m).held ∧ t.pkg.regs = p.regs) ∧
      ((leAt (flitPayload b) 1 1 = 2 ∨ leAt (flitPayload b) 1 1 = 3) → o.acked = false → Does (.wack n b) s fun t =>
        if o.sends < 8 then (t.pkg.wset m).out = [{ o with sends := o.sends + 1, sentAt := p.rawNs }] ∧
          t.pkg.fget F.wgtErrResends 0 = satAdd 16 (p.fget F.wgtErrResends 0) 1
        else (t.pkg.wset m).out = [{ o with abandoned := true }] ∧ p.Logged t.pkg .wgt 0 0x00B9 p.tb1 0)) ∧
    (∀ m o, (p.wset m).out = [o] → o.sends ≠ 0 → o.acked = false → o.abandoned = false → o.sentAt + 5000000 ≤ p.rawNs →
      Does (.chunkResendTimeout m 0) s fun t =>
        if o.sends < 8 then (t.pkg.wset m).out = [{ o with sends := o.sends + 1, sentAt := p.rawNs, resend := false }] ∧
          t.pkg.fget F.wgtErrResends 0 = satAdd 16 (p.fget F.wgtErrResends 0) 1
        else (t.pkg.wset m).out = [{ o with abandoned := true, resend := false }] ∧ p.Logged t.pkg .wgt 0 0x00B9 p.tb1 0) ∧
    (∀ m, p.taking m = true → (p.wset m).lastAuth + 50000000 ≤ p.rawNs →
      let lacks (i c : Nat) : Prop := i ∈ (p.wset m).expected ∧ c < (p.wset m).chunks i ∧ (i, c) ∉ (p.wset m).held
      (∃ i c, lacks i c) → Does (.chunkTimeout m) s fun t =>
        (∃ i c, lacks i c ∧ t.pkg.fget F.wgtMissingShard 0 = i % 2 ^ 32 ∧ t.pkg.fget F.wgtMissingChunk 0 = c % 2 ^ 32) ∧
        (t.pkg.wset m).lastAuth = p.rawNs ∧ (t.pkg.wset m).held = (p.wset m).held ∧ p.Logged t.pkg .wgt 0 0x00B3 p.tb1 0) ∧
    (∀ f, f < 64 → 2 ≤ p.fget F.chipStage 0 → p.power.state < 3 →
      let seq (j : Nat) : Nat := ofLe (p.wgt.frames.read (j * 0x101000) 4)
      let new (j : Nat) : Prop := seq j ≠ 0 ∧ seq j ≠ p.wgt.frameSeq.getD j 0
      let id := ofLe (p.wgt.frames.read (f * 0x101000 + 8) 4)
      new f → (∀ j, j < 64 → j ≠ f → ¬ new j) → Does .weightFrameScan s fun t =>
        t.pkg.wgt.frameSeq.getD f 0 = seq f ∧ t.pkg.fens = p.fens ∧ t.pkg.regs = p.regs ∧ t.pkg.wgt.sets = p.wgt.sets ∧
        ((p.setOfLoad id true).isSome = true → t.pkg.wgt.frames = p.wgt.frames ∧
          ∃ x, t.pkg.wgt.ready = p.wgt.ready ++ [x] ∧ x.loadId = id ∧ x.frame = some f ∧
            x.bytes = p.wgt.frames.read (f * 0x101000 + 0x40) (64 + min 1048576 (ofLe (p.wgt.frames.read (f * 0x101000 + 0x54) 4)))) ∧
        ((p.setOfLoad id true).isSome = false → t.pkg.wgt.ready = p.wgt.ready ∧
          ofLe (t.pkg.wgt.frames.read (f * 0x101000 + 4) 4) = 3))

/-- O44. R254, R381, R382, R393 to R398: LOAD_WEIGHTS that passes its checks puts its set into LOADING with the manifest it
read; one that fails a check, with a field too wide or a region out of line, changes no set. SWITCH_WEIGHTS_AT builds the
inactive side and waits; at its tick the sides change places. Before a plan starts, the kept slab shards of its set are
filled in, a word its stack cannot correct poisoned. The model's readings and choices it rests on: log entries 5 and 49. -/
def Obligations.WeightSets : Prop :=
  ∀ (s : State) (c : Cmd) (l : List Cmd),
    let p := s.pkg
    let q := { p with host := { p.host with taken := l } }
    let n := c.le 0x10 1
    (p.Clean 0x0020 c l →
      (c.loadWide = true → Does .loadWeights s fun t => q.Refuses t.pkg c 2 0 0) ∧
      (c.loadWide = false → (c.le 0x24 2 ≠ 0xFFFF ∨ c.le 0x26 2 ≠ 0xFFFF → 4 ≤ p.fget F.chipStage 0) → c.loadAligned = false →
        Does .loadWeights s fun t => q.Refuses t.pkg c 4 0 0)) ∧
    (∀ u m, p.Clean 0x0020 c l → c.loadWide = false → c.loadAligned = true →
      (c.le 0x24 2 ≠ 0xFFFF ∨ c.le 0x26 2 ≠ 0xFFFF → 4 ≤ p.fget F.chipStage 0) →
      q.getInput (c.le 0x18 8) (c.le 0x20 4) 1 = (u, .ok m) →
      let w : WSet := { WSet.init with state := 1, loadId := c.le 0x14 4, wrank := c.le 0x12 2, manifest := m, up := c.le 0x24 2,
                                       down := c.le 0x26 2, dramDest := c.le 0x28 8, peatDest := c.le 0x30 8, stageAddr := c.le 0x38 8,
                                       stageBytes := c.le 0x40 8, lastAuth := p.rawNs, cmd := c.no }
      let st := u.loadWeightsCheck n w (sliceB c.rec_ 0x48 48)
      (st ≠ 0 → Does .loadWeights s fun t => u.Refuses t.pkg c st 0 0 ∧ t.pkg.wgt = p.wgt) ∧
      (st = 0 → u.taking n = false → (∃ i, i < w.shards ∧ w.keeps i = true) → Does .loadWeights s fun t =>
        t.pkg.wset n = { w with forwarded := (t.pkg.wset n).forwarded } ∧ (∀ j, j ≠ n → t.pkg.wset j = p.wset j) ∧ u.GoesOn t.pkg c ∧
        u.ByCommand t.pkg { u with wgt := { p.wgt with sets := t.pkg.wgt.sets } })) ∧
    (p.Clean 0x0021 c l → n < 4 →
      let at_ := c.le 0x18 8
      let w := p.wset n
      w.state = 2 → (∀ x, p.job.cur = some x → w.wrank = x.selfRank) → p.job.cur.isSome = true → (∀ i, i < w.shards → w.tier i ≠ 0) →
      (p.tb1Run = true → p.job.start ≤ at_ → (at_ - p.job.start) % max 1 p.stepTicks = 0 → p.tb1 + 1050000 ≤ at_ → p.wgt.pending = none →
        Does .switchWeightsAt s fun t =>
          t.pkg.wgt.pending = some (n, at_, c.no) ∧ (t.pkg.wset n).state = 4 ∧ t.pkg.wgt.side = p.wgt.side ∧ q.GoesOn t.pkg c ∧
          (if p.wgt.side = 0 then t.pkg.wgt.sideA = p.wgt.sideA ∧ t.pkg.wgt.sideB = w.overlay p.wgt.sideA
           else t.pkg.wgt.sideB = p.wgt.sideB ∧ t.pkg.wgt.sideA = w.overlay p.wgt.sideB)) ∧
      (p.tb1Run = false ∨ at_ < p.tb1 + 1050000 → Does .switchWeightsAt s fun t => q.Refuses t.pkg c 0x0209 0 0)) ∧
    (∀ k at_ no, p.on = true → p.wgt.pending = some (k, at_, no) → p.planRuns = true → p.job.starts = [] →
      (at_ ≤ p.refCount → Does .weightsSwitched s fun t =>
        t.pkg.wgt.side = 1 - p.wgt.side ∧ t.pkg.wgt.pending = none ∧ t.pkg.wgt.sideA = p.wgt.sideA ∧ t.pkg.wgt.sideB = p.wgt.sideB ∧
        p.ErrRegs t.pkg .wgt 0 0x00B7 p.tb1 0 ∧ (∀ x ∈ t.pkg.host.running, x.no ≠ no) ∧
        (∀ f ∈ p.planFens, at_ ≤ p.local_ f → (t.pkg.fen f).proc.tb = BitVec.ofNat 64 at_ ∧ (t.pkg.fen f).proc.st = .run ∧
          (t.pkg.fen f).proc.loops = [])) ∧
      (p.refCount < at_ → Does .weightsSwitched s fun t => t.pkg = p)) ∧
    (∀ x i f, p.on = true → p.job.next = some x → x.arm.isSome = true → x.placed = true → x.filled = false → p.planRuns = false →
      x.wset = some i → (p.wset i).shards = 1 → (p.wset i).tier 0 = 0 → (p.wset i).keeps 0 = true →
      x.fmap.find? ((p.wset i).sh 0 7 1) = some f → p.goodCells f → (p.wset i).sh 0 0x20 4 % 8 = 0 →
      (p.wset i).sh 0 0x10 8 % 8 = 0 → (p.wset i).sh 0 0x20 4 + (p.wset i).sh 0 0x10 8 ≤ slabBytes →
      let a := (p.wset i).addr 0 % 2 ^ 39
      let n := (p.wset i).sh 0 0x10 8
      a % 8 = 0 → (∀ z ∈ p.badWords 0 a n, z % 8 = 0) → Does .slabFill s fun t =>
        t.pkg.job.next = some { x with filled := true } ∧
        p.slabBecomes t.pkg f ((p.wset i).sh 0 0x20 4) n (fun k =>
          if (p.badWords 0 a n).any (fun z => decide (z ≤ a + k) && decide (a + k < z + 8)) then none
          else some ((p.memGet 0 a n).2.getD k 0#8)) ∧
        (∀ j, j ≠ f → t.pkg.fen j = p.fen j) ∧ (t.pkg.fen f).proc = (p.fen f).proc ∧ t.pkg.wgt = p.wgt)

/-! Plans and their start. -/

/-- O45. R50 to R56, R441, R444, R453 to R457: LOAD_PLAN keeps the file it read when all checks pass and answers its hash,
and refuses it with the status of the first that fails; RELOCATE sets the next plan with its bases, placing it when no plan
runs; ARM, and a copy of it that a port brings, arms the plan, waits for a stack in training or for TB2, and gives up after 2
s. The model's readings and choices it rests on: log entries 5, 46, 50 and 51. -/
def Obligations.PlanArming : Prop :=
  ∀ (s : State) (c : Cmd) (l : List Cmd),
    let p := s.pkg
    let q := { p with host := { p.host with taken := l } }
    (p.Clean 0x0010 c l → p.groupBusy = false →
      (3 ≤ p.job.state ∧ p.job.state ≤ 5 → Does .loadPlan s fun t => q.Refuses t.pkg c 7 0 0) ∧
      (p.job.state < 3 ∨ 5 < p.job.state →
        (pkgCls (c.le 0x10 8) ≠ 0 → Does .loadPlan s fun t => q.Refuses t.pkg c 4 0 0) ∧
        (pkgCls (c.le 0x10 8) = 0 → ∀ u b, q.getInput (c.le 0x10 8) (c.le 0x18 8) 1 = (u, .ok b) →
          (u.loadCheck b ≠ 0 → Does .loadPlan s fun t => u.Refuses t.pkg c (u.loadCheck b) 0 0) ∧
          (u.loadCheck b = 0 → Does .loadPlan s fun t =>
            t.pkg.job = { p.job with image := some (imgParse b, imgTables b), next := none, state := 1 } ∧
            u.Ends t.pkg c (leAt (imgParse b).hash 0 8) 0 ∧
            u.ByCommand t.pkg { u with job := t.pkg.job } ((List.range 8).map fun k => F.sdramThermCover.at_ k))))) ∧
    (∀ img tab, p.Clean 0x0011 c l → p.groupBusy = false → p.job.image = some (img, tab) → (p.job.state = 1 ∨ p.job.state = 2) →
      c.le 0x12 2 ≤ 1 → c.le 0x10 2 < img.rankCount →
      ∀ u rt db pb, (if p.planRuns then q else q.ppr).getInput (c.le 0x18 8) (8 * img.rankCount) 1 = (u, .ok rt) →
      (c.le 0x12 2 = 0 → u.unmappedFens img ≠ [] → Does .relocate s fun t => u.Refuses t.pkg c 0x0105 0 0) ∧
      (c.le 0x12 2 = 1 ∨ u.unmappedFens img = [] → u.latencyOk img tab.portMask = true → relocsOk img = true →
        u.placeBases img = some (db, pb) → Does .relocate s fun t => ∃ n : PlanInst,
          t.pkg.job = { p.job with next := some n, state := 2 } ∧ n.img = img ∧ n.tab = tab ∧ n.selfRank = c.le 0x10 2 ∧
          n.acceptHoles = decide (c.le 0x12 2 = 1) ∧ n.dramBase = db ∧ n.peatBase = pb ∧ n.rt = rankTable rt (c.le 0x10 2) ∧
          n.arm = none ∧ n.wset = none ∧ n.filled = false ∧ n.replay = none ∧ n.placed = !p.planRuns ∧
          (∀ x ∈ t.pkg.host.running, x.no ≠ c.no) ∧
          (p.planRuns = true → u.Ends t.pkg c db pb ∧ n.fmap = [] ∧ u.ByCommand t.pkg { u with job := t.pkg.job }) ∧
          (p.planRuns = false → t.pkg.rank = n.rt ∧ t.pkg.bell = p.bell ∧ t.pkg.roll = p.roll ∧
            n.fmap = img.fenset.filterMap fun k => (u.mapFen k).map fun f => (k, f)))) ∧
    (∀ h n, p.Front 0x0012 c l → p.recordBad c = false → p.ArmFit c h n → Does .arm s fun t => p.ArmActs t.pkg c h n) ∧
    (p.Front 0x0012 c l → c.le 0x38 2 = 0 → c.le 0x10 8 ∈ p.liveJobs → Does .arm s fun t =>
      q.Answers t.pkg c 7 2 0 ∧ t.pkg.fget F.jobStatDupArm 0 = satAdd 16 (p.fget F.jobStatDupArm 0) 1 ∧
      q.ByCommand t.pkg p [F.jobStatDupArm.at_ 0]) ∧
    (∀ (n : Fin 16) b h x, p.mgmtIn n 0x60 b →
      let c : Cmd := { no := p.host.nextNo, path := .link, opcode := 0x0012, flags := 0, tag := leAt (flitPayload b) 8 8,
                       rec_ := armOfCopy (flitPayload b), takenNs := p.rawNs, silent := false }
      p.ArmFit c h x → Does (.armCopy n b) s fun t => p.ArmActs t.pkg c h x ∧ t.pkg.host.nextNo = p.host.nextNo + 1) ∧
    (∀ a h n, p.on = true → p.job.arming = some (a, h) → p.job.next = some n → n.wset.isSome = true →
      (p.tb2Ready = true → Does .armReady s fun t => p.ArmedBy t.pkg a h n) ∧
      (p.tb2Ready = false → Does .armReady s fun t => t.pkg = p) ∧
      (p.tb2Ready = false → a.takenNs + 2000000000 ≤ p.rawNs → Does .armTimeout s fun t =>
        t.pkg.job = { p.job with arming := none, next := some { n with wset := none }, state := 2 } ∧
        (∀ x ∈ t.pkg.host.running, x.no ≠ a.no) ∧ p.ErrRegs t.pkg .job 0 0x00E1 p.bell.tb2.count 0 ∧ t.pkg.fens = p.fens) ∧
      (p.tb2Ready = true ∨ p.rawNs < a.takenNs + 2000000000 → Does .armTimeout s fun t => t.pkg = p))

/-- O46. R52, R114, R115, R394, R415, R416, R458, R460: START_AT and REPLAY load the handover tick at least 2,100,000 ticks
ahead; the guard cancels a start that the fault manager has gone silent before; at its tick the armed plan starts on TB1,
which takes TB2's count, or the handover is refused and the plan stays armed. A placement that waited is made once no plan
runs. The model's readings and choices it rests on: log entries 5, 52, 91 and 114. -/
def Obligations.PlanStarts : Prop :=
  ∀ (s : State) (c : Cmd) (l : List Cmd),
    let p := s.pkg
    let q := { p with host := { p.host with taken := l } }
    let at_ := c.le 0x10 8
    let loaded (v u : Pkg) : Prop :=
      u.bell = { p.bell with handoverTick := some at_ } ∧ u.fget F.bellHandoverTick 0 = at_ ∧ u.fget F.bellHandoverStatArmed 0 = 1 ∧
      u.fget F.bellHandoverStatDone 0 = p.fget F.bellHandoverStatDone 0 ∧
      u.fget F.bellHandoverStatRefused 0 = p.fget F.bellHandoverStatRefused 0 ∧ u.fget F.jobStartTick 0 = at_ ∧ v.GoesOn u c ∧
      v.ByCommand u { v with bell := u.bell, job := u.job } [F.bellHandoverTick.at_ 0, F.bellHandoverStatArmed.at_ 0, F.jobStartTick.at_ 0]
    (p.Clean 0x0013 c l →
      (p.job.state ≠ 4 ∨ p.drive = true → Does .startAt s fun t => q.Refuses t.pkg c 7 0 0) ∧
      (p.job.state = 4 → p.drive = false →
        (at_ < p.bell.tb2.count + 2100000 → Does .startAt s fun t => q.Refuses t.pkg c 8 0 0) ∧
        (p.bell.tb2.count + 2100000 ≤ at_ → Does .startAt s fun t => loaded q t.pkg ∧ t.pkg.job = { p.job with state := 5 }))) ∧
    (p.Clean 0x0050 c l →
      (p.job.state ≠ 4 ∨ p.job.next = none → Does .replay s fun t => q.Refuses t.pkg c 0x0301 0 0) ∧
      (∀ n u b, p.job.state = 4 → p.job.next = some n → p.bell.tb2.count + 2100000 ≤ at_ →
        q.getInput (c.le 0x20 8) (c.le 0x28 4) 1 = (u, .ok b) →
        (scriptOk b = false → Does .replay s fun t => u.Refuses t.pkg c 0x0302 0 0) ∧
        (scriptOk b = true → c.le 0x30 8 < c.le 0x18 8 → Does .replay s fun t => u.Refuses t.pkg c 0x0303 0 0) ∧
        (scriptOk b = true → c.le 0x18 8 ≤ c.le 0x30 8 → Does .replay s fun t =>
          loaded u t.pkg ∧ t.pkg.job = { p.job with
            state := 5, next := some { n with stepBase := c.le 0x18 8, replay := some (b, c.le 0x30 8, c.le 0x38 4) } }))) ∧
    (∀ k, p.on = true → p.bell.handoverTick = some k → p.job.state = 5 →
      let g := p.fget F.jobGuardGuardTicks 0
      (g ≠ 0 → p.bell.tb2.count < k → k ≤ p.bell.tb2.count + g → (p.mgUp = 0 ∨ p.care.everMsg = false ∨ p.care.lastMsg + g < p.tb1) →
        Does .startGuard s fun t =>
          t.pkg.job.state = 2 ∧ t.pkg.bell = { p.bell with handoverTick := none } ∧ t.pkg.fget F.bellHandoverStatArmed 0 = 0 ∧
          t.pkg.fget F.jobStartTick 0 = 0 ∧ t.pkg.noneRuns 0x0013 ∧ t.pkg.noneRuns 0x0050 ∧
          (∀ n, p.job.next = some n → t.pkg.job.next =
            some { n with arm := none, wset := none, filled := false, replay := none, stepBase := 0 }) ∧
          t.pkg.fget F.jobStatCancelled 0 = satAdd 16 (p.fget F.jobStatCancelled 0) 1 ∧
          (p.evq.length < 4090 → t.pkg.lastEv .job 0 0x00E3)) ∧
      (g = 0 ∨ (p.mgUp ≠ 0 ∧ p.care.everMsg = true ∧ p.tb1 ≤ p.care.lastMsg + g) → Does .startGuard s fun t => t.pkg = p) ∧
      (p.bell.tb2.count < k → Does .handover s fun t => t.pkg = p) ∧
      (∀ n, p.job.next = some n → k ≤ p.bell.tb2.count →
        (p.planRuns = true ∨ (n.placed = true ∧ n.filled = false) → Does .handover s fun t =>
          t.pkg.job = { p.job with state := 4 } ∧ t.pkg.bell = { p.bell with handoverTick := none } ∧
          t.pkg.fget F.bellHandoverStatArmed 0 = 0 ∧ t.pkg.fget F.bellHandoverStatRefused 0 = 1 ∧
          t.pkg.noneRuns 0x0013 ∧ t.pkg.noneRuns 0x0050 ∧ t.pkg.fens = p.fens ∧
          p.ErrRegs t.pkg .bell 0 0x0056 p.tb1 (if p.planRuns then 0 else 1)) ∧
        (p.planRuns = false → n.placed = true → n.filled = true → Does .handover s fun t =>
          let x := { p.bell.tb2 with slave := none, masters := [] }
          t.pkg.bell = { p.bell with tb1 := x, tb2 := { x with state := .follow }, handoverTick := none, throttle := none,
                                      out := if p.fon F.bellCtrlBellOutEn 0 then 64 else p.bell.out } ∧
          t.pkg.job.state = 6 ∧ t.pkg.job.cur = some { n with startTick := k } ∧ t.pkg.job.next = none ∧ t.pkg.job.start = k ∧
          t.pkg.tb1Run = true ∧ t.pkg.drive = false ∧ t.pkg.fget F.bellHandoverStatArmed 0 = 0 ∧
          t.pkg.fget F.bellHandoverStatDone 0 = 1 ∧ t.pkg.noneRuns 0x0013))) ∧
    (∀ n, p.on = true → p.job.next = some n → n.arm.isSome = true → n.placed = false →
      (p.planRuns = true → Does .deferredPlacement s fun t => t.pkg = p) ∧
      (p.planRuns = false → n.acceptHoles = true ∨ p.unmappedFens n.img = [] → Does .deferredPlacement s fun t =>
        t.pkg.job = { p.job with next := some { n with
          placed := true, fmap := n.img.fenset.filterMap fun k => (p.mapFen k).map fun f => (k, f) } } ∧
        t.pkg.rank = n.rt ∧ t.pkg.bell = p.bell) ∧
      (p.planRuns = false → n.acceptHoles = false → p.unmappedFens n.img ≠ [] → Does .deferredPlacement s fun t =>
        t.pkg.job = { p.job with state := if p.job.state = 5 then 4 else p.job.state } ∧ t.pkg.fens = p.fens ∧
        p.ErrRegs t.pkg .job 0 0x00E5 p.bell.tb2.count 0x0105))

/-- O47. R110, R353, R421, R425, R442, R459 to R462: DISARM cancels an armed plan at once and asks a running one to stop at
its boundary; ABORT, never refused, empties every mapped fen and every sampler and leaves no plan; SHADOW_BEGIN notes its
role and SHADOW_END ends it; TIME_REBASE sets a base that no plan uses. The model's readings and choices it rests on: log
entries 53, 54 and 55. -/
def Obligations.PlanStops : Prop :=
  ∀ (s : State) (c : Cmd) (l : List Cmd),
    let p := s.pkg
    let q := { p with host := { p.host with taken := l } }
    (p.Clean 0x0014 c l → p.job.state ≠ 5 →
      (c.le 0x10 1 = 1 → p.drive = false → p.job.state = 4 → p.job.arming = none → p.dig.pendingRole ≠ 2 → Does .disarm s fun t =>
        t.pkg.job = { p.job with
          state := 2,
          next := p.job.next.map fun n => { n with arm := none, wset := none, filled := false, replay := none, stepBase := 0 } } ∧
        q.Ends t.pkg c 0 0 ∧ q.ByCommand t.pkg { p with job := t.pkg.job, wgt := { p.wgt with sets := t.pkg.wgt.sets } }) ∧
      (c.le 0x10 1 = 1 → p.drive = false → p.job.state < 3 ∨ 5 < p.job.state → Does .disarm s fun t => q.Refuses t.pkg c 7 0 0) ∧
      (c.le 0x10 1 = 2 → p.tb1Run = true → p.dig.pendingRole ≠ 1 → Does .disarm s fun t =>
        t.pkg.job = { p.job with disarmReq := true } ∧ q.GoesOn t.pkg c ∧ q.ByCommand t.pkg { p with job := t.pkg.job }) ∧
      (c.le 0x10 1 = 2 → p.tb1Run = false → Does .disarm s fun t => q.Refuses t.pkg c 7 0 0)) ∧
    (∀ k, p.Clean 0x0014 c l → c.le 0x10 1 = 1 → p.drive = false → p.job.state = 5 → p.bell.handoverTick = some k → p.bell.tb2.count < k →
      Does .disarm s fun t =>
        t.pkg.job.state = 2 ∧ t.pkg.bell = { p.bell with handoverTick := none } ∧ t.pkg.fget F.jobStartTick 0 = 0 ∧
        t.pkg.noneRuns 0x0013 ∧ t.pkg.noneRuns 0x0050 ∧
        t.pkg.fget F.jobStatCancelled 0 = satAdd 16 (p.fget F.jobStatCancelled 0) 1 ∧ (∀ x ∈ t.pkg.host.running, x.no ≠ c.no)) ∧
    (p.Front 0x0015 c l → p.job.state ≠ 5 → Does .abort s fun t =>
      (∀ f, f < 288 → p.fused f = false → p.fon F.fenMapMapped f = true →
        let x := t.pkg.fen f
        x.qTe = [] ∧ x.qVe = [] ∧ x.qSm = [] ∧ x.qLx = [] ∧ x.proc.st = .idle ∧ x.proc.held = none ∧ x.proc.waitB = none ∧
        x.proc.ep = (p.fen f).proc.ep + 1#64) ∧
      (∀ d, d < 4 → (t.pkg.samp d).queue = []) ∧ t.pkg.roll.slots = [] ∧ t.pkg.job.cur = none ∧ t.pkg.job.disarmReq = false ∧
      t.pkg.tb1Run = false ∧ t.pkg.noneRuns 0x0014 ∧ t.pkg.noneRuns 0x0058 ∧ t.pkg.noneRuns 0x0059 ∧
      t.pkg.fget F.jobStatAborts 0 = satAdd 16 (p.fget F.jobStatAborts 0) 1 ∧ bits (t.pkg.reg .job 0 0x048) 11 0 = 0x0E4 ∧
      (∀ x ∈ t.pkg.host.running, x.no ≠ c.no)) ∧
    (p.Clean 0x0058 c l → p.groupBusy = false → (c.le 0x10 1 = 1 ∨ c.le 0x10 1 = 2) → c.le 0x11 1 < 16 →
      let fit : Prop :=
        if c.le 0x10 1 = 1 then p.tb1Run = true ∧ p.dig.halted = false
        else p.job.state = 4 ∧ p.drive = false ∧ p.bell.tb2.state = .locked
      (¬ fit → Does .shadowBegin s fun t => q.Refuses t.pkg c 0x0304 0 0) ∧
      (fit → Does .shadowBegin s fun t =>
        t.pkg.dig = { p.dig with pendingRole := c.le 0x10 1, port := c.le 0x11 1, beginStep := c.le 0x18 8 } ∧
        t.pkg.fget F.dlogShadowPort 0 = c.le 0x11 1 ∧ t.pkg.fget F.dlogShadowCntClean 0 = 0 ∧ t.pkg.fget F.dlogShadowPromotable 0 = 0 ∧
        t.pkg.fget F.dlogShadowBroken 0 = 0 ∧ q.GoesOn t.pkg c ∧
        q.ByCommand t.pkg { p with dig := t.pkg.dig } [F.dlogShadowPort.at_ 0, F.dlogShadowCntClean.at_ 0])) ∧
    (p.Clean 0x0059 c l →
      (p.drive = true → Does .shadowEnd s fun t =>
        t.pkg.job = { p.job with disarmReq := true } ∧ q.GoesOn t.pkg c ∧ q.ByCommand t.pkg { p with job := t.pkg.job }) ∧
      (p.drive = false → p.dig.role = 1 → Does .shadowEnd s fun t =>
        t.pkg.dig = { p.dig with pendingRole := 4 } ∧ q.GoesOn t.pkg c ∧ q.ByCommand t.pkg { p with dig := t.pkg.dig }) ∧
      (p.drive = false → p.dig.role ≠ 1 → p.dig.pendingRole = 0 → Does .shadowEnd s fun t =>
        q.Ends t.pkg c 0 0 ∧ q.ByCommand t.pkg p)) ∧
    (p.Clean 0x0060 c l → p.groupBusy = false → (c.le 0x10 1 = 1 ∨ c.le 0x10 1 = 2) → (c.le 0x11 1 = 1 ∨ c.le 0x11 1 = 2) →
      let d := decide (c.le 0x10 1 = 2)
      let x := p.tb d
      (p.baseBusy d = true → Does .timeRebase s fun t => q.Refuses t.pkg c 0x0421 0 0) ∧
      (p.baseBusy d = false → Does .timeRebase s fun t =>
        t.pkg.bell = (p.setTb d (if c.le 0x11 1 = 2 then { x with count := c.le 0x18 8, frac := 0, lastUse := c.le 0x18 8 }
          else { x with state := .acquire, phaseStepped := false, lockN := 0, acqN := 0, lastUse := x.count })).bell ∧
        q.Ends t.pkg c 0 0 ∧ p.Logged t.pkg .bell 0 0x0054 t.pkg.tb1 0 ∧ q.ByCommand t.pkg { p with bell := t.pkg.bell }))

/-! Other commands, power, host access, reset. -/

/-- O48. R321, R350 to R352, R413, R437, R444, R445, R501, R529, R534, R549, R550: IDENTIFY, LOG_READ and DIGEST_READ put
their bytes into host memory; PERF_CONFIG sets a counter now or at its tick; KEY_INSTALL takes a key that a live session
wraps; ADAPTER_PUT and ADAPTER_RETIRE leave a change for the boundary; PARTITION_SET moves a port, from the Caretaker's path
alone. The model's readings and choices it rests on: log entries 5, 56 and 77. -/
def Obligations.HostCommands : Prop :=
  ∀ (s : State) (c : Cmd) (l : List Cmd),
    let p := s.pkg
    let q := { p with host := { p.host with taken := l } }
    (p.Clean 0x0001 c l →
      (c.le 0x10 8 % 4096 ≠ 0 → Does .identify s fun t => q.Refuses t.pkg c 4 0 0) ∧
      (c.le 0x10 8 % 4096 = 0 → Does .identify s fun t => q.Delivers t.pkg c (c.le 0x10 8) p.identifyData 0 0)) ∧
    (p.Clean 0x0071 c l →
      let recs := p.care.log.filter fun r => decide (c.le 0x28 8 ≤ r.seq)
      let k := c.le 0x20 4 / 32
      (c.le 0x18 8 % 64 ≠ 0 → Does .logRead s fun t => q.Refuses t.pkg c 4 0 0) ∧
      (c.le 0x18 8 % 64 = 0 → Does .logRead s fun t =>
        q.Delivers t.pkg c (c.le 0x18 8) ((recs.take k).map LogRec.bytes).flatten (32 * min k recs.length)
          (match recs[k]? with | some r => r.seq | none => p.care.nextSeq))) ∧
    (p.Clean 0x0051 c l →
      let wanted (r : List Byte) : Bool := decide (c.le 0x10 8 ≤ leAt r 8 8) && decide (leAt r 8 8 ≤ c.le 0x18 8) &&
        (decide (c.le 0x2C 2 = 0) || decide (c.le 0x2C 2 / 2 ^ leAt r 0 1 % 2 = 1))
      let u := q.noteLog
      let sel := (u.logRecs.filter wanted).take (c.le 0x28 4)
      let low := ((u.logRecs.filter fun r => decide (leAt r 0 1 = 1)).map fun r => leAt r 8 8).foldl min (2 ^ 64 - 1)
      (c.le 0x20 8 % 64 ≠ 0 → Does .digestRead s fun t => q.Refuses t.pkg c 4 0 0) ∧
      (c.le 0x20 8 % 64 = 0 → Does .digestRead s fun t => u.Delivers t.pkg c (c.le 0x20 8) sel.flatten sel.length low)) ∧
    (p.Clean 0x0070 c l → c.le 0x14 1 < 8 → c.le 0x15 1 = 0 →
      let n := c.le 0x14 1
      let v := BitVec.ofNat 64 (c.le 0x18 8)
      let at_ := c.le 0x20 8
      (Blk.locate (c.le 0x10 4) = none → Does .perfConfig s fun t => q.Refuses t.pkg c 4 0 0) ∧
      (∀ b i, Blk.locate (c.le 0x10 4) = some (b, i, 0) → p.absent b i = false →
        (perfListed b (bits v 11 0) = false → Does .perfConfig s fun t => q.Refuses t.pkg c 2 0 0) ∧
        (perfListed b (bits v 11 0) = true →
          ((∃ y ∈ p.perfPend, y.page = b.base i ∧ y.ctr = n) → Does .perfConfig s fun t => q.Refuses t.pkg c 7 0 0) ∧
          ((∀ y ∈ p.perfPend, ¬ (y.page = b.base i ∧ y.ctr = n)) →
            (at_ ≠ 0 → at_ < p.tb1 → Does .perfConfig s fun t => q.Refuses t.pkg c 8 0 0) ∧
            (at_ = 0 → Does .perfConfig s fun t => p.PerfSet t.pkg b i n v ∧ q.Ends t.pkg c 0 0 ∧ q.ByCommand t.pkg p) ∧
            (at_ ≠ 0 → p.tb1 ≤ at_ → Does .perfConfig s fun t =>
              t.pkg.perfPend = p.perfPend ++ [{ page := b.base i, ctr := n, ctrl := v, tick := at_, cmd := c.no }] ∧
              q.GoesOn t.pkg c ∧ q.ByCommand t.pkg { p with perfPend := t.pkg.perfPend }))))) ∧
    (∀ b i, p.Clean 0x0070 c l → c.le 0x14 1 < 8 → c.le 0x15 1 = 1 → Blk.locate (c.le 0x10 4) = some (b, i, 0) → c.le 0x20 8 = 0 →
      perfListed .fen (bits (BitVec.ofNat 64 (c.le 0x18 8)) 11 0) = true → (∀ y ∈ p.perfPend, y.ctr ≠ c.le 0x14 1) → Does .perfConfig s fun t =>
        (∀ f, f < 288 → f / 72 = b.die i → p.fused f = false → p.PerfSet t.pkg .fen f (c.le 0x14 1) (BitVec.ofNat 64 (c.le 0x18 8))) ∧
        (∀ f, f < 288 → f / 72 ≠ b.die i → ∀ o, o < 0x4000 → t.pkg.reg .fen f o = p.reg .fen f o) ∧ q.Ends t.pkg c 0 0 ∧ q.ByCommand t.pkg p) ∧
    (∀ i x b k, p.on = true → p.perfPend[i]? = some x → x.ctr < 8 → Blk.locate x.page = some (b, k, 0) → p.absent b k = false →
      (p.pendDue x = false → Does (.perfCtlApply i) s fun t => t.pkg = p) ∧
      (p.pendDue x = true → Does (.perfCtlApply i) s fun t =>
        p.PerfSet t.pkg b k x.ctr x.ctrl ∧ t.pkg.perfPend = dropAt p.perfPend i ∧
        ((∃ y ∈ dropAt p.perfPend i, y.cmd = x.cmd) → t.pkg.host.running = p.host.running) ∧
        ((∀ y ∈ dropAt p.perfPend i, y.cmd ≠ x.cmd) → ∀ z ∈ t.pkg.host.running, z.no ≠ x.cmd) ∧
        t.pkg.fens = p.fens ∧ t.pkg.job = p.job)) ∧
    (p.Clean 0x0040 c l → c.le 0x14 4 ≠ 0 → c.le 0x28 4 = 64 →
      let slot := c.le 0x10 1
      let id := c.le 0x14 4
      ((∀ e ∈ p.spdm.sessions, e.established = true → e.id ≠ c.le 0x18 4) → Does .keyInstall s fun t => q.Refuses t.pkg c 0x0413 0 0) ∧
      (∀ e, List.find? (fun e => e.established && decide (e.id = c.le 0x18 4)) p.spdm.sessions = some e →
        let held : Prop := 64 ≤ slot ∨ p.keyBusy slot = true ∨ ∃ k ∈ p.wgt.keys, k.1 ≠ slot ∧ k.2.id = id
        (held → Does .keyInstall s fun t => q.Refuses t.pkg c 0x0411 0 0) ∧
        (¬ held → c.le 0x20 8 % 64 = 0 →
          let b := p.host.mem.read (c.le 0x20 8) 64
          let opened := gcmOpen (smKey e.version e.reqSecret (ascii "mladuth wkey")) (sliceB b 0 12) (sliceB b 0 16 ++ leBytes 1 slot)
            (sliceB b 16 32) (sliceB b 48 16)
          (∀ key, opened = some key → leAt b 12 4 = id → Does .keyInstall s fun t =>
            t.pkg.wgt = { p.wgt with keys := t.pkg.wgt.keys } ∧
            (∀ j, AMap.find? t.pkg.wgt.keys j = if j = slot then some { id := id, key := key } else AMap.find? p.wgt.keys j) ∧
            q.Ends t.pkg c 0 0 ∧ p.Logged t.pkg .sec 0 0x0162 p.tb0 slot ∧ q.ByCommand t.pkg { p with wgt := t.pkg.wgt }) ∧
          (opened = none ∨ leAt b 12 4 ≠ id → Does .keyInstall s fun t =>
            q.Answers t.pkg c 0x0412 0 0 ∧ p.Logged t.pkg .sec 0 0x0163 p.tb0 slot ∧ q.ByCommand t.pkg p)))) ∧
    (p.Clean 0x0030 c l → c.le 0x12 1 ≤ 1 → (c.le 0x12 1 = 1 → p.planRuns = true) →
      let e := p.adapter (c.le 0x10 2)
      let past : Prop := c.le 0x12 1 = 1 ∧ c.le 0x28 8 < p.stepOf p.refCount + 2
      let taken : Prop := c.le 0x14 4 = 0 ∨ (e.s0.st ≠ 0 ∧ e.s0.gen = c.le 0x14 4) ∨ (e.s1.st ≠ 0 ∧ e.s1.gen = c.le 0x14 4)
      let room : Prop := e.s0.st = 0 ∨ e.s0.st = 3 ∨ e.s1.st = 0 ∨ e.s1.st = 3
      (past → Does .adapterPut s fun t => q.Refuses t.pkg c 0x0402 0 0) ∧
      (¬ past → ¬ room → Does .adapterPut s fun t => q.Refuses t.pkg c 0x0401 0 0) ∧
      (¬ past → room → taken → Does .adapterPut s fun t => q.Refuses t.pkg c 0x0403 0 0) ∧
      (¬ past → room → ¬ taken → Does .adapterPut s fun t =>
        t.pkg.roll.changes = p.roll.changes ++ [{ mode := c.le 0x12 1, handle := c.le 0x10 2, gen := c.le 0x14 4, addr := c.le 0x18 8,
                                                  len := c.le 0x20 8, step := c.le 0x28 8, cmd := c.no }] ∧
        q.GoesOn t.pkg c ∧ q.ByCommand t.pkg { p with roll := { p.roll with changes := t.pkg.roll.changes } })) ∧
    (p.Clean 0x0031 c l →
      let e := p.adapter (c.le 0x10 2)
      (e.s0.st ≠ 1 ∧ e.s1.st ≠ 1 → Does .adapterRetire s fun t => q.Refuses t.pkg c 7 0 0) ∧
      (e.s0.st = 1 ∨ e.s1.st = 1 → Does .adapterRetire s fun t =>
        (∃ x, t.pkg.roll.changes = p.roll.changes ++ [x] ∧ x.mode = 2 ∧ x.handle = c.le 0x10 2 ∧ x.cmd = c.no) ∧
        q.GoesOn t.pkg c ∧ q.ByCommand t.pkg { p with roll := { p.roll with changes := t.pkg.roll.changes } })) ∧
    (∀ k, p.Front 0x0090 c l → c.path = .slot k → Does .partitionSet s fun t => q.Refuses t.pkg c 5 0 0) ∧
    (∀ n : Fin 16, p.Clean 0x0090 c l → c.path = .care → c.le 0x10 2 = 2 ^ n.val → c.le 0x13 1 ≤ 1 →
      let x := p.port n
      let id := p.fget F.issynPartPartId n
      let fence := p.fget F.issynPartFence n
      let v := c.le 0x12 1
      let empty := x.stag = [] ∧ x.replay = [] ∧ ∀ r ∈ x.rx, r.delivered = true ∧ r.transit = none
      let goes : Prop := v = id ∨ ((fence = 1 ∨ c.le 0x13 1 = 1) ∧ empty)
      (goes → Does .partitionSet s fun t =>
        t.pkg.fget F.issynPartPartId n = v ∧ t.pkg.fget F.issynPartFence n = c.le 0x13 1 ∧ q.Ends t.pkg c 0 0 ∧
        (∀ j, j ≠ n.val → t.pkg.port j = p.port j) ∧ t.pkg.fens = p.fens ∧ t.pkg.job = p.job) ∧
      (¬ goes → Does .partitionSet s fun t =>
        t.pkg.fget F.issynPartPartId n = id ∧ t.pkg.fget F.issynPartFence n = (if c.le 0x13 1 = 1 then 1 else fence) ∧
        q.Answers t.pkg c 7 (2 ^ n.val) 0 ∧ p.ErrRegs t.pkg .issyn n 0x0092 p.tb1 0 ∧
        (∀ j, j ≠ n.val → t.pkg.port j = p.port j) ∧ t.pkg.fens = p.fens ∧ t.pkg.job = p.job))

/-- O49. R520 to R528: POWER_STATE is refused by the first refuser that holds, or enters in two phases, of which the first
can be aborted; the state acts once the entry is done, and a wake event ends it. The model's readings and choices it rests
on: log entries 5 and 85. -/
def Obligations.PowerStates : Prop :=
  ∀ (s : State) (c : Cmd) (l : List Cmd),
    let p := s.pkg
    let q := { p with host := { p.host with taken := l } }
    let w := p.power
    let noted (u : Pkg) (t r d a : Nat) : Prop :=
      u.fget F.chipPwrLastRefuser 0 = r % 8 ∧ u.fget F.chipPwrLastAbort 0 = a ∧ u.fget F.chipPwrLastTarget 0 = t % 8 ∧
      u.fget F.chipPwrLastDetail 0 = d % 2 ^ 16 ∧ u.fget F.chipPwrLastTb0 0 = p.tb0 % 2 ^ 32
    (p.Clean 0x0080 c l → c.le 0x10 1 ≤ 4 →
      (c.le 0x10 1 = 0 → w.state = 0 → w.cmd = none → Does .powerState s fun t => q.Ends t.pkg c 0 0 ∧ q.ByCommand t.pkg p) ∧
      (c.le 0x10 1 = 0 → w.cmd.isSome = true ∨ (1 ≤ w.state ∧ w.state ≤ 3) → Does .powerState s fun t =>
        q.GoesOn t.pkg c ∧ t.pkg.power = { w with wakeHeld := true } ∧ q.ByCommand t.pkg { p with power := t.pkg.power }) ∧
      (c.le 0x10 1 ≠ 0 → w.state ≠ 0 ∨ w.cmd.isSome = true → Does .powerState s fun t => q.Refuses t.pkg c 7 0 0) ∧
      (c.le 0x10 1 ≠ 0 → w.state = 0 → w.cmd = none →
        (∀ r, p.refuser (c.le 0x10 1) = some r → Does .powerState s fun t =>
          q.Answers t.pkg c 0x0441 r.1 0 ∧ noted t.pkg (c.le 0x10 1) r.1 r.2 0 ∧ p.Logged t.pkg .chip 0 0x0142 p.tb0 r.1 ∧
          t.pkg.power = w ∧ t.pkg.job = p.job) ∧
        (p.refuser (c.le 0x10 1) = none → Does .powerState s fun t =>
          q.GoesOn t.pkg c ∧ t.pkg.power = { w with target := c.le 0x10 1, cmd := some c, committed := false } ∧
          q.ByCommand t.pkg { p with power := t.pkg.power, free := p.free + 1 }))) ∧
    (∀ t, p.rollBusy ≠ 0 ∨ p.roll.backlog ≠ [] → p.refuser t = some (1, p.rollBusy)) ∧
    (∀ t, p.rollBusy = 0 → p.roll.backlog = [] → (3 ≤ p.job.state ∧ p.job.state ≤ 7) ∨ p.tb1Run = true →
      p.refuser t = some (2, p.job.state)) ∧
    (∀ a, p.on = true → w.cmd = some a →
      (w.committed = true ∨ (p.refuser w.target).isSome = true → Does .powerEntryCommit s fun t => t.pkg = p) ∧
      (w.committed = false → p.refuser w.target = none →
        (∀ d, d < 4 → (p.dredge d).phase = 0) → w.target < 2 ∨ (p.dram.queue = [] ∧ ∀ m ∈ p.mesh, m.reqs = []) → Does .powerEntryCommit s fun t =>
          t.pkg.power = { w with committed := true } ∧ p.Logged t.pkg .chip 0 0x0140 p.tb0 w.target ∧
          (w.target < 2 → t.pkg.host.running = p.host.running) ∧
          (2 ≤ w.target → ∀ x ∈ t.pkg.host.running, x.no ≠ a.no) ∧
          t.pkg.care.flash.log = (if w.target = 4 then p.care.log else p.care.flash.log) ∧ t.pkg.fens = p.fens) ∧
      ((∃ d, d < 4 ∧ (p.dredge d).phase ≠ 0) ∨ (2 ≤ w.target ∧ (p.dram.queue ≠ [] ∨ ∃ m ∈ p.mesh, m.reqs ≠ [])) →
        Does .powerEntryCommit s fun t => t.pkg = p) ∧
      (∀ r, w.committed = false → p.refuser w.target = some r → Does .powerAborted s fun t =>
        t.pkg.power = { w with target := 0, cmd := none, wakeHeld := false } ∧ noted t.pkg w.target r.1 r.2 1 ∧
        p.ErrRegs t.pkg .chip 0 0x0143 p.tb0 r.1 ∧ (∀ x ∈ t.pkg.host.running, x.no ≠ a.no ∧ x.opcode ≠ 0x0080) ∧
        t.pkg.fens = p.fens) ∧
      (w.committed = true ∨ p.refuser w.target = none → Does .powerAborted s fun t => t.pkg = p) ∧
      (w.committed = false → Does .powerEntryDone s fun t => t.pkg = p) ∧
      (w.committed = true → w.target < 4 → Does .powerEntryDone s fun t =>
        t.pkg.power = { w with state := w.target, committed := false, cmd := none } ∧
        (w.target < 2 → t.pkg.bell = p.bell ∧ t.pkg.dram = p.dram) ∧
        (w.target = 1 → ∀ x ∈ t.pkg.host.running, x.no ≠ a.no) ∧
        (2 ≤ w.target → t.pkg.bell.tb1.state = .hold ∧ t.pkg.bell.tb2.state = .hold ∧
          ∀ k ∈ p.stacksLeft, (t.pkg.stack k).selfRefresh = true) ∧
        (w.target = 3 → ∀ f, f < 288 → (t.pkg.fen f).proc.icache.lines = [])) ∧
      (w.committed = true → w.target = 4 → w.en = 15 → Does .powerEntryDone s fun t =>
        t.pkg.on = false ∧ t.pkg.power.state = 4 ∧ t.pkg.power.wakeAfter = w.wakeHeld ∧ t.pkg.power.en = 7 ∧ t.pkg.power.rising = false ∧
        t.pkg.host.mem = p.host.mem ∧ t.pkg.care.flash = p.care.flash)) ∧
    (p.on = true → 1 ≤ w.state → w.state ≤ 3 → w.cmd = none →
      (w.wakeHeld = false → Does .powerExit s fun t => t.pkg = p) ∧
      (w.wakeHeld = true → Does .powerExit s fun t =>
        t.pkg.power = { w with state := 0, target := 0, wakeHeld := false } ∧ p.ErrRegs t.pkg .chip 0 0x0141 p.tb0 w.state ∧
        t.pkg.noneRuns 0x0080 ∧ (2 ≤ w.state → ∀ k ∈ p.stacksLeft, (t.pkg.stack k).selfRefresh = false) ∧
        (2 ≤ w.state → ∀ n, n < 16 → p.fon F.issynCtrlEnable n = true → (p.port n).state = .up → (t.pkg.port n).state = .retrain)))

/-- O50. R523, R582, R586 to R589: the enables rise one by one after VAUX or a held WAKE_N, and are released in turn when a
power-good fails, none comes, or a die trips; the cause is latched; a dark package keeps its flash and host memory. The
model's readings and choices it rests on: log entry 5. -/
def Obligations.PowerRails : Prop :=
  ∀ (s : State),
    let p := s.pkg
    let w := p.power
    let falls (u : Pkg) (x : Power) : Prop :=
      u.power.en = w.en / 2 ∧ u.power.rising = false ∧ u.power.latchTrip = x.latchTrip ∧ u.power.latchPg = x.latchPg ∧
      u.power.latchSeq = x.latchSeq ∧ u.power.tripPin = x.tripPin ∧ u.power.vaux = w.vaux ∧ u.part = p.part ∧
      u.care.flash = p.care.flash ∧ u.host.mem = p.host.mem ∧ u.job = .init ∧ (w.en ≤ 15 → u.on = false)
    (p.on = true → (w.cmd.isSome = true ∨ (1 ≤ w.state ∧ w.state ≤ 3)) → Does .wakeN s fun t =>
      t.pkg = { p with power := { w with tripPin := false, wakeHeld := true } }) ∧
    (p.on = true → w.cmd = none → (w.state = 0 ∨ 3 < w.state) → Does .wakeN s fun t =>
      t.pkg = { p with power := { w with tripPin := false } }) ∧
    (p.on = false → Does .wakeN s fun t =>
      t.pkg = { p with power := { w with tripPin := false, wakeAfter := if w.rising = true ∧ w.en ≠ 0 then w.wakeAfter else true } }) ∧
    Does .powerUpStart s (fun t => t.pkg =
      if w.en = 0 ∧ (w.vaux = false ∨ (w.wakeAfter = true ∧ w.tripPin = false)) then
        { p with power := { w with vaux := true, en := 1, pg := 0, rising := true, wakeAfter := false } }
      else p) ∧
    (w.en ≤ 15 → Does .pwrEnStep s fun t => t.pkg =
      { p with power := { w with en := if w.rising = true then (if w.en = 0 ∨ w.en = 15 then w.en else 2 * w.en + 1) else w.en / 2 } }) ∧
    (∀ m : Fin 16, Does (.pwrSeqTimeout m) s fun t => t.pkg =
      if w.rising = true ∧ w.en = 15 ∧ w.pg ≠ 15 ∧ m.val ≠ 15 then
        { p with power := { w with rising := false, en := 7, latchSeq := some m.val } }
      else p) ∧
    (∀ i : Fin 4,
      (w.rising = true ∧ w.en / 2 ^ i.val % 2 = 1 → Does (.pgLost i) s fun t => falls t.pkg { w with latchPg := some i.val }) ∧
      (¬ (w.rising = true ∧ w.en / 2 ^ i.val % 2 = 1) → Does (.pgLost i) s fun t => t.pkg = p)) ∧
    (∀ n, n < 320 ∧ w.vaux = true ∧ w.en ≠ 0 → Does (.thermtrip n) s fun t =>
      falls t.pkg { w with tripPin := true, latchTrip := some (sensorDie n) }) ∧
    (∀ n, ¬ (n < 320 ∧ w.vaux = true ∧ w.en ≠ 0) → Does (.thermtrip n) s fun t => t.pkg = p) ∧
    (∀ x, Does (.vauxLoss x) s fun t =>
      t.pkg.power.en = 0 ∧ t.pkg.power.pg = 0 ∧ t.pkg.power.vaux = false ∧ t.pkg.power.latchTrip = none ∧ t.pkg.power.latchPg = none ∧
      t.pkg.power.latchSeq = none ∧ t.pkg.on = false ∧ t.pkg.part = p.part ∧ t.pkg.care.flash = p.care.flash ∧
      t.pkg.host.mem = p.host.mem ∧ t.bursar.powered = false)

/-- O51. R13, R313, R428, R529, R555 to R574: an 8-byte write through page 0 replaces the writable fields, through page 1
sets, through page 2 clears them; fields that are read-only, or the Caretaker's when the host writes, stay. A read answers
what the register holds and clears its RC fields through page 0; what hardware sets in the same tick stays set (R15). The
rank table is the Caretaker's, and closed while a plan is armed. The model's readings and choices it rests on: log entries 5,
71 and 125. -/
def Obligations.RegisterAccess : Prop :=
  ∀ (s : State) (care : Bool) (off : Nat), s.pkg.on = true →
    let p := s.pkg
    (∀ size v, ¬ ((size = 4 ∨ size = 8) ∧ off % size = 0) →
      (Does (.registerRead care off size) s fun t => t.pkg = { p with host := { p.host with resp := p.host.resp ++ [([], true, false)] } }) ∧
      (Does (.registerWrite care off size v) s fun t => t.pkg = p)) ∧
    (∀ b i pg o (v : W64) r, off % 8 = 0 → Blk.locate off = some (b, i, 0x1000 * pg + o) → o < 0x1000 → msixAt off = false →
      pbaAt off = false → (care = true ∨ p.host.d3hot = false) →
      (pg = 3 → (Does (.registerRead care off 8) s fun t =>
          t.pkg = { p with host := { p.host with resp := p.host.resp ++ [(leBytes 8 0, false, false)] } }) ∧
        (p.power.state ≠ 3 → Does (.registerWrite care off 8 v) s fun t => t.pkg = p)) ∧
      (pg < 3 → (Does (.registerRead care off 8) s fun t =>
        let clears : Prop := pg = 0 ∧ p.absent b i = false
        t.pkg.host = { p.host with
          resp := p.host.resp ++ [(leBytes 8 (if clears then p.rcValue b i o else p.regRead b i o).toNat, false, false)] } ∧
        t.pkg.reg b i o =
          (if clears then (p.reg b i o &&& ~~~(rcMask b o)) ||| ((p.freshOf b i o).2 &&& rcMask b o) else p.reg b i o) ∧
        p.Keeps t.pkg { p with host := t.pkg.host } { regs := [b.base i + o] })) ∧
      (pg < 3 → p.power.state ≠ 3 → p.absent b i = true → Does (.registerWrite care off 8 v) s fun t => t.pkg = p) ∧
      (pg < 3 → p.power.state ≠ 3 → p.absent b i = false → plainReg b o = true → b.row? o = some r →
        Does (.registerWrite care off 8 v) s fun t =>
          p.Keeps t.pkg p { regs := [b.base i + o] ++ if b = .fen ∧ 0x200 ≤ o then [F.fenSlabRepairSparesUsed.at_ i] else [] } ∧
          (∀ k, (∀ f ∈ r.fields, k < f.lo ∨ f.hi < k) → bit (t.pkg.reg b i o) k = bit (p.reg b i o) k) ∧
          ∀ f ∈ r.fields, ∀ k, f.lo ≤ k → k ≤ f.hi → k < 64 →
            let old := bit (p.reg b i o) k
            bit (t.pkg.reg b i o) k =
              if f.care = true ∧ care = false then old
              else match f.acc with
                | .rw => if pg = 0 then bit v k else if pg = 1 then old || bit v k else old && !bit v k
                | .w1c => if pg = 1 then old else old && !(bit v k && !bit (p.freshOf b i o).2 k)
                | .st => if b = .fen ∧ 0x200 ≤ o then (if pg = 0 then bit v k else if pg = 1 then old || bit v k else old && !bit v k) else old
                | _ => old)) ∧
    (∀ e v, e < 16384 →
      (care = false → Does (.rankTableWrite e care v) s fun t => t.pkg = p) ∧
      (care = true → p.planRuns = true ∨ p.job.arming.isSome = true ∨ (∃ n, p.job.next = some n ∧ n.arm.isSome = true) →
        Does (.rankTableWrite e care v) s fun t => p.Logged t.pkg .fab 0 0x0093 p.tb1 0 ∧ t.pkg.rank = p.rank ∧ p.Keeps t.pkg p {}) ∧
      (care = true → p.planRuns = false → p.job.arming = none → (∀ n, p.job.next = some n → n.arm = none) →
        Does (.rankTableWrite e care v) s fun t =>
          t.pkg = { p with rank := t.pkg.rank } ∧
          ∀ j, t.pkg.rank.getD j 0#64 = if j = e then v &&& 0x3FFF7F#64 else p.rank.getD j 0#64)) ∧
    (∀ b i n, Blk.locate off = some (b, i, 0) → n < 8 → p.absent b i = false →
      (care = true → Does (.perfCounterClear off n care) s fun t =>
        t.pkg.reg b i (0x080 + 8 * n) = 0#64 ∧ p.Keeps t.pkg p {}) ∧
      (care = false → Does (.perfCounterClear off n care) s fun t => t.pkg = p)) ∧
    (∀ d : Fin 4, Does (.markReset d) s fun t =>
      t.pkg.mark d = { p.mark d with sample := 0, written := 0, lastRec := none } ∧ t.pkg.reg .mark d 0x108 = 0#64 ∧
      p.Keeps t.pkg p { marks := [d.val], regs := [F.markStatDropped.at_ d] }) ∧
    (∀ (d : Fin 4) i m, (p.mark d).open_[i]? = some m →
      (p.markDue m = false → Does (.markRecord d i) s fun t => t.pkg = p) ∧
      (p.markDue m = true → (p.mark d).lastRec ≠ some p.refCount →
        (p.fon F.markCfgStopFull d = true → (p.mark d).written < 4095) → Does (.markRecord d i) s fun t =>
          t.pkg.mark d = { p.mark d with
            open_ := dropAt (p.mark d).open_ i, recs := AMap.put (p.mark d).recs ((p.mark d).written % 4096) m.bytes,
            written := (p.mark d).written + 1, lastRec := some p.refCount } ∧
          t.pkg.fget F.markStatWrIndex d = ((p.mark d).written + 1) % 4096 ∧
          p.Keeps t.pkg p { marks := [d.val], regs := [F.markStatDropped.at_ d] }) ∧
      (p.markDue m = true → (p.mark d).lastRec = some p.refCount → (p.mark d).written < 4096 → Does (.markRecord d i) s fun t =>
        t.pkg.mark d = { p.mark d with open_ := dropAt (p.mark d).open_ i } ∧
        t.pkg.fget F.markStatDropped d = satAdd 16 (p.fget F.markStatDropped d) 1))

/-- O52. R429, R430, R432 to R437, R504: the scan takes the Caretaker's queued records and each slot whose SEQ is new and
whose command is done; a Function Level Reset clears the host's registers and silences its commands, and no plan; BAR2's
intake, slot and weight areas and the memory windows are read and written; the link and D3hot are noted. The model's readings
and choices it rests on: log entries 5, 62, 86 and 138. -/
def Obligations.HostAccess : Prop :=
  ∀ (s : State), s.pkg.on = true →
    let p := s.pkg
    let seq (n : Nat) : Nat := leAt (p.host.slotMem.read (512 * n) 512) 0x1FC 4
    let new (n : Nat) : Prop := seq n ≠ 0 ∧ p.host.lastSeq.getD n 0 ≠ seq n ∧ p.slotBusy n = false
    (p.fget F.chipStage 0 < 2 ∨ 3 ≤ p.power.state → Does .commandSlotScan s fun t => t.pkg = p) ∧
    (2 ≤ p.fget F.chipStage 0 → p.power.state = 0 → p.power.cmd = none → p.roll.changes = [] → p.host.careCpl = [] →
      (∀ n, n < 8 → p.care.cmdQ = [] → new n → (∀ j, j < 8 → j ≠ n → ¬ new j) → Does .commandSlotScan s fun t =>
        t.pkg.host = { p.host with
          nextNo := p.host.nextNo + 1, taken := p.host.taken ++ [p.takenCmd (.slot n) (p.host.slotMem.read (512 * n) 512)],
          lastSeq := t.pkg.host.lastSeq } ∧
        (∀ j, t.pkg.host.lastSeq.getD j 0 = if j = n then seq n else p.host.lastSeq.getD j 0) ∧
        t.pkg.fget F.hostStatTaken 0 = satAdd 24 (p.fget F.hostStatTaken 0) 1 ∧
        p.Keeps t.pkg { p with host := t.pkg.host } { regs := [F.hostStatTaken.at_ 0] }) ∧
      (∀ x, p.care.cmdQ = [x] → (∀ j, j < 8 → ¬ new j) → Does .commandSlotScan s fun t =>
        t.pkg.host = { p.host with nextNo := p.host.nextNo + 1, taken := p.host.taken ++ [p.takenCmd .care x.2] } ∧
        t.pkg.care = { p.care with cmdQ := [] } ∧
        p.Keeps t.pkg { p with host := t.pkg.host, care := t.pkg.care } { regs := [F.hostStatTaken.at_ 0] })) ∧
    (Does .functionLevelReset s fun t =>
      t.pkg.host.lastSeq = [] ∧ t.pkg.host.cplQ = [] ∧ t.pkg.host.nextNo = p.host.nextNo ∧ t.pkg.host.slotMem = p.host.slotMem ∧
      (∀ x ∈ t.pkg.host.taken ++ t.pkg.host.running, (∃ n, x.path = .slot n) → x.silent = true) ∧
      t.pkg.host.taken.map Cmd.no = p.host.taken.map Cmd.no ∧ t.pkg.host.running.map Cmd.no = p.host.running.map Cmd.no ∧
      (∀ o, o < 0x4000 → o < 0x080 ∨ 0x100 ≤ o → o ≠ F.hostPatchRejected.off → t.pkg.reg .host 0 o = Blk.host.resetVal o) ∧
      t.pkg.fget F.rollCtrlEgressEn 0 = 0 ∧ t.pkg.fens = p.fens ∧ t.pkg.job = p.job ∧ t.pkg.roll = p.roll ∧ t.pkg.bell = p.bell ∧
      t.pkg.care = p.care ∧ t.pkg.dram = p.dram) ∧
    (∀ w o n, p.host.d3hot = false →
      let answer (bs : List Byte) (po : Bool) (t : State) : Prop := t.pkg = { p with host := { p.host with resp := p.host.resp ++ [(bs, false, po)] } }
      (areaSize w < o + n → Does (.memoryWindowRead w o n) s fun t =>
        t.pkg.host.resp = p.host.resp ++ [([], true, false)] ∧ t.pkg.fget F.hostStatUr 0 = satAdd 24 (p.fget F.hostStatUr 0) 1) ∧
      (o + n ≤ areaSize w →
        (w = 2 → Does (.memoryWindowRead w o n) s (answer (p.roll.intake.read o n) false)) ∧
        (w = 3 → Does (.memoryWindowRead w o n) s (answer (p.host.slotMem.read o n) false)) ∧
        (w = 4 → Does (.memoryWindowRead w o n) s (answer (p.wgt.frames.read o n) false)) ∧
        (w < 2 → p.power.state ≠ 3 →
          let cls := p.fget (F.hostMwinClass.nth w) 0
          let a := p.fget (F.hostMwinBase.nth w) 0 / 2 ^ 30 * 2 ^ 30 + o
          (p.badRun cls a n = true → Does (.memoryWindowRead w o n) s fun t =>
            t.pkg.host.resp = p.host.resp ++ [([], true, false)] ∧ t.pkg.dram = p.dram) ∧
          (p.badRun cls a n = false → cls = 1 → p.oddWords 1 a n = [] → Does (.memoryWindowRead w o n) s (answer (p.memRead 1 a n) false)) ∧
          (p.badRun cls a n = false → cls = 1 →
            (∃ x, x % 64 = 0 ∧ a % 2 ^ 41 < x + 64 ∧ x < a % 2 ^ 41 + n ∧ p.dram.peatBad.getD x 0 = 2) →
            Does (.memoryWindowRead w o n) s fun t => ∃ bs, t.pkg.host.resp = p.host.resp ++ [(bs, false, true)] ∧ t.pkg.fens = p.fens) ∧
          (p.badRun cls a n = false → cls = 0 → 0 < n → (∀ i, i < n → inWpt ((a + i) % 2 ^ 36) = false) →
            (∃ x, x % 8 = 0 ∧ a % 2 ^ 39 < x + 8 ∧ x < a % 2 ^ 39 + n ∧ p.dramWord x = .bad) →
            Does (.memoryWindowRead w o n) s fun t => ∃ bs, t.pkg.host.resp = p.host.resp ++ [(bs, false, true)] ∧ t.pkg.fens = p.fens) ∧
          (p.badRun cls a n = false → cls = 0 → p.oddWords 0 a n = [] → 0 < n →
            (∀ i, i < n → inWpt ((a + i) % 2 ^ 36) = false) →
            Does (.memoryWindowRead w o n) s (answer (p.dram.mem.read (a % 2 ^ 39) n) false))))) ∧
    (∀ w o be data, be.length = data.length →
      let put (m m' : Memory) (x : Nat) : Prop := ∀ k, m'.byte k =
        if x ≤ k ∧ k < x + data.length ∧ be.getD (k - x) false = true then data.getD (k - x) 0#8 else m.byte k
      (p.host.d3hot = true ∨ areaSize w < o + data.length → ∀ ep, Does (.memoryWindowWrite w o be data ep) s fun t =>
        t.pkg.fget F.hostStatUr 0 = satAdd 24 (p.fget F.hostStatUr 0) 1 ∧ p.ErrRegs t.pkg .host 0 0x00D1 p.tb0 0 ∧
        p.Keeps t.pkg p { regs := [F.hostStatUr.at_ 0] }) ∧
      (p.host.d3hot = false → o + data.length ≤ areaSize w →
        (w = 2 → Does (.memoryWindowWrite w o be data false) s fun t =>
          t.pkg = { p with roll := { p.roll with intake := t.pkg.roll.intake } } ∧ put p.roll.intake t.pkg.roll.intake o) ∧
        (w = 3 → p.power.state ≠ 3 → Does (.memoryWindowWrite w o be data false) s fun t =>
          t.pkg = { p with host := { p.host with slotMem := t.pkg.host.slotMem } } ∧ put p.host.slotMem t.pkg.host.slotMem o) ∧
        (w = 4 → Does (.memoryWindowWrite w o be data false) s fun t =>
          t.pkg = { p with wgt := { p.wgt with frames := t.pkg.wgt.frames } } ∧ put p.wgt.frames t.pkg.wgt.frames o) ∧
        (w < 2 → p.power.state ≠ 3 →
          let cls := p.fget (F.hostMwinClass.nth w) 0
          let a := p.fget (F.hostMwinBase.nth w) 0 / 2 ^ 30 * 2 ^ 30 + o
          (p.badWrite cls a data.length = true → Does (.memoryWindowWrite w o be data false) s fun t =>
            t.pkg.dram = p.dram ∧ p.ErrRegs t.pkg .host 0 0x00D1 p.tb0 0) ∧
          (p.badWrite cls a data.length = false → Does (.memoryWindowWrite w o be data false) s fun t =>
            t.pkg = { p with dram := t.pkg.dram } ∧
            (if cls = 0 then put p.dram.mem t.pkg.dram.mem a ∧ t.pkg.dram.peat = p.dram.peat
             else put p.dram.peat t.pkg.dram.peat a ∧ t.pkg.dram.mem = p.dram.mem))))) ∧
    (∀ g w, (p.host.linkGen = g ∧ p.host.linkWidth = w → Does (.hostLinkChange g w) s fun t => t.pkg = p) ∧
      (¬ (p.host.linkGen = g ∧ p.host.linkWidth = w) → Does (.hostLinkChange g w) s fun t =>
        t.pkg.host.linkGen = g ∧ t.pkg.host.linkWidth = w ∧ (∃ code, p.ErrRegs t.pkg .care 0 code p.tb0 0) ∧
        p.Keeps t.pkg { p with host := { p.host with linkGen := g, linkWidth := w }, free := p.free + 1 } {})) ∧
    (Does (.d3hot true) s fun t => t.pkg = { p with host := { p.host with d3hot := true } }) ∧
    (p.host.cplQ = [] → p.roll.backlog = [] → Does (.d3hot false) s fun t =>
      t.pkg = { p with host := { p.host with d3hot := false }, roll := { p.roll with batch := p.roll.batch + 1 } })

/-- O53. R468 to R477, R486, R490, R491: a cold reset starts the package anew on the straps sampled; a warm reset clears
jobs, queues and the registers of HOST, ROLL, JOB and WGT and keeps the stage; stages follow in order, each once its
condition holds; stacks are trained one by one, and lost stacks and channels leave service with their events. The model's
readings and choices it rests on: log entries 5, 81, 82, 124 and 126. -/
def Obligations.Resets : Prop :=
  ∀ (s : State) (rack board pos mode : Nat),
    let p := s.pkg
    let k := p.fget F.chipStage 0
    let straps (u : Pkg) : Prop := u.part = { p.part with rackId := rack % 256, boardId := board % 16, posId := pos % 4, bootMode := mode % 4 } ∧
      u.phys = rack % 256 * 64 + board % 16 * 4 + pos % 4
    (¬ (p.power.en = 15 ∧ p.power.vaux = true) → Does (.coldReset rack board pos mode) s fun t => t.pkg = p) ∧
    (p.power.en = 15 → p.power.vaux = true → Does (.coldReset rack board pos mode) s fun t =>
      t.pkg.on = true ∧ t.bursar = s.bursar ∧ straps t.pkg ∧ t.pkg.fget F.chipStage 0 = 0 ∧ t.pkg.job = .init ∧ t.pkg.roll = .init ∧
      t.pkg.bell = .init ∧ t.pkg.wgt = .init ∧ t.pkg.dig = .init ∧ t.pkg.mesh = [] ∧ t.pkg.rank = [] ∧ t.pkg.spdm = .init ∧
      t.pkg.evq = [] ∧ t.pkg.dram.mem = [] ∧ t.pkg.dram.peat = [] ∧ (∀ f, (t.pkg.fen f).proc = .init ∧ (t.pkg.fen f).qTe = [] ∧
        (t.pkg.fen f).slab.mem = []) ∧
      (∀ d j, d < 4 → j < 72 → p.fused (d * 72 + j) = false → (∀ i, i < j → p.fused (d * 72 + i) = true) →
        (t.pkg.dredge d).fen = d * 72 + j ∧ (t.pkg.dredge d).phase = 0) ∧
      t.pkg.host = { HostIf.init with mem := p.host.mem } ∧ t.pkg.care.flash = p.care.flash ∧ t.pkg.care.log = p.care.flash.log) ∧
    (p.on = true →
      (k < 2 → Does (.warmReset rack board pos mode) s fun t => t.pkg = p) ∧
      (2 ≤ k → Does (.warmReset rack board pos mode) s fun t =>
        t.pkg.job = .init ∧ t.pkg.roll = { Roll.init with intake := p.roll.intake, copies := p.roll.copies } ∧
        t.pkg.wgt = { Wgt.init with frames := t.pkg.wgt.frames, frameSeq := p.wgt.frameSeq } ∧ t.pkg.rank = [] ∧ t.pkg.mesh = [] ∧
        t.pkg.perfPend = [] ∧ t.pkg.dram.queue = [] ∧ t.pkg.dram.returns = [] ∧ t.pkg.host.mem = p.host.mem ∧ straps t.pkg ∧
        t.pkg.fget F.chipStage 0 = k ∧ t.pkg.tb1Run = false ∧ t.pkg.fget F.chipResetLast 0 = 1 ∧
        t.pkg.fget F.chipResetWarmCount 0 = satAdd 16 (p.fget F.chipResetWarmCount 0) 1 ∧ bits (t.pkg.reg .chip 0 0x048) 11 0 = 0x0F4 ∧
        (∀ f, f < 288 → p.fused f = false → (t.pkg.fen f).qTe = [] ∧ (t.pkg.fen f).qVe = [] ∧ (t.pkg.fen f).proc.st = .idle ∧
          (t.pkg.fen f).proc.ep = 0#64 ∧ ((p.dredge (f / 72)).phase = 0 → (t.pkg.fen f).slab.mem = (p.fen f).slab.mem)) ∧
        (∀ d, d < 4 →
          let x := p.dredge d
          x.phase = 0 ∨ (x.phase = 1 ∧ x.done < 8) ∨ ((x.phase = 2 ∨ x.phase = 4) ∧ x.done ≤ 160) ∨ (x.phase = 3 ∧ x.done ≤ 8) →
          (t.pkg.dredge d).phase = 0) ∧
        (∀ k, k < 8 → t.pkg.fget F.sdramThermCover k = 7) ∧
        (∀ d, d < 4 → (t.pkg.samp d).queue = [] ∧ (t.pkg.samp d).run = none)) ∧
      (p.stageReady (k + 1) = false → Does .stageEntered s fun t => t.pkg = p) ∧
      (p.stageReady (k + 1) = true → Does .stageEntered s fun t =>
        t.pkg.fget F.chipStage 0 = k + 1 ∧ t.pkg.fget F.chipStageStageMs 0 = min (2 ^ 32 - 1) (p.rawNs / 1000000) ∧
        (∀ n, k = 0 → n ∈ [6, 7, 14, 15] → (∀ x ∈ p.care.flash.rmap ++ p.care.flash.ways, x.1 ≠ F.issynCtrlMedium.at_ n) →
          t.pkg.fget F.issynCtrlMedium n = 1) ∧
        (k = 0 → t.pkg.mgUp = 3 ∧ t.pkg.power.latchTrip = none ∧ t.pkg.power.latchPg = none ∧ t.pkg.power.latchSeq = none) ∧
        (k = 1 → t.pkg.fget F.chipStageService 0 = 1) ∧
        (k = 2 → ∀ c, c < 8 → t.pkg.fget (F.peatModPresent.nth (c % 4)) (c / 4) = (if p.part.modules.getD c 256 = 0 then 0 else 1)) ∧
        (k = 3 → p.ErrRegs t.pkg .chip 0 0x00F0 p.tb0 4)) ∧
      (4 ≤ k → p.fget F.chipStageService 0 = 1 → p.planArmed = false → Does .fullRate s fun t =>
        t.pkg.fget F.chipStageService 0 = (if k = 5 then 3 else 2) ∧ t.pkg.fget F.chipStage 0 = k ∧ t.pkg.job = p.job) ∧
      (k < 4 ∨ p.fget F.chipStageService 0 ≠ 1 ∨ p.planArmed = true → Does .fullRate s fun t => t.pkg = p) ∧
      (∀ st : Fin 8,
        (p.training ≠ some st.val → Does (.stackTrainingDone st) s fun t => t.pkg = p) ∧
        (p.training = some st.val → p.job.arming = none → k = 2 → Does (.stackTrainingDone st) s fun t =>
          t.pkg.fullRate st = true ∧
          (if p.planArmed = true ∨ (∀ x ∈ p.stacksLeft, x ≠ st.val → p.fullRate x = true) then t.pkg.training = none
           else ∃ x ∈ p.stacksLeft, x ≠ st.val ∧ p.fullRate x = false ∧ t.pkg.training = some x) ∧ t.pkg.fens = p.fens) ∧
        (p.fitted st = true → (p.stack st).up = true → p.job.arming = none → Does (.stackLost st) s fun t =>
          (t.pkg.stack st).up = false ∧ t.pkg.fon F.chipFaultStack 0 = true ∧ p.ErrRegs t.pkg .sdram st 0x0111 p.tb0 st ∧
          t.pkg.training ≠ some st.val ∧ bit (t.pkg.reg .chip 0 0x120) 5 = true ∧ t.pkg.fens = p.fens) ∧
        ((p.stack st).up = false → Does (.stackLost st) s fun t => t.pkg = p)) ∧
      (∀ c, c < 8 →
        (p.fon (F.peatModPresent.nth (c % 4)) (c / 4) = true → Does (.peatLost c) s fun t =>
          t.pkg.fon (F.peatModPresent.nth (c % 4)) (c / 4) = false ∧ t.pkg.fon F.chipFaultPeat 0 = true ∧
          p.ErrRegs t.pkg .peat (c / 4) 0x0112 p.tb0 c ∧ bit (t.pkg.reg .chip 0 0x120) 6 = true ∧ t.pkg.fens = p.fens) ∧
        (p.fon (F.peatModPresent.nth (c % 4)) (c / 4) = false → Does (.peatLost c) s fun t => t.pkg = p)))

/-! The Caretaker. -/

/-- O54. R96, R499, R502 to R507, R548: every message of the fault manager that does not authenticate is dropped and logged,
one with a TAG seen before is acknowledged again and has no effect, and one that must ask for an acknowledgement and does not
is turned away; each type has its effect once. The model's readings and choices it rests on: log entries 5, 40, 87 and 88. -/
def Obligations.CaretakerMessages : Prop :=
  ∀ (s : State) (port : Nat) (b : List Byte),
    let p := s.pkg
    (∀ typ c must, msgRow port b typ = some (c, must) → p.on = true →
      (p.fget F.chipStage 0 = 0 → Does c s fun t => t.pkg = p) ∧
      (p.fget F.chipStage 0 ≠ 0 → (port < 2 → p.mgUp / 2 ^ port % 2 = 1) →
        (Msg.parse b = none ∨ (∃ m, Msg.parse b = some m ∧ m.isAck = false ∧ m.typ = typ ∧ p.msgAuth m b = false) → Does c s fun t =>
          t.pkg.fget F.careStatMsgDropped 0 = satAdd 16 (p.fget F.careStatMsgDropped 0) 1 ∧ p.Logged t.pkg .care 0 0x0127 p.tb0 0 ∧
          p.Keeps t.pkg p { regs := [F.careStatMsgDropped.at_ 0] })) ∧
      (∀ m, Msg.parse b = some m → m.isAck = false → m.typ = typ → p.fget F.chipStage 0 ≠ 0 → (port < 2 → p.mgUp / 2 ^ port % 2 = 1) →
        p.msgAuth m b = true → p.fwRuns = true → m.tag ∈ p.care.tags → Does c s fun t =>
          t.pkg.care = { p.care with
            lastMsg := p.tb1, everMsg := true,
            out := if m.flags % 2 = 1 then p.answerMsg port m 2 0 :: p.care.out else p.care.out } ∧
          p.Keeps t.pkg { p with care := t.pkg.care, spdm := t.pkg.spdm } {}) ∧
      (∀ m, p.msgIn typ port b m → must = true → m.flags % 2 = 0 → Does c s fun t => p.Nacked t.pkg port m 3)) ∧
    (∀ m, p.msgIn 1 port b m → Does (.heartbeat port b) s fun t =>
      p.Took t.pkg port m ∧
      t.pkg.care = { p.care with tags := t.pkg.care.tags, lastMsg := p.tb1, everMsg := true, out := t.pkg.care.out } ∧
      p.Keeps t.pkg { p with care := t.pkg.care, spdm := t.pkg.spdm } {}) ∧
    (∀ m, p.msgIn 4 port b m → m.flags % 2 = 1 →
      (m.body.length ≠ 512 → Does (.command port b) s fun t => p.Nacked t.pkg port m 3) ∧
      (m.body.length = 512 → 16 ≤ p.care.cmdQ.length → Does (.command port b) s fun t => p.Nacked t.pkg port m 1) ∧
      (m.body.length = 512 → p.care.cmdQ.length < 16 → Does (.command port b) s fun t =>
        p.Took t.pkg port m ∧ t.pkg.care.cmdQ = p.care.cmdQ ++ [(m.tag, m.body)] ∧
        t.pkg.power = (if p.power.state = 3 then { p.power with wakeHeld := true } else p.power) ∧
        p.Keeps t.pkg { p with care := t.pkg.care, spdm := t.pkg.spdm, power := t.pkg.power } {})) ∧
    (∀ m, p.msgIn 8 port b m → m.flags % 2 = 1 → m.body.length = 16 → leAt m.body 0 1 ≤ 64 →
      let at_ := leAt m.body 8 8
      (p.planRuns = false → at_ = 0 → Does (.throttleSet port b) s fun t =>
        p.Took t.pkg port m ∧ t.pkg.ratio = leAt m.body 0 1 ∧ t.pkg.bell.throttle = none ∧ p.ErrRegs t.pkg .pclk 0 0x0044 p.tb1 0 ∧
        t.pkg.fens = p.fens) ∧
      (p.planRuns = true → p.onBoundary at_ = true → p.refCount + 1050000 ≤ at_ → Does (.throttleSet port b) s fun t =>
        p.Took t.pkg port m ∧ t.pkg.ratio = p.ratio ∧ t.pkg.bell.throttle = some (leAt m.body 0 1, at_) ∧ t.pkg.fens = p.fens)) ∧
    (∀ m, p.msgIn 9 port b m → m.body.length = 16 → Does (.time port b) s fun t =>
      p.Took t.pkg port m ∧
      ∃ u v, exec (.tb0RateWrite true (BitVec.ofNat 64 (leAt m.body 8 4))) s = .next u ∧
        exec (.tb0AdjWrite true (BitVec.ofNat 64 (leAt m.body 0 8))) u = .next v ∧ t.pkg.bell = v.pkg.bell ∧
        t.pkg.fget F.bellTb0Rate 0 = v.pkg.fget F.bellTb0Rate 0 ∧ t.pkg.fens = p.fens) ∧
    (∀ m, p.msgIn 10 port b m → m.flags % 2 = 1 → m.body.length = 16 →
      let f := leAt m.body 2 2
      let w := leAt m.body 4 1
      let fl := p.care.flash
      let does (x : Flash) : Prop := Does (.record port b) s fun t =>
        p.Took t.pkg port m ∧ t.pkg.care.flash = x ∧ p.Keeps t.pkg { p with care := t.pkg.care, spdm := t.pkg.spdm } {}
      (leAt m.body 0 1 = 1 → f < 288 → does { fl with failed := if f ∈ fl.failed then fl.failed else fl.failed ++ [f] }) ∧
      (leAt m.body 0 1 = 2 → f < 288 → w < 64 → does { fl with
        rmap := AMap.set 0#64 fl.rmap (Blk.base .fen f + 0x200 + 8 * w) (BitVec.ofNat 64 (leAt m.body 8 8 % 2 ^ 14)) }) ∧
      (leAt m.body 0 1 = 3 → leAt m.body 1 1 < 8 → fl.replace / 2 ^ leAt m.body 1 1 % 2 = 0 →
        does { fl with replace := fl.replace + 2 ^ leAt m.body 1 1 })) ∧
    (∀ m, p.msgIn 11 port b m → m.flags % 2 = 1 →
      (p.onTrial = true → Does (.fwWrite port b) s fun t => p.Nacked t.pkg port m 1) ∧
      (p.onTrial = false → 5 ≤ m.body.length →
        let i := 1 - p.fget F.careStatusSlot 0
        let old := p.care.flash.slot i
        Does (.fwWrite port b) s fun t =>
          p.Took t.pkg port m ∧ t.pkg.fget F.careStatusUpdate 0 = 1 ∧
          t.pkg.care.flash = p.care.flash.setSlot i { old with
            factory := false,
            image := Memory.write (if old.factory then [] else old.image) (leAt m.body 0 4) (m.body.drop 4) } ∧
          p.Keeps t.pkg { p with care := t.pkg.care, spdm := t.pkg.spdm } { regs := [F.careStatusUpdate.at_ 0] })) ∧
    (∀ m, p.msgIn 12 port b m → m.flags % 2 = 1 → p.onTrial = false →
      let i := 1 - p.fget F.careStatusSlot 0
      let x := p.care.flash.slot i
      (x.boots p.part = false → Does (.fwActivate port b) s fun t =>
        t.pkg.care.flash = p.care.flash ∧ p.Logged t.pkg .care 0 0x0124 p.tb0 i ∧
        t.pkg.care.out = t.pkg.answerMsg port m 6 3 :: p.care.out) ∧
      (x.boots p.part = true → p.fget F.chipStrapsBootMode 0 % 2 = 0 → Does (.fwActivate port b) s fun t =>
        p.Took t.pkg port m ∧ t.pkg.care.flash = { p.care.flash.setSlot i { x with trial := true } with prefer := i } ∧
        t.pkg.fget F.careStatusSlot 0 = i ∧ t.pkg.onTrial = true ∧ t.pkg.fget F.careStatusUpdate 0 = 1 ∧
        t.pkg.care.trialStart = p.rawNs ∧ t.pkg.care.cmdQ = [] ∧
        t.pkg.fget F.careStatRestarts 0 = satAdd 16 (p.fget F.careStatRestarts 0) 1 ∧ t.pkg.fens = p.fens)) ∧
    (∀ m, p.msgIn 13 port b m → m.flags % 2 = 1 →
      (p.onTrial = false → Does (.fwCommit port b) s fun t => p.Nacked t.pkg port m 3) ∧
      (p.onTrial = true →
        let i := p.fget F.careStatusSlot 0
        let x := p.care.flash.slot i
        Does (.fwCommit port b) s fun t =>
          p.Took t.pkg port m ∧ t.pkg.onTrial = false ∧ t.pkg.fget F.careStatusUpdate 0 = 0 ∧
          t.pkg.care.flash = p.care.flash.setSlot i { x with trial := false } ∧
          t.pkg.part.fwFuses = max p.part.fwFuses (min 64 x.roll) ∧ p.Logged t.pkg .care 0 0x0125 p.tb0 0)) ∧
    (∀ m, p.on = true → p.fget F.chipStage 0 ≠ 0 → (port < 2 → p.mgUp / 2 ^ port % 2 = 1) → Msg.parse b = some m → m.isAck = true →
      p.msgAuth m b = true → Does (.messageAck port b) s fun t =>
        t.pkg.care = { p.care with
          lastMsg := p.tb1, everMsg := true, unacked := p.care.unacked.filter fun o => decide (o.msg.tag ≠ m.tag) } ∧
        p.Keeps t.pkg { p with care := t.pkg.care, spdm := t.pkg.spdm } {}) ∧
    (∀ (n : Fin 16) k, p.mgmtIn n k b →
      (k = 0x40 → exec (.mgmtFlit n b) s = exec (.wchunk n b) s) ∧ (k = 0x41 → exec (.mgmtFlit n b) s = exec (.wack n b) s) ∧
      (k = 0x50 → exec (.mgmtFlit n b) s = exec (.sdig n b) s) ∧ (k = 0x51 → exec (.mgmtFlit n b) s = exec (.sroll n b) s) ∧
      (k = 0x60 → exec (.mgmtFlit n b) s = exec (.armCopy n b) s) ∧
      (k = 0x43 → leAt (flitPayload b) 6 2 / 2 % 2 = 0 → leAt (flitPayload b) 3 1 = 1 →
        exec (.mgmtFlit n b) s = exec (.heartbeat 2 ((flitPayload b).take (48 + leAt (flitPayload b) 4 2))) s) ∧
      (k ∉ [0x40, 0x41, 0x43, 0x50, 0x51, 0x60] → Does (.mgmtFlit n b) s fun t =>
        t.pkg.fget F.issynErrBadFlit n = satAdd (F.issynErrBadFlit.hi + 1 - F.issynErrBadFlit.lo) (p.fget F.issynErrBadFlit n) 1 ∧
        p.Keeps t.pkg p { regs := [F.issynErrBadFlit.at_ n] }))

/-- O55. R497 to R509: what the Caretaker does of itself: readings and throttle requests, STATUS, the event log and its pages
in flash, retransmission, the end of a firmware trial, a restart by the watchdog, the management ports. The model's readings
and choices it rests on: log entries 5, 32, 88 and 89. -/
def Obligations.CaretakerOwn : Prop :=
  ∀ (s : State), s.pkg.on = true →
    let p := s.pkg
    (p.fwRuns = false → ∀ c ∈ [Instr.sensorSample [], .status, .eventLogAppend, .logFlashWrite], Does c s fun t => t.pkg = p) ∧
    (∀ n v, p.fwRuns = true → Does (.sensorSample [(n, v)]) s fun t =>
      let new := t.pkg.care.sensors
      (n < 320 ∨ (328 ≤ n ∧ n < 344) → new.getD n 0x8000 = v % 65536) ∧
      (∀ k, k < 8 → new.getD (320 + k) 0 = if p.fitted k then p.fget F.sdramThermTempC k % 256 * 16 else 0x8000) ∧
      (∀ j, j ≠ n → j < 320 ∨ 328 ≤ j → AMap.find? new j = AMap.find? p.care.sensors j) ∧
      let thr : Int := p.fget F.careThermCfgThrottleC 0
      let hot := hottest new
      (hot.1 ≤ 16 * thr → p.care.droopSince = [] → p.care.asked = false → t.pkg.bell = p.bell ∧ t.pkg.ratio = p.ratio ∧
        t.pkg.care.out = p.care.out ∧ t.pkg.care.outQ = p.care.outQ) ∧
      (16 * thr < hot.1 → p.care.asked = false →
        t.pkg.care.asked = true ∧ t.pkg.care.lastReq = some (p.rawNs, proposal (hot.1 / 16) thr))) ∧
    (p.fwRuns = true → Does .status s fun t =>
      p.Sends t.pkg 2 (leBytes 1 (p.fget F.chipStage 0) ++ leBytes 1 p.job.state ++ leBytes 1 p.ratio ++ leBytes 1 p.bell.tb1.state.code ++
        leBytes 1 p.bell.tb2.state.code ++ leBytes 1 (b2n p.care.rejected) ++ leBytes 2 0 ++ leBytes 8 (p.reg .chip 0 0x118).toNat ++
        leBytes 8 (p.reg .chip 0 0x120).toNat) ∧ t.pkg.care.rejected = false ∧
      p.Keeps t.pkg { p with care := t.pkg.care } {}) ∧
    (p.evq = [] → Does .eventLogAppend s fun t => t.pkg = p) ∧
    (∀ e r, p.fwRuns = true → p.evq = e :: r → Does .eventLogAppend s fun t =>
      let x : LogRec := { seq := p.care.nextSeq, tb0 := p.tb0, time := e.time, block := e.block, code := e.code, info := e.info, lost := e.lost }
      t.pkg.evq = r ∧ t.pkg.care.nextSeq = p.care.nextSeq + 1 ∧
      t.pkg.care.log = (p.care.log ++ [x]).drop (p.care.log.length + 1 - 32768) ∧
      (e.irq = true → p.Sends t.pkg 3 x.bytes) ∧ t.pkg.fens = p.fens ∧ t.pkg.regs = p.regs ∧ t.pkg.bell = p.bell) ∧
    (p.fwRuns = true →
      let a := p.care.unflashed
      let top := (a / 128 + 1) * 128
      (p.care.nextSeq ≤ a ∨ (p.care.nextSeq < top ∧ p.rawNs < p.care.pageSince + 10000000000) → Does .logFlashWrite s fun t => t.pkg = p) ∧
      (a < p.care.nextSeq → top ≤ p.care.nextSeq ∨ p.care.pageSince + 10000000000 ≤ p.rawNs → Does .logFlashWrite s fun t =>
        t.pkg = { p with care := { p.care with
          flash := { p.care.flash with log := p.care.log.filter fun r => decide (r.seq < top) }, pageSince := p.rawNs } })) ∧
    (∀ i o, p.care.unacked[i]? = some o →
      (p.rawNs < o.lastSent + 2000000 → Does (.messageRetransmit i) s fun t => t.pkg = p) ∧
      (o.lastSent + 2000000 ≤ p.rawNs → o.sends < 9 → Does (.messageRetransmit i) s fun t =>
        t.pkg.care = { p.care with
          unacked := setAt p.care.unacked i { o with lastSent := p.rawNs, sends := o.sends + 1 }, out := (p.mgUp, o.msg) :: p.care.out } ∧
        t.pkg.fget F.careStatRetransmits 0 = satAdd 16 (p.fget F.careStatRetransmits 0) 1 ∧
        p.Keeps t.pkg { p with care := t.pkg.care } { regs := [F.careStatRetransmits.at_ 0] }) ∧
      (o.lastSent + 2000000 ≤ p.rawNs → 9 ≤ o.sends → Does (.messageRetransmit i) s fun t =>
        t.pkg = { p with care := { p.care with unacked := dropAt p.care.unacked i } })) ∧
    (p.onTrial = true → p.care.trialStart + 600000000000 ≤ p.rawNs → Does .fwTrialExpire s fun t =>
      let i := p.fget F.careStatusSlot 0
      t.pkg.care.flash = { p.care.flash.setSlot i { p.care.flash.slot i with trial := false } with prefer := 1 - i } ∧
      t.pkg.onTrial = false ∧ t.pkg.fget F.careStatusUpdate 0 = 0 ∧ t.pkg.fget F.careStatusSlot 0 = i ∧ t.pkg.evq = p.evq) ∧
    (p.onTrial = false ∨ p.rawNs < p.care.trialStart + 600000000000 → Does .fwTrialExpire s fun t => t.pkg = p) ∧
    (p.fget F.chipStage 0 = 0 → Does .caretakerRestart s fun t => t.pkg = p) ∧
    (p.fget F.chipStage 0 ≠ 0 → p.onTrial = false → Does .caretakerRestart s fun t =>
      let b := bootSlot { p.part with bootMode := p.fget F.chipStrapsBootMode 0 } p.care.flash
      t.pkg.fget F.careStatusSlot 0 = b.1.getD 0 ∧ t.pkg.fget F.careStatusRecovery 0 = (if b.1 = none then 1 else 0) ∧
      t.pkg.care.cmdQ = [] ∧ t.pkg.fget F.careStatRestarts 0 = satAdd 16 (p.fget F.careStatRestarts 0) 1 ∧
      bits (t.pkg.reg .care 0 0x048) 11 0 = 0x120 ∧ t.pkg.care.log = p.care.log ∧ t.pkg.job = p.job ∧ t.pkg.fens = p.fens) ∧
    (∀ n : Fin 2,
      (p.mgUp / 2 ^ n.val % 2 = 1 → Does (.mgmtPortDown n) s fun t =>
        t.pkg.mgUp = p.mgUp - 2 ^ n.val ∧ p.Logged t.pkg .care 0 0x0121 p.tb0 n ∧ p.Keeps t.pkg p { regs := [F.careStatusMgUp.at_ 0] }) ∧
      (p.mgUp / 2 ^ n.val % 2 = 0 → (Does (.mgmtPortDown n) s fun t => t.pkg = p) ∧
        (1 ≤ p.fget F.chipStage 0 → Does (.mgmtPortUp n) s fun t =>
          t.pkg.mgUp = p.mgUp + 2 ^ n.val ∧ (p.fmSession.isSome = true → t.pkg.care.outQ = []) ∧
          p.Keeps t.pkg { p with care := t.pkg.care } { regs := [F.careStatusMgUp.at_ 0] })))

/-! The Bursar. -/

/-- O56. R510 to R516: bins of 1 ms charge their energy to the PART of their last good tag frame, or to the one in force
where none came; a new PART, a minute boundary, the loss and the return of power commit a record and start an interval. The
model's readings and choices it rests on: log entries 5, 66 and 68. -/
def Obligations.BursarRecords : Prop :=
  ∀ (s : State),
    let b := s.bursar
    let late : Prop := b.binAt + 1000000 ≤ b.tb3
    let minute : Prop := b.binAt % 60000000000 = 0 ∧ b.since < b.binAt
    let tag := s.pkg.tagPart
    (b.powered = false → ∀ c, bursarCmd c = true → c ≠ .bursarPowerOn → (∀ x, c ≠ .vauxLoss x) → Does c s fun t => t.bursar = b) ∧
    (b.powered = true →
      (s.pkg.on = false → ∀ w, Does (.bursarTagFrame w) s fun t => t.bursar = b) ∧
      (s.pkg.on = true →
        (¬ late → Does (.bursarTagFrame 0) s fun t => t.bursar = { b with binPart := some tag }) ∧
        (∀ w, late ∨ goodFrame (s.pkg.tagFrame ^^^ w) = none → Does (.bursarTagFrame w) s fun t => t.bursar = b)) ∧
      (¬ late → ∀ x, Does (.tagInvalid x) s fun t => t.bursar = b) ∧
      (∀ x, late → ¬ minute →
        let y := b.integrate x
        let u := b.residue + y.bin
        let e := u / 64000000000
        (b.binPart = some b.part ∨ (b.binPart = none ∧ b.part = 256) → Does (.tagInvalid x) s fun t =>
          t.bursar = { b with
            residue := u % 64000000000, parts := t.bursar.parts, total := b.total + e, energy := b.energy + e,
            tagInvalid := b.tagInvalid || b.binPart.isNone, overRange := b.overRange || y.binOver, sense := b.sense || !b.faults.isEmpty,
            mw := y.bin / 64000000, binAt := b.binAt + 1000000, bin := 0, binPart := none, binOver := false } ∧
          ∀ k, t.bursar.parts.getD k 0 = b.parts.getD k 0 + if k = b.part then e else 0) ∧
        (∀ k, k ≠ b.part → b.binPart = some k ∨ (b.binPart = none ∧ k = 256) → Does (.tagInvalid x) s fun t =>
          b.Stored t.bursar 2 b.part b.mec b.since (max b.since b.binAt) b.energy ∧ t.bursar.part = k ∧
          t.bursar.since = max b.since b.binAt ∧ t.bursar.total = b.total + e ∧ t.bursar.energy = e ∧
          ∀ j, t.bursar.parts.getD j 0 = b.parts.getD j 0 + if j = k then e else 0)) ∧
      (¬ minute ∨ ¬ late → Does .bursarInterval s fun t => t.bursar = b) ∧
      (minute → late → b.binPart = some b.part → Does .bursarInterval s fun t =>
        b.Stored t.bursar 1 b.part b.mec b.since b.binAt b.energy ∧
        t.bursar = { b with ring := t.bursar.ring, nextSeq := t.bursar.nextSeq, prev := t.bursar.prev, since := b.binAt, energy := 0,
                            tagInvalid := false, overRange := false, sense := false }) ∧
      (∀ x, ¬ minute → b.binPart = some b.part → Does (.bursarPowerFail x) s fun t =>
        let e := (b.residue + (b.integrate x).bin) / 64000000000
        b.Stored t.bursar 4 b.part b.mec b.since b.tb3 (b.energy + e) ∧ t.bursar.powered = false ∧ t.bursar.total = b.total + e ∧
        t.bursar.tb3 = b.tb3 ∧ t.bursar.since = b.tb3)) ∧
    (b.powered = true → Does .bursarPowerOn s fun t => t.bursar = b) ∧
    (b.powered = false → Does .bursarPowerOn s fun t =>
      b.Stored t.bursar 3 b.part b.mec b.tb3 b.tb3 0 ∧ t.bursar.powered = true ∧ t.bursar.total = b.total ∧ t.bursar.parts = b.parts ∧
      t.bursar.since = b.tb3 ∧ t.bursar.energy = 0)

/-- O57. R513 to R519: SELECT, TIME_MARK, calibration under the seal, the seal strap, the sense pairs, and the mirror that
the package holds of the island. The model's readings and choices it rests on: log entries 5, 67, 68 and 69. -/
def Obligations.BursarAccess : Prop :=
  ∀ (s : State),
    let b := s.bursar
    let p := s.pkg
    let minute : Prop := b.binAt % 60000000000 = 0 ∧ b.since < b.binAt
    let settled : Prop := ¬ minute ∧ (b.binPart = none ∨ b.binPart = some b.part)
    (b.powered = true →
      (∀ v, Does (.bursarSelect v) s fun t => t.bursar = { b with select := v % 2 ^ 64 }) ∧
      (∀ v, settled → Does (.timeMark v) s fun t =>
        b.Stored t.bursar 5 b.part b.mec b.since b.tb3 v ∧ t.bursar.since = b.tb3 ∧ t.bursar.energy = 0 ∧ t.bursar.total = b.total ∧
        t.bursar.parts = b.parts ∧ t.bursar.bin = b.bin) ∧
      (∀ o d,
        (b.sealOpen = true → o + d.length ≤ 96 → Does (.calData o d) s fun t =>
          t.bursar = { b with staged := t.bursar.staged } ∧
          (b.staged.length = 96 → t.bursar.staged.length = 96 ∧
            ∀ j, j < 96 → t.bursar.staged.getD j 0#8 = if o ≤ j ∧ j < o + d.length then d.getD (j - o) 0#8 else b.staged.getD j 0#8)) ∧
        (b.sealOpen = false ∨ 96 < o + d.length → Does (.calData o d) s fun t => t.bursar = b)) ∧
      (∀ v x,
        (b.sealOpen = true → v = 0xCA1C0417 → b.calFuses.length < 16 → settled → Does (.calCommit v x) s fun t =>
          t.bursar.mec = min (b.mec + 1) (2 ^ 32 - 1) ∧ t.bursar.calData = b.staged ∧ t.bursar.calFuses = b.calFuses ++ [sha256 b.staged] ∧
          b.Stored t.bursar 6 b.part (min (b.mec + 1) (2 ^ 32 - 1)) b.since b.tb3 b.energy ∧ t.bursar.total = b.total) ∧
        (b.sealOpen = false ∨ v ≠ 0xCA1C0417 ∨ 16 ≤ b.calFuses.length → Does (.calCommit v x) s fun t => t.bursar = b)) ∧
      (∀ h, Does (.sealChange h) s fun t =>
        t.bursar = { b with sealOpen := h, mec := if h = true ∧ b.sealOpen = false then min (b.mec + 1) (2 ^ 32 - 1) else b.mec }) ∧
      (∀ (c : Fin 6) bad, Does (.senseFault c bad) s fun t =>
        t.bursar = { b with faults := t.bursar.faults, sense := b.sense || bad } ∧
        ∀ j, j ∈ t.bursar.faults ↔ if j = c.val then bad = true else j ∈ b.faults)) ∧
    (p.on = true →
      (b.powered = true → Does .bursarMirror s fun t =>
        t.pkg.fget F.brsmStatus 0 = b.status % 2 ^ 16 ∧ t.pkg.fget F.brsmStatusStale 0 = 0 ∧ t.pkg.fget F.brsmTb3 0 = b.tb3 % 2 ^ 64 ∧
        t.pkg.fget F.brsmMec 0 = b.mec % 2 ^ 32 ∧ t.pkg.fget F.brsmSeq 0 = b.newestSeq % 2 ^ 64 ∧
        t.pkg.fget F.brsmEnergyETotal 0 = b.total % 2 ^ 64 ∧ t.pkg.fget F.brsmPowerMw 0 = b.mw % 2 ^ 32 ∧ t.pkg.mirrorAt = p.rawNs ∧
        t.pkg.fens = p.fens ∧ t.pkg.job = p.job) ∧
      (b.powered = false → Does .bursarMirror s fun t => t.pkg = p) ∧
      (p.fget F.brsmStatusStale 0 = 0 → p.mirrorAt + 10000000 ≤ p.rawNs → Does .bursarStale s fun t =>
        t.pkg.fget F.brsmStatusStale 0 = 1 ∧ p.Logged t.pkg .brsm 0 0x0130 p.tb0 0 ∧ p.Keeps t.pkg p { regs := [F.brsmStatusStale.at_ 0] }) ∧
      (p.fget F.brsmStatusStale 0 = 1 ∨ p.rawNs < p.mirrorAt + 10000000 → Does .bursarStale s fun t => t.pkg = p) ∧
      (∀ v, (Does (.brsmSelectWrite false v) s fun t => t.pkg = p) ∧
        (b.powered = true → Does (.brsmSelectWrite true v) s fun t =>
          t.pkg.fget F.brsmSelectSeq 0 = v % 2 ^ 64 ∧ t.pkg.brsmRec = b.record (v % 2 ^ 64) ∧
          p.Keeps t.pkg { p with brsmRec := t.pkg.brsmRec } { regs := [F.brsmSelectSeq.at_ 0] })))

/-- O58. R514, R515, R517: every step of the block, whatever command it takes, keeps the Bursar's evidence whole. The model's
readings and choices it rests on: log entry 68. -/
def Obligations.BursarEvidence : Prop :=
  ∀ (s t : State), s.bursar.Whole → step s = .next t → t.bursar.Whole

/-- O59. The Bursar's evidence is whole at reset. -/
def Obligations.BursarEvidenceAtReset : Prop :=
  State.reset.bursar.Whole

/-! The supply, and SPDM. -/

/-- O60. R541 to R547, R596: the responder negotiates one suite, shows its chain and its measurements and signs both, and
opens at most eight sessions; requests out of turn or of another version are answered ERROR. The model's readings and choices
it rests on: log entries 5 and 60. -/
def Obligations.SpdmResponder : Prop :=
  ∀ (s : State) (mgmt : Bool) (b : List Byte),
    let p := s.pkg
    let c := p.conn mgmt
    let answers (t : State) (r : List Byte) : Prop := t.pkg.spdm.resp = (mgmt, r) :: p.spdm.resp
    let only (t : State) (x : Conn) : Prop := t.pkg.conn mgmt = x ∧ t.pkg.conn (!mgmt) = p.conn (!mgmt) ∧ t.pkg.spdm.sessions = p.spdm.sessions ∧
      p.Keeps t.pkg { p with spdm := t.pkg.spdm, free := t.pkg.free } {}
    (∀ code i phase, spdmRow i = some (code, phase, mgmt, false, b) → p.on = true →
      (p.spdmUp mgmt = false → Does i s fun t => t.pkg = p) ∧
      (p.spdmUp mgmt = true → 4 ≤ b.length → rqCode b = code →
        (c.phase < phase → Does i s fun t => answers t (spdmErr b 4) ∧ only t c) ∧
        (phase = 3 → 3 ≤ c.phase → rqVer b ≠ 0x10 + c.version → Does i s fun t => answers t (spdmErr b 0x41) ∧ only t c))) ∧
    (p.spdmPlain mgmt 0x84 0 b → Does (.getVersion mgmt false b) s fun t =>
      let r := [0x10#8, 0x04#8, 0#8, 0#8, 0#8, 2#8, 0x00#8, 0x12#8, 0x00#8, 0x13#8]
      answers t r ∧ only t { Conn.init with phase := 1, vca := b ++ r }) ∧
    (p.spdmPlain mgmt 0xE1 1 b →
      (rqVer b ≠ 0x12 ∧ rqVer b ≠ 0x13 → Does (.getCapabilities mgmt false b) s fun t => answers t (spdmErr b 0x41) ∧ only t c) ∧
      (rqVer b = 0x12 ∨ rqVer b = 0x13 → Does (.getCapabilities mgmt false b) s fun t => ∃ r,
        answers t r ∧ leAt r 0 1 = rqVer b ∧ leAt r 1 1 = 0x61 ∧ leAt r 8 4 = 0x62D6 ∧
        only t { c with version := rqVer b - 0x10, phase := 2, vca := c.vca ++ b ++ r })) ∧
    (p.spdmPlain mgmt 0xE3 2 b → rqVer b = 0x10 + c.version →
      (leAt b 8 4 / 0x80 % 2 = 0 ∨ leAt b 12 4 / 2 % 2 = 0 → Does (.negotiateAlgorithms mgmt false b) s fun t =>
        answers t (spdmErr b 1) ∧ only t c) ∧
      (leAt b 8 4 / 0x80 % 2 = 1 → leAt b 12 4 / 2 % 2 = 1 → Does (.negotiateAlgorithms mgmt false b) s fun t => ∃ r,
        answers t r ∧ leAt r 1 1 = 0x63 ∧ leAt r 12 4 = 0x80 ∧ leAt r 16 4 = 2 ∧ only t { c with phase := 3, vca := c.vca ++ b ++ r })) ∧
    (p.spdmPlain mgmt 0x81 3 b → Does (.getDigests mgmt false b) s fun t =>
      let r := rsp (rqVer b) 0x01 0 (b2n p.spdm.certOk) (if p.spdm.certOk then sha384 p.chain else [])
      answers t r ∧ only t { c with certs := c.certs ++ b ++ r }) ∧
    (p.spdmPlain mgmt 0x82 3 b → p.spdm.certOk = true → rqP1 b % 16 = 0 →
      let part := (p.chain.drop (leAt b 4 2)).take (leAt b 6 2)
      let r := rsp (rqVer b) 0x02 0 0 (leBytes 2 part.length ++ leBytes 2 (p.chain.length - leAt b 4 2 - part.length) ++ part)
      (leAt b 4 2 < p.chain.length → Does (.getCertificate mgmt false b) s fun t => answers t r ∧ only t { c with certs := c.certs ++ b ++ r }) ∧
      (p.chain.length ≤ leAt b 4 2 → Does (.getCertificate mgmt false b) s fun t => answers t (spdmErr b 1) ∧ only t c)) ∧
    (p.spdmPlain mgmt 0x83 3 b → p.spdm.certOk = true → rqP1 b = 0 → Does (.challenge mgmt false b) s fun t => ∃ n,
      let r := rsp (rqVer b) 0x03 0 1 (sha384 p.chain ++ n ++ p.measSummary (rqP2 b) ++ leBytes 2 0 ++ rqContext b 36)
      n.length = 32 ∧ answers t (r ++ p.smSign c.version "responder-challenge_auth signing" (c.vca ++ c.certs ++ b ++ r)) ∧
      only t { c with certs := [] }) ∧
    (p.spdmPlain mgmt 0xE0 3 b → rqP1 b % 2 = 0 →
      (rqP2 b = 0 → Does (.getMeasurements mgmt false b) s fun t => ∃ r,
        answers t r ∧ leAt r 1 1 = 0x60 ∧ leAt r 2 1 = 7 ∧ leAt r 4 4 = 0 ∧ only t { c with meas := c.meas ++ b ++ r }) ∧
      (1 ≤ rqP2 b → rqP2 b ≤ 6 → Does (.getMeasurements mgmt false b) s fun t => ∃ r,
        let m := measBlock (rqP2 b) (p.measure (rqP2 b))
        answers t r ∧ leAt r 1 1 = 0x60 ∧ leAt r 4 1 = 1 ∧ (r.drop 8).take m.length = m ∧ only t { c with meas := c.meas ++ b ++ r })) ∧
    (p.spdmPlain mgmt 0xE4 3 b → 138 ≤ b.length → rqP2 b = 0 → p.spdm.certOk = true →
      ((∀ i, i < 8 → ∃ e ∈ p.spdm.sessions, e.idx = i) → Does (.keyExchange mgmt false b) s fun t => answers t (spdmErr b 0x0A) ∧ only t c) ∧
      (∀ i, i < 8 → (∀ e ∈ p.spdm.sessions, e.idx ≠ i) → (∀ j, j < i → ∃ e ∈ p.spdm.sessions, e.idx = j) →
        Does (.keyExchange mgmt false b) s fun t =>
          (∃ e r, t.pkg.spdm.sessions = p.spdm.sessions ++ [e] ∧ e.idx = i ∧ e.established = false ∧ e.mgmt = mgmt ∧
            e.id % 65536 = leAt b 4 2 ∧ e.reqSeq = 0 ∧ e.rspSeq = 0 ∧ answers t r ∧ leAt r 1 1 = 0x64) ∧
          p.Logged t.pkg .sec 0 0x0160 p.tb0 i)) ∧
    (∀ i e, p.on = true → p.spdm.sessions[i]? = some e →
      (p.rawNs < e.last + 10000000000 → Does (.sessionTimeout i) s fun t => t.pkg = p) ∧
      (e.last + 10000000000 ≤ p.rawNs → Does (.sessionTimeout i) s fun t =>
        t.pkg.spdm.sessions = p.spdm.sessions.filter (fun x => decide (x.id ≠ e.id)) ∧ p.Logged t.pkg .sec 0 0x0161 p.tb0 e.idx)) ∧
    (∀ msg e b, p.spdmSealed mgmt 0xE5 msg e b → e.established = false →
      sliceB b 4 48 = hmac384 (finishedKey e.version e.reqSecret) (sha384 (e.th ++ b.take 4)) →
      Does (.finish mgmt true msg) s fun t => ∃ x ∈ t.pkg.spdm.sessions,
        x.id = e.id ∧ x.idx = e.idx ∧ x.established = true ∧ x.reqSeq = 0 ∧ x.rspSeq = 0 ∧ x.last = p.rawNs ∧ x.hs = [] ∧ x.th = []) ∧
    (∀ msg e b, p.spdmSealed mgmt 0xE8 msg e b → Does (.spdmHeartbeat mgmt true msg) s fun t =>
      p.SessIs t.pkg mgmt { e with reqSeq := e.reqSeq + 1, rspSeq := e.rspSeq + 1, last := p.rawNs }) ∧
    (∀ msg e b, p.spdmSealed mgmt 0xE9 msg e b → e.established = true →
      let next (x : List Byte) : List Byte := smExpand e.version 48 x (ascii "traffic upd") []
      (rqP1 b = 1 → Does (.keyUpdate mgmt true msg) s fun t =>
        p.SessIs t.pkg mgmt { e with reqSecret := next e.reqSecret, reqSeq := 0, rspSeq := e.rspSeq + 1, last := p.rawNs }) ∧
      (rqP1 b = 2 → Does (.keyUpdate mgmt true msg) s fun t => p.SessIs t.pkg mgmt
        { e with reqSecret := next e.reqSecret, rspSecret := next e.rspSecret, reqSeq := 0, rspSeq := 1, last := p.rawNs }) ∧
      (rqP1 b = 3 → Does (.keyUpdate mgmt true msg) s fun t =>
        p.SessIs t.pkg mgmt { e with reqSeq := e.reqSeq + 1, rspSeq := e.rspSeq + 1, last := p.rawNs })) ∧
    (∀ msg e b, p.spdmSealed mgmt 0xEC msg e b → Does (.endSession mgmt true msg) s fun t =>
      (∀ x ∈ t.pkg.spdm.sessions, x.id ≠ e.id) ∧ p.Logged t.pkg .sec 0 0x0161 p.tb0 e.idx ∧
      ∃ r, t.pkg.spdm.resp = (mgmt, r) :: p.spdm.resp)
end

