-- ==== Sys2Proof/Laws/AMap.lean ====
section
/-! SUPPORT. Read after write for keyed lists, and the canonical form that a write keeps. -/
namespace Sys2Proof.Machine

variable {α : Type}

theorem AMap.find?_put_same (m : AMap α) (i : Nat) (v : α) : AMap.find? (AMap.put m i v) i = some v := by
  induction m with
  | nil => simp [AMap.put, AMap.find?]
  | cons a r ih =>
    obtain ⟨k, w⟩ := a
    unfold AMap.put
    split
    · simp [AMap.find?]
    · split
      · simp [AMap.find?]
      · next h => rw [AMap.find?, if_neg (Ne.symm h)]; exact ih

theorem AMap.find?_put_other (m : AMap α) {i j : Nat} (v : α) (h : j ≠ i) :
    AMap.find? (AMap.put m i v) j = AMap.find? m j := by
  induction m with
  | nil => simp [AMap.put, AMap.find?, Ne.symm h]
  | cons a r ih =>
    obtain ⟨k, w⟩ := a
    unfold AMap.put
    split
    · simp [AMap.find?, Ne.symm h]
    · split
      · next e => subst e; simp [AMap.find?, Ne.symm h]
      · simp only [AMap.find?, ih]

theorem AMap.find?_erase_same (m : AMap α) (i : Nat) : AMap.find? (AMap.erase m i) i = none := by
  induction m with
  | nil => rfl
  | cons a r ih =>
    obtain ⟨k, w⟩ := a
    unfold AMap.erase
    split
    · exact ih
    · next h => rw [AMap.find?, if_neg h]; exact ih

theorem AMap.find?_erase_other (m : AMap α) {i j : Nat} (h : j ≠ i) :
    AMap.find? (AMap.erase m i) j = AMap.find? m j := by
  induction m with
  | nil => rfl
  | cons a r ih =>
    obtain ⟨k, w⟩ := a
    unfold AMap.erase
    split
    · next e => subst e; rw [ih, AMap.find?, if_neg (Ne.symm h)]
    · simp only [AMap.find?, ih]

@[simp] theorem AMap.getD_put_same (m : AMap α) (i : Nat) (v d : α) : AMap.getD (AMap.put m i v) i d = v := by
  simp [AMap.getD, AMap.find?_put_same]

theorem AMap.getD_put_other (m : AMap α) {i j : Nat} (v d : α) (h : j ≠ i) :
    AMap.getD (AMap.put m i v) j d = AMap.getD m j d := by
  simp [AMap.getD, AMap.find?_put_other m v h]

@[simp] theorem AMap.getD_set_same [DecidableEq α] (d : α) (m : AMap α) (i : Nat) (v : α) :
    AMap.getD (AMap.set d m i v) i d = v := by
  unfold AMap.set
  split
  · next h => subst h; simp [AMap.getD, AMap.find?_erase_same]
  · simp

theorem AMap.getD_set_other [DecidableEq α] (d e : α) (m : AMap α) {i j : Nat} (v : α) (h : j ≠ i) :
    AMap.getD (AMap.set d m i v) j e = AMap.getD m j e := by
  unfold AMap.set
  split
  · simp [AMap.getD, AMap.find?_erase_other m h]
  · exact AMap.getD_put_other m v e h

/-! The canonical form. -/

/-- Every key of the list is above `k`. -/
def AMap.above (k : Nat) (m : AMap α) : Prop := ∀ x ∈ m, k < x.1

theorem AMap.sorted_cons {k : Nat} {w : α} {r : AMap α} :
    AMap.sorted ((k, w) :: r) = true ↔ AMap.above k r ∧ AMap.sorted r = true := by
  induction r generalizing k w with
  | nil => simp [AMap.sorted, AMap.above]
  | cons a r ih =>
    simp only [AMap.sorted, Bool.and_eq_true, decide_eq_true_eq, AMap.above, List.forall_mem_cons, and_congr_left_iff]
    exact fun s => ⟨fun h => ⟨h, fun x hx => h.trans ((ih.mp s).1 x hx)⟩, And.left⟩

/-- A key that no pair bears is not found. -/
theorem AMap.find?_unlisted {m : AMap α} {i : Nat} (h : ∀ x ∈ m, x.1 ≠ i) : AMap.find? m i = none := by
  induction m with
  | nil => rfl
  | cons a r ih => rw [AMap.find?, if_neg (h a List.mem_cons_self), ih fun x hx => h x (List.mem_cons_of_mem a hx)]

/-- A write lists its pair and what was listed, nothing else. -/
theorem AMap.mem_put {m : AMap α} {i : Nat} {v : α} {x : Nat × α} (h : x ∈ AMap.put m i v) : x = (i, v) ∨ x ∈ m := by
  induction m with
  | nil => simpa [AMap.put] using h
  | cons a r ih =>
    unfold AMap.put at h
    split_ifs at h <;> simp only [List.mem_cons] at h ⊢ <;> tauto

theorem AMap.above_put {k i : Nat} {v : α} {m : AMap α} (h : AMap.above k m) (hi : k < i) :
    AMap.above k (AMap.put m i v) :=
  fun x hx => (AMap.mem_put hx).elim (fun e => e ▸ hi) (h x)

theorem AMap.sorted_put {m : AMap α} (i : Nat) (v : α) (h : AMap.sorted m = true) :
    AMap.sorted (AMap.put m i v) = true := by
  induction m with
  | nil => rfl
  | cons a r ih =>
    have ha := AMap.sorted_cons.mp h
    unfold AMap.put
    split_ifs with lt eq
    · exact AMap.sorted_cons.mpr ⟨List.forall_mem_cons.mpr ⟨lt, fun x hx => lt.trans (ha.1 x hx)⟩, h⟩
    · exact AMap.sorted_cons.mpr (eq ▸ ha)
    · exact AMap.sorted_cons.mpr ⟨AMap.above_put ha.1 (by omega), ih ha.2⟩

theorem AMap.mem_erase {m : AMap α} {i : Nat} {x : Nat × α} (h : x ∈ AMap.erase m i) : x ∈ m := by
  induction m with
  | nil => exact h
  | cons a r ih =>
    unfold AMap.erase at h
    split_ifs at h <;> simp only [List.mem_cons] at h ⊢ <;> tauto

theorem AMap.sorted_erase {m : AMap α} (i : Nat) (h : AMap.sorted m = true) : AMap.sorted (AMap.erase m i) = true := by
  induction m with
  | nil => rfl
  | cons a r ih =>
    obtain ⟨l, w⟩ := a
    obtain ⟨ha, hs⟩ := AMap.sorted_cons.mp h
    unfold AMap.erase
    split
    · exact ih hs
    · exact AMap.sorted_cons.mpr ⟨fun x hx => ha x (AMap.mem_erase hx), ih hs⟩

theorem AMap.sorted_set [DecidableEq α] {m : AMap α} (d : α) (i : Nat) (v : α) (h : AMap.sorted m = true) :
    AMap.sorted (AMap.set d m i v) = true := by
  unfold AMap.set
  split
  · exact AMap.sorted_erase i h
  · exact AMap.sorted_put i v h

/-- No value that an unlisted key reads as is listed. -/
theorem AMap.set_lean [DecidableEq α] {d : α} {m : AMap α} (i : Nat) (v : α) (h : ∀ x ∈ m, x.2 ≠ d) :
    ∀ x ∈ AMap.set d m i v, x.2 ≠ d := by
  intro x hx
  unfold AMap.set at hx
  split_ifs at hx with hv
  · exact h x (AMap.mem_erase hx)
  · exact (AMap.mem_put hx).elim (fun e => e ▸ hv) (h x)

end Sys2Proof.Machine
end

