-- ==== Sys2Proof/Laws/Memory.lean ====
section
/-! SUPPORT. Byte memory: read after write, and the canonical form that a write keeps. -/
namespace Sys2Proof.Machine

theorem AMap.find?_append {α : Type} (m n : AMap α) (j : Nat) :
    AMap.find? (m ++ n) j = (AMap.find? m j).or (AMap.find? n j) := by
  induction m with
  | nil => simp [AMap.find?]
  | cons a r ih =>
    obtain ⟨k, w⟩ := a
    simp only [List.cons_append, AMap.find?]
    split
    · rfl
    · exact ih

theorem AMap.find?_filter {α : Type} (p : Nat → Bool) (m : AMap α) (j : Nat) :
    AMap.find? (m.filter fun c => p c.1) j = if p j then AMap.find? m j else none := by
  induction m with
  | nil => simp [AMap.find?]
  | cons a r ih =>
    obtain ⟨k, w⟩ := a
    by_cases hk : k = j
    · subst hk
      by_cases hp : p k
      · simp [hp, AMap.find?]
      · simp [hp, ih]
    · by_cases hp : p k
      · simp [hp, AMap.find?, hk, ih]
      · simp [hp, AMap.find?, hk, ih]

theorem find?_listBytes (bs : List Byte) (a j : Nat) :
    (AMap.find? (listBytes a bs) j).getD 0#8 = if a ≤ j ∧ j < a + bs.length then bs.getD (j - a) 0#8 else 0#8 := by
  induction bs generalizing a with
  | nil => simp [listBytes, AMap.find?]
  | cons b r ih =>
    have hb : (if a ≤ j ∧ j < a + (b :: r).length then (b :: r).getD (j - a) 0#8 else 0#8) =
        if j = a then b else if a + 1 ≤ j ∧ j < a + 1 + r.length then r.getD (j - (a + 1)) 0#8 else 0#8 := by
      by_cases h : j = a
      · subst h; simp
      · by_cases h2 : a + 1 ≤ j ∧ j < a + 1 + r.length
        · have h3 : a ≤ j ∧ j < a + (b :: r).length := by simp; omega
          rw [if_pos h3, if_neg h, if_pos h2]
          obtain ⟨k, rfl⟩ : ∃ k, j = a + 1 + k := ⟨j - (a + 1), by omega⟩
          have e1 : a + 1 + k - a = k + 1 := by omega
          have e2 : a + 1 + k - (a + 1) = k := by omega
          rw [e1, e2]; simp
        · have h3 : ¬(a ≤ j ∧ j < a + (b :: r).length) := by simp; omega
          rw [if_neg h3, if_neg h, if_neg h2]
    rw [hb]
    unfold listBytes
    split
    · next h0 =>
      rw [ih]
      by_cases h : j = a
      · subst h; simp [h0]
      · rw [if_neg h]
    · by_cases h : j = a
      · subst h; simp [AMap.find?]
      · simp only [AMap.find?, if_neg (Ne.symm h), if_neg h]; exact ih (a + 1)

theorem mem_listBytes {bs : List Byte} {a : Nat} {x : Nat × Byte} (h : x ∈ listBytes a bs) :
    a ≤ x.1 ∧ x.1 < a + bs.length ∧ x.2 ≠ 0#8 := by
  induction bs generalizing a with
  | nil => simp [listBytes] at h
  | cons b r ih =>
    unfold listBytes at h
    split at h
    · obtain ⟨h1, h2, h3⟩ := ih h; exact ⟨by omega, by simp; omega, h3⟩
    · next hb =>
      rcases List.mem_cons.mp h with rfl | h
      · exact ⟨le_refl _, by simp, hb⟩
      · obtain ⟨h1, h2, h3⟩ := ih h; exact ⟨by omega, by simp; omega, h3⟩

theorem above_listBytes (bs : List Byte) (a k : Nat) (h : k < a) : AMap.above k (listBytes a bs) :=
  fun _ hx => h.trans_le (mem_listBytes hx).1

theorem sorted_listBytes (bs : List Byte) (a : Nat) : AMap.sorted (listBytes a bs) = true := by
  induction bs generalizing a with
  | nil => rfl
  | cons b r ih =>
    unfold listBytes
    split
    · exact ih _
    · exact AMap.sorted_cons.mpr ⟨above_listBytes r (a + 1) a (by omega), ih _⟩

theorem AMap.sorted_filter {α : Type} {m : AMap α} (p : Nat × α → Bool) (h : AMap.sorted m = true) :
    AMap.sorted (m.filter p) = true := by
  induction m with
  | nil => rfl
  | cons a r ih =>
    obtain ⟨k, w⟩ := a
    obtain ⟨ha, hs⟩ := AMap.sorted_cons.mp h
    by_cases hp : p (k, w)
    · rw [List.filter_cons_of_pos hp]
      exact AMap.sorted_cons.mpr ⟨fun x hx => ha x (List.mem_filter.mp hx).1, ih hs⟩
    · rw [List.filter_cons_of_neg hp]; exact ih hs

theorem AMap.sorted_append {α : Type} {m n : AMap α} (hm : AMap.sorted m = true) (hn : AMap.sorted n = true)
    (h : ∀ x ∈ m, ∀ y ∈ n, x.1 < y.1) : AMap.sorted (m ++ n) = true := by
  induction m with
  | nil => exact hn
  | cons a r ih =>
    obtain ⟨k, w⟩ := a
    obtain ⟨ha, hs⟩ := AMap.sorted_cons.mp hm
    refine AMap.sorted_cons.mpr ⟨fun x hx => ?_, ih hs fun x hx => h x (List.mem_cons_of_mem _ hx)⟩
    rcases List.mem_append.mp hx with hx | hx
    · exact ha x hx
    · exact h (k, w) (by simp) x hx

/-- The bytes of the run, and no others, are replaced. -/
theorem Memory.byte_write (m : Memory) (a : Nat) (bs : List Byte) (j : Nat) :
    (m.write a bs).byte j = if a ≤ j ∧ j < a + bs.length then bs.getD (j - a) 0#8 else m.byte j := by
  have hf := find?_listBytes bs a j
  have h1 := AMap.find?_filter (fun k => decide (k < a)) m j
  have h2 := AMap.find?_filter (fun k => decide (a + bs.length ≤ k)) m j
  have h0 : AMap.find? (m.write a bs) j =
      ((if decide (j < a) = true then AMap.find? m j else none).or (AMap.find? (listBytes a bs) j)).or
        (if decide (a + bs.length ≤ j) = true then AMap.find? m j else none) := by
    unfold Memory.write
    rw [AMap.find?_append, AMap.find?_append, h1, h2]
  have hn : ¬(a ≤ j ∧ j < a + bs.length) → AMap.find? (listBytes a bs) j = none := by
    refine fun hc => AMap.find?_unlisted fun x hx e => hc ?_
    have := mem_listBytes hx
    omega
  unfold Memory.byte AMap.getD
  rw [h0]
  by_cases hc : a ≤ j ∧ j < a + bs.length
  · have e1 : decide (j < a) = false := by simp; omega
    have e2 : decide (a + bs.length ≤ j) = false := by simp; omega
    rw [if_pos hc] at hf
    simp only [e1, e2, Bool.false_eq_true, if_false, if_pos hc]
    rw [← hf]
    cases AMap.find? (listBytes a bs) j <;> rfl
  · rw [hn hc, if_neg hc]
    by_cases hl : j < a
    · have e2 : decide (a + bs.length ≤ j) = false := by simp; omega
      simp only [hl, e2, decide_true, if_true, Bool.false_eq_true, if_false]
      cases AMap.find? m j <;> rfl
    · have e1 : decide (j < a) = false := by simp; omega
      have e2 : decide (a + bs.length ≤ j) = true := by simp; omega
      simp only [e1, e2, Bool.false_eq_true, if_false, if_true]
      cases AMap.find? m j <;> rfl

/-- A write keeps the canonical form. -/
theorem Memory.write_wf (m : Memory) (a : Nat) (bs : List Byte) (h : m.wf = true) : (m.write a bs).wf = true := by
  unfold Memory.wf at h ⊢
  rw [Bool.and_eq_true] at h ⊢
  obtain ⟨hs, hz⟩ := h
  have hz' := List.all_eq_true.mp hz
  constructor
  · unfold Memory.write
    refine AMap.sorted_append (AMap.sorted_append (AMap.sorted_filter _ hs) (sorted_listBytes bs a) ?_)
      (AMap.sorted_filter _ hs) ?_
    · intro x hx y hy
      have h1 := (List.mem_filter.mp hx).2
      have h2 := (mem_listBytes hy).1
      simp only [decide_eq_true_eq] at h1
      omega
    · intro x hx y hy
      have h2 := (List.mem_filter.mp hy).2
      simp only [decide_eq_true_eq] at h2
      rcases List.mem_append.mp hx with hx | hx
      · have h1 := (List.mem_filter.mp hx).2
        simp only [decide_eq_true_eq] at h1
        omega
      · have h1 := (mem_listBytes hx).2.1
        omega
  · refine List.all_eq_true.mpr fun x hx => ?_
    unfold Memory.write at hx
    rcases List.mem_append.mp hx with hx | hx
    · rcases List.mem_append.mp hx with hx | hx
      · exact hz' x (List.mem_filter.mp hx).1
      · simpa using (mem_listBytes hx).2.2
    · exact hz' x (List.mem_filter.mp hx).1

/-- The empty memory has the canonical form. -/
theorem Memory.wf_nil : Memory.wf [] = true := rfl

/-- A read is its bytes one by one. -/
theorem Memory.read_eq (m : Memory) (a n : Nat) : m.read a n = (List.range n).map fun i => m.byte (a + i) := by
  have h : ∀ i, i < n → AMap.getD (m.filter fun c => decide (a ≤ c.1) && decide (c.1 < a + n)) (a + i) 0#8 = m.byte (a + i) := by
    intro i hi
    unfold Memory.byte AMap.getD
    rw [AMap.find?_filter (fun k => decide (a ≤ k) && decide (k < a + n)) m]
    simp [hi]
  unfold Memory.read
  simp only
  split
  · rename_i he
    refine (List.ext_getElem? fun i => ?_)
    by_cases hi : i < n
    · have := h i hi
      rw [List.isEmpty_iff.mp he] at this
      simp [hi, ← this, AMap.getD, AMap.find?]
    · simp [hi]
  · exact List.map_congr_left fun i hi => h i (List.mem_range.mp hi)
@[simp] theorem Memory.length_read (m : Memory) (a n : Nat) : (m.read a n).length = n := by simp [Memory.read_eq]
/-- What has been written is read. -/
theorem Memory.read_write (m : Memory) (a : Nat) (bs : List Byte) : (m.write a bs).read a bs.length = bs := by
  refine List.ext_getElem? fun i => ?_
  by_cases hi : i < bs.length
  · simp [Memory.read_eq, Memory.byte_write, hi]
  · simp [Memory.read_eq, hi]

end Sys2Proof.Machine
end

