-- ==== Sys2Proof/Laws/Ops.lean ====
section
/-! SUPPORT. What the shared operations of the meanings do, each said once: the carriers of a command's effect, one step,
the front of the ROM's command list, bytes stored by a window write. -/
namespace Sys2Proof.Machine

open Sys2Proof

variable {s t : State} {p : Pkg}

/-! Carriers of an effect. -/

theorem onPkg_next (f : Pkg → Pkg) (s : State) : onPkg f s = .next { s with pkg := s.pkg.run f } := rfl
theorem Pkg.run_on (f : Pkg → Pkg) (h : p.on = true) : p.run f = f p := by simp [Pkg.run, h]
theorem Pkg.run_off (f : Pkg → Pkg) (h : p.on = false) : p.run f = p := by simp [Pkg.run, h]
theorem onPkg_on (f : Pkg → Pkg) (h : s.pkg.on = true) : onPkg f s = .next { s with pkg := f s.pkg } := by
  rw [onPkg_next, Pkg.run_on f h]
theorem onPkg_off (f : Pkg → Pkg) (h : s.pkg.on = false) : onPkg f s = .next s := by
  rw [onPkg_next, Pkg.run_off f h]
/-- A command that acts on the package leaves the queue and the Bursar. -/
theorem onPkg_frame {f : Pkg → Pkg} (h : onPkg f s = .next t) : t.pending = s.pending ∧ t.bursar = s.bursar := by
  cases h; exact ⟨rfl, rfl⟩
theorem onBursar_next (f : Bursar → Bursar) (s : State) :
    onBursar f s = .next { s with bursar := if s.bursar.powered then f s.bursar else s.bursar } := rfl
/-- A command that acts on the Bursar leaves the queue and the package. -/
theorem onBursar_frame {f : Bursar → Bursar} (h : onBursar f s = .next t) : t.pending = s.pending ∧ t.pkg = s.pkg := by
  cases h; exact ⟨rfl, rfl⟩

/-! Steps. -/

theorem step_idle (h : s.pending = []) : step s = .next { s with pkg := s.pkg.refTick, bursar := s.bursar.pass } := by
  simp [step, h]
/-- All that a step can do: run the command in front, or let a tick pass. -/
theorem step_cases {o : Host.Outcome State Fault Refusal} (h : step s = o) :
    (∃ c r, s.pending = c :: r ∧ exec c { s with pending := r } = o) ∨
    (s.pending = [] ∧ o = .next { s with pkg := s.pkg.refTick, bursar := s.bursar.pass }) := by
  unfold step at h
  split at h
  · rename_i c r e; exact .inl ⟨c, r, e, h⟩
  · rename_i e; exact .inr ⟨e, h.symm⟩

/-! The ROM's commands. -/

theorem romRun_none (op : Nat) (f : Cmd → Pkg → Pkg) (h : p.host.taken = []) : romRun op f p = p := by
  simp [romRun, h]
theorem romRun_waits {op : Nat} {f : Cmd → Pkg → Pkg} {c : Cmd} {l : List Cmd} (h : p.host.taken = c :: l)
    (w : p.mayRun c = false) : romRun op f p = p := by
  simp [romRun, h, w]
theorem romRun_runs {op : Nat} {f : Cmd → Pkg → Pkg} {c : Cmd} {l : List Cmd} (h : p.host.taken = c :: l)
    (w : p.mayRun c = true) (k : opcodes.contains c.opcode = true) (o : c.opcode = op) :
    romRun op f p = (f c { p with host := { p.host with taken := l } }).careCompletions := by
  have m : c.opcode ∈ opcodes := by simpa using k
  subst o
  simp [romRun, h, w, m]
theorem checked_runs {grp : Bool} {a b : Cmd → Pkg → Bool} {f : Cmd → Pkg → Pkg} {c : Cmd}
    (g : grp = true → p.groupBusy = false) (ha : a c p = false) (hr : p.recordBad c = false) (hb : b c p = false) :
    checked grp a b f c p = f c p := by
  cases grp <;> simp_all [checked]

/-! Bytes that a window write stores. -/

theorem putBytes_wf (l : List (Nat × Byte)) : ∀ (m : Memory) (off : Nat), m.wf = true → (putBytes m off l).wf = true := by
  induction l with
  | nil => intro m _ h; exact h
  | cons x r ih => intro m off h; exact ih _ off (Memory.write_wf m _ _ h)

end Sys2Proof.Machine
end

