-- ==== Sys2Proof/Laws/State.lean ====
section
/-! SUPPORT. One lemma per field of the package for each update of a unit or a register: the field it writes aside,
nothing changes. -/
namespace Sys2Proof.Machine

open Sys2Proof

@[simp] theorem Pkg.setFen_part (p : Pkg) (i : Nat) (x : Fen) : (p.setFen i x).part = p.part := rfl
@[simp] theorem Pkg.setFen_regs (p : Pkg) (i : Nat) (x : Fen) : (p.setFen i x).regs = p.regs := rfl
@[simp] theorem Pkg.setFen_bell (p : Pkg) (i : Nat) (x : Fen) : (p.setFen i x).bell = p.bell := rfl
@[simp] theorem Pkg.setFen_samps (p : Pkg) (i : Nat) (x : Fen) : (p.setFen i x).samps = p.samps := rfl
@[simp] theorem Pkg.setFen_dredges (p : Pkg) (i : Nat) (x : Fen) : (p.setFen i x).dredges = p.dredges := rfl
@[simp] theorem Pkg.setFen_dram (p : Pkg) (i : Nat) (x : Fen) : (p.setFen i x).dram = p.dram := rfl
@[simp] theorem Pkg.setFen_mesh (p : Pkg) (i : Nat) (x : Fen) : (p.setFen i x).mesh = p.mesh := rfl
@[simp] theorem Pkg.setFen_ports (p : Pkg) (i : Nat) (x : Fen) : (p.setFen i x).ports = p.ports := rfl
@[simp] theorem Pkg.setFen_rank (p : Pkg) (i : Nat) (x : Fen) : (p.setFen i x).rank = p.rank := rfl
@[simp] theorem Pkg.setFen_roll (p : Pkg) (i : Nat) (x : Fen) : (p.setFen i x).roll = p.roll := rfl
@[simp] theorem Pkg.setFen_dig (p : Pkg) (i : Nat) (x : Fen) : (p.setFen i x).dig = p.dig := rfl
@[simp] theorem Pkg.setFen_wgt (p : Pkg) (i : Nat) (x : Fen) : (p.setFen i x).wgt = p.wgt := rfl
@[simp] theorem Pkg.setFen_host (p : Pkg) (i : Nat) (x : Fen) : (p.setFen i x).host = p.host := rfl
@[simp] theorem Pkg.setFen_job (p : Pkg) (i : Nat) (x : Fen) : (p.setFen i x).job = p.job := rfl
@[simp] theorem Pkg.setFen_care (p : Pkg) (i : Nat) (x : Fen) : (p.setFen i x).care = p.care := rfl
@[simp] theorem Pkg.setFen_power (p : Pkg) (i : Nat) (x : Fen) : (p.setFen i x).power = p.power := rfl
@[simp] theorem Pkg.setFen_marks (p : Pkg) (i : Nat) (x : Fen) : (p.setFen i x).marks = p.marks := rfl
@[simp] theorem Pkg.setFen_perfPend (p : Pkg) (i : Nat) (x : Fen) : (p.setFen i x).perfPend = p.perfPend := rfl
@[simp] theorem Pkg.setFen_spdm (p : Pkg) (i : Nat) (x : Fen) : (p.setFen i x).spdm = p.spdm := rfl
@[simp] theorem Pkg.setFen_evq (p : Pkg) (i : Nat) (x : Fen) : (p.setFen i x).evq = p.evq := rfl
@[simp] theorem Pkg.setFen_evLost (p : Pkg) (i : Nat) (x : Fen) : (p.setFen i x).evLost = p.evLost := rfl
@[simp] theorem Pkg.setFen_brsmRec (p : Pkg) (i : Nat) (x : Fen) : (p.setFen i x).brsmRec = p.brsmRec := rfl
@[simp] theorem Pkg.setFen_mirrorAt (p : Pkg) (i : Nat) (x : Fen) : (p.setFen i x).mirrorAt = p.mirrorAt := rfl
@[simp] theorem Pkg.setFen_training (p : Pkg) (i : Nat) (x : Fen) : (p.setFen i x).training = p.training := rfl
@[simp] theorem Pkg.setFen_irqSum (p : Pkg) (i : Nat) (x : Fen) : (p.setFen i x).irqSum = p.irqSum := rfl
@[simp] theorem Pkg.setFen_careIrq (p : Pkg) (i : Nat) (x : Fen) : (p.setFen i x).careIrq = p.careIrq := rfl
@[simp] theorem Pkg.setFen_fresh (p : Pkg) (i : Nat) (x : Fen) : (p.setFen i x).fresh = p.fresh := rfl
@[simp] theorem Pkg.setFen_free (p : Pkg) (i : Nat) (x : Fen) : (p.setFen i x).free = p.free := rfl
@[simp] theorem Pkg.updFen_part (p : Pkg) (i : Nat) (g : Fen → Fen) : (p.updFen i g).part = p.part := rfl
@[simp] theorem Pkg.updFen_regs (p : Pkg) (i : Nat) (g : Fen → Fen) : (p.updFen i g).regs = p.regs := rfl
@[simp] theorem Pkg.updFen_bell (p : Pkg) (i : Nat) (g : Fen → Fen) : (p.updFen i g).bell = p.bell := rfl
@[simp] theorem Pkg.updFen_samps (p : Pkg) (i : Nat) (g : Fen → Fen) : (p.updFen i g).samps = p.samps := rfl
@[simp] theorem Pkg.updFen_dredges (p : Pkg) (i : Nat) (g : Fen → Fen) : (p.updFen i g).dredges = p.dredges := rfl
@[simp] theorem Pkg.updFen_dram (p : Pkg) (i : Nat) (g : Fen → Fen) : (p.updFen i g).dram = p.dram := rfl
@[simp] theorem Pkg.updFen_mesh (p : Pkg) (i : Nat) (g : Fen → Fen) : (p.updFen i g).mesh = p.mesh := rfl
@[simp] theorem Pkg.updFen_ports (p : Pkg) (i : Nat) (g : Fen → Fen) : (p.updFen i g).ports = p.ports := rfl
@[simp] theorem Pkg.updFen_rank (p : Pkg) (i : Nat) (g : Fen → Fen) : (p.updFen i g).rank = p.rank := rfl
@[simp] theorem Pkg.updFen_roll (p : Pkg) (i : Nat) (g : Fen → Fen) : (p.updFen i g).roll = p.roll := rfl
@[simp] theorem Pkg.updFen_dig (p : Pkg) (i : Nat) (g : Fen → Fen) : (p.updFen i g).dig = p.dig := rfl
@[simp] theorem Pkg.updFen_wgt (p : Pkg) (i : Nat) (g : Fen → Fen) : (p.updFen i g).wgt = p.wgt := rfl
@[simp] theorem Pkg.updFen_host (p : Pkg) (i : Nat) (g : Fen → Fen) : (p.updFen i g).host = p.host := rfl
@[simp] theorem Pkg.updFen_job (p : Pkg) (i : Nat) (g : Fen → Fen) : (p.updFen i g).job = p.job := rfl
@[simp] theorem Pkg.updFen_care (p : Pkg) (i : Nat) (g : Fen → Fen) : (p.updFen i g).care = p.care := rfl
@[simp] theorem Pkg.updFen_power (p : Pkg) (i : Nat) (g : Fen → Fen) : (p.updFen i g).power = p.power := rfl
@[simp] theorem Pkg.updFen_marks (p : Pkg) (i : Nat) (g : Fen → Fen) : (p.updFen i g).marks = p.marks := rfl
@[simp] theorem Pkg.updFen_perfPend (p : Pkg) (i : Nat) (g : Fen → Fen) : (p.updFen i g).perfPend = p.perfPend := rfl
@[simp] theorem Pkg.updFen_spdm (p : Pkg) (i : Nat) (g : Fen → Fen) : (p.updFen i g).spdm = p.spdm := rfl
@[simp] theorem Pkg.updFen_evq (p : Pkg) (i : Nat) (g : Fen → Fen) : (p.updFen i g).evq = p.evq := rfl
@[simp] theorem Pkg.updFen_evLost (p : Pkg) (i : Nat) (g : Fen → Fen) : (p.updFen i g).evLost = p.evLost := rfl
@[simp] theorem Pkg.updFen_brsmRec (p : Pkg) (i : Nat) (g : Fen → Fen) : (p.updFen i g).brsmRec = p.brsmRec := rfl
@[simp] theorem Pkg.updFen_mirrorAt (p : Pkg) (i : Nat) (g : Fen → Fen) : (p.updFen i g).mirrorAt = p.mirrorAt := rfl
@[simp] theorem Pkg.updFen_training (p : Pkg) (i : Nat) (g : Fen → Fen) : (p.updFen i g).training = p.training := rfl
@[simp] theorem Pkg.updFen_irqSum (p : Pkg) (i : Nat) (g : Fen → Fen) : (p.updFen i g).irqSum = p.irqSum := rfl
@[simp] theorem Pkg.updFen_careIrq (p : Pkg) (i : Nat) (g : Fen → Fen) : (p.updFen i g).careIrq = p.careIrq := rfl
@[simp] theorem Pkg.updFen_fresh (p : Pkg) (i : Nat) (g : Fen → Fen) : (p.updFen i g).fresh = p.fresh := rfl
@[simp] theorem Pkg.updFen_free (p : Pkg) (i : Nat) (g : Fen → Fen) : (p.updFen i g).free = p.free := rfl
@[simp] theorem Pkg.setSamp_part (p : Pkg) (d : Nat) (x : Samp) : (p.setSamp d x).part = p.part := rfl
@[simp] theorem Pkg.setSamp_regs (p : Pkg) (d : Nat) (x : Samp) : (p.setSamp d x).regs = p.regs := rfl
@[simp] theorem Pkg.setSamp_bell (p : Pkg) (d : Nat) (x : Samp) : (p.setSamp d x).bell = p.bell := rfl
@[simp] theorem Pkg.setSamp_fens (p : Pkg) (d : Nat) (x : Samp) : (p.setSamp d x).fens = p.fens := rfl
@[simp] theorem Pkg.setSamp_dredges (p : Pkg) (d : Nat) (x : Samp) : (p.setSamp d x).dredges = p.dredges := rfl
@[simp] theorem Pkg.setSamp_dram (p : Pkg) (d : Nat) (x : Samp) : (p.setSamp d x).dram = p.dram := rfl
@[simp] theorem Pkg.setSamp_mesh (p : Pkg) (d : Nat) (x : Samp) : (p.setSamp d x).mesh = p.mesh := rfl
@[simp] theorem Pkg.setSamp_ports (p : Pkg) (d : Nat) (x : Samp) : (p.setSamp d x).ports = p.ports := rfl
@[simp] theorem Pkg.setSamp_rank (p : Pkg) (d : Nat) (x : Samp) : (p.setSamp d x).rank = p.rank := rfl
@[simp] theorem Pkg.setSamp_roll (p : Pkg) (d : Nat) (x : Samp) : (p.setSamp d x).roll = p.roll := rfl
@[simp] theorem Pkg.setSamp_dig (p : Pkg) (d : Nat) (x : Samp) : (p.setSamp d x).dig = p.dig := rfl
@[simp] theorem Pkg.setSamp_wgt (p : Pkg) (d : Nat) (x : Samp) : (p.setSamp d x).wgt = p.wgt := rfl
@[simp] theorem Pkg.setSamp_host (p : Pkg) (d : Nat) (x : Samp) : (p.setSamp d x).host = p.host := rfl
@[simp] theorem Pkg.setSamp_job (p : Pkg) (d : Nat) (x : Samp) : (p.setSamp d x).job = p.job := rfl
@[simp] theorem Pkg.setSamp_care (p : Pkg) (d : Nat) (x : Samp) : (p.setSamp d x).care = p.care := rfl
@[simp] theorem Pkg.setSamp_power (p : Pkg) (d : Nat) (x : Samp) : (p.setSamp d x).power = p.power := rfl
@[simp] theorem Pkg.setSamp_marks (p : Pkg) (d : Nat) (x : Samp) : (p.setSamp d x).marks = p.marks := rfl
@[simp] theorem Pkg.setSamp_perfPend (p : Pkg) (d : Nat) (x : Samp) : (p.setSamp d x).perfPend = p.perfPend := rfl
@[simp] theorem Pkg.setSamp_spdm (p : Pkg) (d : Nat) (x : Samp) : (p.setSamp d x).spdm = p.spdm := rfl
@[simp] theorem Pkg.setSamp_evq (p : Pkg) (d : Nat) (x : Samp) : (p.setSamp d x).evq = p.evq := rfl
@[simp] theorem Pkg.setSamp_evLost (p : Pkg) (d : Nat) (x : Samp) : (p.setSamp d x).evLost = p.evLost := rfl
@[simp] theorem Pkg.setSamp_brsmRec (p : Pkg) (d : Nat) (x : Samp) : (p.setSamp d x).brsmRec = p.brsmRec := rfl
@[simp] theorem Pkg.setSamp_mirrorAt (p : Pkg) (d : Nat) (x : Samp) : (p.setSamp d x).mirrorAt = p.mirrorAt := rfl
@[simp] theorem Pkg.setSamp_training (p : Pkg) (d : Nat) (x : Samp) : (p.setSamp d x).training = p.training := rfl
@[simp] theorem Pkg.setSamp_irqSum (p : Pkg) (d : Nat) (x : Samp) : (p.setSamp d x).irqSum = p.irqSum := rfl
@[simp] theorem Pkg.setSamp_careIrq (p : Pkg) (d : Nat) (x : Samp) : (p.setSamp d x).careIrq = p.careIrq := rfl
@[simp] theorem Pkg.setSamp_fresh (p : Pkg) (d : Nat) (x : Samp) : (p.setSamp d x).fresh = p.fresh := rfl
@[simp] theorem Pkg.setSamp_free (p : Pkg) (d : Nat) (x : Samp) : (p.setSamp d x).free = p.free := rfl
@[simp] theorem Pkg.setDredge_part (p : Pkg) (d : Nat) (x : Dredge) : (p.setDredge d x).part = p.part := rfl
@[simp] theorem Pkg.setDredge_regs (p : Pkg) (d : Nat) (x : Dredge) : (p.setDredge d x).regs = p.regs := rfl
@[simp] theorem Pkg.setDredge_bell (p : Pkg) (d : Nat) (x : Dredge) : (p.setDredge d x).bell = p.bell := rfl
@[simp] theorem Pkg.setDredge_fens (p : Pkg) (d : Nat) (x : Dredge) : (p.setDredge d x).fens = p.fens := rfl
@[simp] theorem Pkg.setDredge_samps (p : Pkg) (d : Nat) (x : Dredge) : (p.setDredge d x).samps = p.samps := rfl
@[simp] theorem Pkg.setDredge_dram (p : Pkg) (d : Nat) (x : Dredge) : (p.setDredge d x).dram = p.dram := rfl
@[simp] theorem Pkg.setDredge_mesh (p : Pkg) (d : Nat) (x : Dredge) : (p.setDredge d x).mesh = p.mesh := rfl
@[simp] theorem Pkg.setDredge_ports (p : Pkg) (d : Nat) (x : Dredge) : (p.setDredge d x).ports = p.ports := rfl
@[simp] theorem Pkg.setDredge_rank (p : Pkg) (d : Nat) (x : Dredge) : (p.setDredge d x).rank = p.rank := rfl
@[simp] theorem Pkg.setDredge_roll (p : Pkg) (d : Nat) (x : Dredge) : (p.setDredge d x).roll = p.roll := rfl
@[simp] theorem Pkg.setDredge_dig (p : Pkg) (d : Nat) (x : Dredge) : (p.setDredge d x).dig = p.dig := rfl
@[simp] theorem Pkg.setDredge_wgt (p : Pkg) (d : Nat) (x : Dredge) : (p.setDredge d x).wgt = p.wgt := rfl
@[simp] theorem Pkg.setDredge_host (p : Pkg) (d : Nat) (x : Dredge) : (p.setDredge d x).host = p.host := rfl
@[simp] theorem Pkg.setDredge_job (p : Pkg) (d : Nat) (x : Dredge) : (p.setDredge d x).job = p.job := rfl
@[simp] theorem Pkg.setDredge_care (p : Pkg) (d : Nat) (x : Dredge) : (p.setDredge d x).care = p.care := rfl
@[simp] theorem Pkg.setDredge_power (p : Pkg) (d : Nat) (x : Dredge) : (p.setDredge d x).power = p.power := rfl
@[simp] theorem Pkg.setDredge_marks (p : Pkg) (d : Nat) (x : Dredge) : (p.setDredge d x).marks = p.marks := rfl
@[simp] theorem Pkg.setDredge_perfPend (p : Pkg) (d : Nat) (x : Dredge) : (p.setDredge d x).perfPend = p.perfPend := rfl
@[simp] theorem Pkg.setDredge_spdm (p : Pkg) (d : Nat) (x : Dredge) : (p.setDredge d x).spdm = p.spdm := rfl
@[simp] theorem Pkg.setDredge_evq (p : Pkg) (d : Nat) (x : Dredge) : (p.setDredge d x).evq = p.evq := rfl
@[simp] theorem Pkg.setDredge_evLost (p : Pkg) (d : Nat) (x : Dredge) : (p.setDredge d x).evLost = p.evLost := rfl
@[simp] theorem Pkg.setDredge_brsmRec (p : Pkg) (d : Nat) (x : Dredge) : (p.setDredge d x).brsmRec = p.brsmRec := rfl
@[simp] theorem Pkg.setDredge_mirrorAt (p : Pkg) (d : Nat) (x : Dredge) : (p.setDredge d x).mirrorAt = p.mirrorAt := rfl
@[simp] theorem Pkg.setDredge_training (p : Pkg) (d : Nat) (x : Dredge) : (p.setDredge d x).training = p.training := rfl
@[simp] theorem Pkg.setDredge_irqSum (p : Pkg) (d : Nat) (x : Dredge) : (p.setDredge d x).irqSum = p.irqSum := rfl
@[simp] theorem Pkg.setDredge_careIrq (p : Pkg) (d : Nat) (x : Dredge) : (p.setDredge d x).careIrq = p.careIrq := rfl
@[simp] theorem Pkg.setDredge_fresh (p : Pkg) (d : Nat) (x : Dredge) : (p.setDredge d x).fresh = p.fresh := rfl
@[simp] theorem Pkg.setDredge_free (p : Pkg) (d : Nat) (x : Dredge) : (p.setDredge d x).free = p.free := rfl
@[simp] theorem Pkg.setPort_part (p : Pkg) (i : Nat) (x : Port) : (p.setPort i x).part = p.part := rfl
@[simp] theorem Pkg.setPort_regs (p : Pkg) (i : Nat) (x : Port) : (p.setPort i x).regs = p.regs := rfl
@[simp] theorem Pkg.setPort_bell (p : Pkg) (i : Nat) (x : Port) : (p.setPort i x).bell = p.bell := rfl
@[simp] theorem Pkg.setPort_fens (p : Pkg) (i : Nat) (x : Port) : (p.setPort i x).fens = p.fens := rfl
@[simp] theorem Pkg.setPort_samps (p : Pkg) (i : Nat) (x : Port) : (p.setPort i x).samps = p.samps := rfl
@[simp] theorem Pkg.setPort_dredges (p : Pkg) (i : Nat) (x : Port) : (p.setPort i x).dredges = p.dredges := rfl
@[simp] theorem Pkg.setPort_dram (p : Pkg) (i : Nat) (x : Port) : (p.setPort i x).dram = p.dram := rfl
@[simp] theorem Pkg.setPort_mesh (p : Pkg) (i : Nat) (x : Port) : (p.setPort i x).mesh = p.mesh := rfl
@[simp] theorem Pkg.setPort_rank (p : Pkg) (i : Nat) (x : Port) : (p.setPort i x).rank = p.rank := rfl
@[simp] theorem Pkg.setPort_roll (p : Pkg) (i : Nat) (x : Port) : (p.setPort i x).roll = p.roll := rfl
@[simp] theorem Pkg.setPort_dig (p : Pkg) (i : Nat) (x : Port) : (p.setPort i x).dig = p.dig := rfl
@[simp] theorem Pkg.setPort_wgt (p : Pkg) (i : Nat) (x : Port) : (p.setPort i x).wgt = p.wgt := rfl
@[simp] theorem Pkg.setPort_host (p : Pkg) (i : Nat) (x : Port) : (p.setPort i x).host = p.host := rfl
@[simp] theorem Pkg.setPort_job (p : Pkg) (i : Nat) (x : Port) : (p.setPort i x).job = p.job := rfl
@[simp] theorem Pkg.setPort_care (p : Pkg) (i : Nat) (x : Port) : (p.setPort i x).care = p.care := rfl
@[simp] theorem Pkg.setPort_power (p : Pkg) (i : Nat) (x : Port) : (p.setPort i x).power = p.power := rfl
@[simp] theorem Pkg.setPort_marks (p : Pkg) (i : Nat) (x : Port) : (p.setPort i x).marks = p.marks := rfl
@[simp] theorem Pkg.setPort_perfPend (p : Pkg) (i : Nat) (x : Port) : (p.setPort i x).perfPend = p.perfPend := rfl
@[simp] theorem Pkg.setPort_spdm (p : Pkg) (i : Nat) (x : Port) : (p.setPort i x).spdm = p.spdm := rfl
@[simp] theorem Pkg.setPort_evq (p : Pkg) (i : Nat) (x : Port) : (p.setPort i x).evq = p.evq := rfl
@[simp] theorem Pkg.setPort_evLost (p : Pkg) (i : Nat) (x : Port) : (p.setPort i x).evLost = p.evLost := rfl
@[simp] theorem Pkg.setPort_brsmRec (p : Pkg) (i : Nat) (x : Port) : (p.setPort i x).brsmRec = p.brsmRec := rfl
@[simp] theorem Pkg.setPort_mirrorAt (p : Pkg) (i : Nat) (x : Port) : (p.setPort i x).mirrorAt = p.mirrorAt := rfl
@[simp] theorem Pkg.setPort_training (p : Pkg) (i : Nat) (x : Port) : (p.setPort i x).training = p.training := rfl
@[simp] theorem Pkg.setPort_irqSum (p : Pkg) (i : Nat) (x : Port) : (p.setPort i x).irqSum = p.irqSum := rfl
@[simp] theorem Pkg.setPort_careIrq (p : Pkg) (i : Nat) (x : Port) : (p.setPort i x).careIrq = p.careIrq := rfl
@[simp] theorem Pkg.setPort_fresh (p : Pkg) (i : Nat) (x : Port) : (p.setPort i x).fresh = p.fresh := rfl
@[simp] theorem Pkg.setPort_free (p : Pkg) (i : Nat) (x : Port) : (p.setPort i x).free = p.free := rfl
@[simp] theorem Pkg.updPort_part (p : Pkg) (i : Nat) (g : Port → Port) : (p.updPort i g).part = p.part := rfl
@[simp] theorem Pkg.updPort_regs (p : Pkg) (i : Nat) (g : Port → Port) : (p.updPort i g).regs = p.regs := rfl
@[simp] theorem Pkg.updPort_bell (p : Pkg) (i : Nat) (g : Port → Port) : (p.updPort i g).bell = p.bell := rfl
@[simp] theorem Pkg.updPort_fens (p : Pkg) (i : Nat) (g : Port → Port) : (p.updPort i g).fens = p.fens := rfl
@[simp] theorem Pkg.updPort_samps (p : Pkg) (i : Nat) (g : Port → Port) : (p.updPort i g).samps = p.samps := rfl
@[simp] theorem Pkg.updPort_dredges (p : Pkg) (i : Nat) (g : Port → Port) : (p.updPort i g).dredges = p.dredges := rfl
@[simp] theorem Pkg.updPort_dram (p : Pkg) (i : Nat) (g : Port → Port) : (p.updPort i g).dram = p.dram := rfl
@[simp] theorem Pkg.updPort_mesh (p : Pkg) (i : Nat) (g : Port → Port) : (p.updPort i g).mesh = p.mesh := rfl
@[simp] theorem Pkg.updPort_rank (p : Pkg) (i : Nat) (g : Port → Port) : (p.updPort i g).rank = p.rank := rfl
@[simp] theorem Pkg.updPort_roll (p : Pkg) (i : Nat) (g : Port → Port) : (p.updPort i g).roll = p.roll := rfl
@[simp] theorem Pkg.updPort_dig (p : Pkg) (i : Nat) (g : Port → Port) : (p.updPort i g).dig = p.dig := rfl
@[simp] theorem Pkg.updPort_wgt (p : Pkg) (i : Nat) (g : Port → Port) : (p.updPort i g).wgt = p.wgt := rfl
@[simp] theorem Pkg.updPort_host (p : Pkg) (i : Nat) (g : Port → Port) : (p.updPort i g).host = p.host := rfl
@[simp] theorem Pkg.updPort_job (p : Pkg) (i : Nat) (g : Port → Port) : (p.updPort i g).job = p.job := rfl
@[simp] theorem Pkg.updPort_care (p : Pkg) (i : Nat) (g : Port → Port) : (p.updPort i g).care = p.care := rfl
@[simp] theorem Pkg.updPort_power (p : Pkg) (i : Nat) (g : Port → Port) : (p.updPort i g).power = p.power := rfl
@[simp] theorem Pkg.updPort_marks (p : Pkg) (i : Nat) (g : Port → Port) : (p.updPort i g).marks = p.marks := rfl
@[simp] theorem Pkg.updPort_perfPend (p : Pkg) (i : Nat) (g : Port → Port) : (p.updPort i g).perfPend = p.perfPend := rfl
@[simp] theorem Pkg.updPort_spdm (p : Pkg) (i : Nat) (g : Port → Port) : (p.updPort i g).spdm = p.spdm := rfl
@[simp] theorem Pkg.updPort_evq (p : Pkg) (i : Nat) (g : Port → Port) : (p.updPort i g).evq = p.evq := rfl
@[simp] theorem Pkg.updPort_evLost (p : Pkg) (i : Nat) (g : Port → Port) : (p.updPort i g).evLost = p.evLost := rfl
@[simp] theorem Pkg.updPort_brsmRec (p : Pkg) (i : Nat) (g : Port → Port) : (p.updPort i g).brsmRec = p.brsmRec := rfl
@[simp] theorem Pkg.updPort_mirrorAt (p : Pkg) (i : Nat) (g : Port → Port) : (p.updPort i g).mirrorAt = p.mirrorAt := rfl
@[simp] theorem Pkg.updPort_training (p : Pkg) (i : Nat) (g : Port → Port) : (p.updPort i g).training = p.training := rfl
@[simp] theorem Pkg.updPort_irqSum (p : Pkg) (i : Nat) (g : Port → Port) : (p.updPort i g).irqSum = p.irqSum := rfl
@[simp] theorem Pkg.updPort_careIrq (p : Pkg) (i : Nat) (g : Port → Port) : (p.updPort i g).careIrq = p.careIrq := rfl
@[simp] theorem Pkg.updPort_fresh (p : Pkg) (i : Nat) (g : Port → Port) : (p.updPort i g).fresh = p.fresh := rfl
@[simp] theorem Pkg.updPort_free (p : Pkg) (i : Nat) (g : Port → Port) : (p.updPort i g).free = p.free := rfl
@[simp] theorem Pkg.setStack_part (p : Pkg) (i : Nat) (x : Stack) : (p.setStack i x).part = p.part := rfl
@[simp] theorem Pkg.setStack_regs (p : Pkg) (i : Nat) (x : Stack) : (p.setStack i x).regs = p.regs := rfl
@[simp] theorem Pkg.setStack_bell (p : Pkg) (i : Nat) (x : Stack) : (p.setStack i x).bell = p.bell := rfl
@[simp] theorem Pkg.setStack_fens (p : Pkg) (i : Nat) (x : Stack) : (p.setStack i x).fens = p.fens := rfl
@[simp] theorem Pkg.setStack_samps (p : Pkg) (i : Nat) (x : Stack) : (p.setStack i x).samps = p.samps := rfl
@[simp] theorem Pkg.setStack_dredges (p : Pkg) (i : Nat) (x : Stack) : (p.setStack i x).dredges = p.dredges := rfl
@[simp] theorem Pkg.setStack_mesh (p : Pkg) (i : Nat) (x : Stack) : (p.setStack i x).mesh = p.mesh := rfl
@[simp] theorem Pkg.setStack_ports (p : Pkg) (i : Nat) (x : Stack) : (p.setStack i x).ports = p.ports := rfl
@[simp] theorem Pkg.setStack_rank (p : Pkg) (i : Nat) (x : Stack) : (p.setStack i x).rank = p.rank := rfl
@[simp] theorem Pkg.setStack_roll (p : Pkg) (i : Nat) (x : Stack) : (p.setStack i x).roll = p.roll := rfl
@[simp] theorem Pkg.setStack_dig (p : Pkg) (i : Nat) (x : Stack) : (p.setStack i x).dig = p.dig := rfl
@[simp] theorem Pkg.setStack_wgt (p : Pkg) (i : Nat) (x : Stack) : (p.setStack i x).wgt = p.wgt := rfl
@[simp] theorem Pkg.setStack_host (p : Pkg) (i : Nat) (x : Stack) : (p.setStack i x).host = p.host := rfl
@[simp] theorem Pkg.setStack_job (p : Pkg) (i : Nat) (x : Stack) : (p.setStack i x).job = p.job := rfl
@[simp] theorem Pkg.setStack_care (p : Pkg) (i : Nat) (x : Stack) : (p.setStack i x).care = p.care := rfl
@[simp] theorem Pkg.setStack_power (p : Pkg) (i : Nat) (x : Stack) : (p.setStack i x).power = p.power := rfl
@[simp] theorem Pkg.setStack_marks (p : Pkg) (i : Nat) (x : Stack) : (p.setStack i x).marks = p.marks := rfl
@[simp] theorem Pkg.setStack_perfPend (p : Pkg) (i : Nat) (x : Stack) : (p.setStack i x).perfPend = p.perfPend := rfl
@[simp] theorem Pkg.setStack_spdm (p : Pkg) (i : Nat) (x : Stack) : (p.setStack i x).spdm = p.spdm := rfl
@[simp] theorem Pkg.setStack_evq (p : Pkg) (i : Nat) (x : Stack) : (p.setStack i x).evq = p.evq := rfl
@[simp] theorem Pkg.setStack_evLost (p : Pkg) (i : Nat) (x : Stack) : (p.setStack i x).evLost = p.evLost := rfl
@[simp] theorem Pkg.setStack_brsmRec (p : Pkg) (i : Nat) (x : Stack) : (p.setStack i x).brsmRec = p.brsmRec := rfl
@[simp] theorem Pkg.setStack_mirrorAt (p : Pkg) (i : Nat) (x : Stack) : (p.setStack i x).mirrorAt = p.mirrorAt := rfl
@[simp] theorem Pkg.setStack_training (p : Pkg) (i : Nat) (x : Stack) : (p.setStack i x).training = p.training := rfl
@[simp] theorem Pkg.setStack_irqSum (p : Pkg) (i : Nat) (x : Stack) : (p.setStack i x).irqSum = p.irqSum := rfl
@[simp] theorem Pkg.setStack_careIrq (p : Pkg) (i : Nat) (x : Stack) : (p.setStack i x).careIrq = p.careIrq := rfl
@[simp] theorem Pkg.setStack_fresh (p : Pkg) (i : Nat) (x : Stack) : (p.setStack i x).fresh = p.fresh := rfl
@[simp] theorem Pkg.setStack_free (p : Pkg) (i : Nat) (x : Stack) : (p.setStack i x).free = p.free := rfl
@[simp] theorem Pkg.setMark_part (p : Pkg) (d : Nat) (x : Mark) : (p.setMark d x).part = p.part := rfl
@[simp] theorem Pkg.setMark_regs (p : Pkg) (d : Nat) (x : Mark) : (p.setMark d x).regs = p.regs := rfl
@[simp] theorem Pkg.setMark_bell (p : Pkg) (d : Nat) (x : Mark) : (p.setMark d x).bell = p.bell := rfl
@[simp] theorem Pkg.setMark_fens (p : Pkg) (d : Nat) (x : Mark) : (p.setMark d x).fens = p.fens := rfl
@[simp] theorem Pkg.setMark_samps (p : Pkg) (d : Nat) (x : Mark) : (p.setMark d x).samps = p.samps := rfl
@[simp] theorem Pkg.setMark_dredges (p : Pkg) (d : Nat) (x : Mark) : (p.setMark d x).dredges = p.dredges := rfl
@[simp] theorem Pkg.setMark_dram (p : Pkg) (d : Nat) (x : Mark) : (p.setMark d x).dram = p.dram := rfl
@[simp] theorem Pkg.setMark_mesh (p : Pkg) (d : Nat) (x : Mark) : (p.setMark d x).mesh = p.mesh := rfl
@[simp] theorem Pkg.setMark_ports (p : Pkg) (d : Nat) (x : Mark) : (p.setMark d x).ports = p.ports := rfl
@[simp] theorem Pkg.setMark_rank (p : Pkg) (d : Nat) (x : Mark) : (p.setMark d x).rank = p.rank := rfl
@[simp] theorem Pkg.setMark_roll (p : Pkg) (d : Nat) (x : Mark) : (p.setMark d x).roll = p.roll := rfl
@[simp] theorem Pkg.setMark_dig (p : Pkg) (d : Nat) (x : Mark) : (p.setMark d x).dig = p.dig := rfl
@[simp] theorem Pkg.setMark_wgt (p : Pkg) (d : Nat) (x : Mark) : (p.setMark d x).wgt = p.wgt := rfl
@[simp] theorem Pkg.setMark_host (p : Pkg) (d : Nat) (x : Mark) : (p.setMark d x).host = p.host := rfl
@[simp] theorem Pkg.setMark_job (p : Pkg) (d : Nat) (x : Mark) : (p.setMark d x).job = p.job := rfl
@[simp] theorem Pkg.setMark_care (p : Pkg) (d : Nat) (x : Mark) : (p.setMark d x).care = p.care := rfl
@[simp] theorem Pkg.setMark_power (p : Pkg) (d : Nat) (x : Mark) : (p.setMark d x).power = p.power := rfl
@[simp] theorem Pkg.setMark_perfPend (p : Pkg) (d : Nat) (x : Mark) : (p.setMark d x).perfPend = p.perfPend := rfl
@[simp] theorem Pkg.setMark_spdm (p : Pkg) (d : Nat) (x : Mark) : (p.setMark d x).spdm = p.spdm := rfl
@[simp] theorem Pkg.setMark_evq (p : Pkg) (d : Nat) (x : Mark) : (p.setMark d x).evq = p.evq := rfl
@[simp] theorem Pkg.setMark_evLost (p : Pkg) (d : Nat) (x : Mark) : (p.setMark d x).evLost = p.evLost := rfl
@[simp] theorem Pkg.setMark_brsmRec (p : Pkg) (d : Nat) (x : Mark) : (p.setMark d x).brsmRec = p.brsmRec := rfl
@[simp] theorem Pkg.setMark_mirrorAt (p : Pkg) (d : Nat) (x : Mark) : (p.setMark d x).mirrorAt = p.mirrorAt := rfl
@[simp] theorem Pkg.setMark_training (p : Pkg) (d : Nat) (x : Mark) : (p.setMark d x).training = p.training := rfl
@[simp] theorem Pkg.setMark_irqSum (p : Pkg) (d : Nat) (x : Mark) : (p.setMark d x).irqSum = p.irqSum := rfl
@[simp] theorem Pkg.setMark_careIrq (p : Pkg) (d : Nat) (x : Mark) : (p.setMark d x).careIrq = p.careIrq := rfl
@[simp] theorem Pkg.setMark_fresh (p : Pkg) (d : Nat) (x : Mark) : (p.setMark d x).fresh = p.fresh := rfl
@[simp] theorem Pkg.setMark_free (p : Pkg) (d : Nat) (x : Mark) : (p.setMark d x).free = p.free := rfl
@[simp] theorem Pkg.setReg_part (p : Pkg) (b : Blk) (i off : Nat) (w : W64) : (p.setReg b i off w).part = p.part := rfl
@[simp] theorem Pkg.setReg_bell (p : Pkg) (b : Blk) (i off : Nat) (w : W64) : (p.setReg b i off w).bell = p.bell := rfl
@[simp] theorem Pkg.setReg_fens (p : Pkg) (b : Blk) (i off : Nat) (w : W64) : (p.setReg b i off w).fens = p.fens := rfl
@[simp] theorem Pkg.setReg_samps (p : Pkg) (b : Blk) (i off : Nat) (w : W64) : (p.setReg b i off w).samps = p.samps := rfl
@[simp] theorem Pkg.setReg_dredges (p : Pkg) (b : Blk) (i off : Nat) (w : W64) : (p.setReg b i off w).dredges = p.dredges := rfl
@[simp] theorem Pkg.setReg_dram (p : Pkg) (b : Blk) (i off : Nat) (w : W64) : (p.setReg b i off w).dram = p.dram := rfl
@[simp] theorem Pkg.setReg_mesh (p : Pkg) (b : Blk) (i off : Nat) (w : W64) : (p.setReg b i off w).mesh = p.mesh := rfl
@[simp] theorem Pkg.setReg_ports (p : Pkg) (b : Blk) (i off : Nat) (w : W64) : (p.setReg b i off w).ports = p.ports := rfl
@[simp] theorem Pkg.setReg_rank (p : Pkg) (b : Blk) (i off : Nat) (w : W64) : (p.setReg b i off w).rank = p.rank := rfl
@[simp] theorem Pkg.setReg_roll (p : Pkg) (b : Blk) (i off : Nat) (w : W64) : (p.setReg b i off w).roll = p.roll := rfl
@[simp] theorem Pkg.setReg_dig (p : Pkg) (b : Blk) (i off : Nat) (w : W64) : (p.setReg b i off w).dig = p.dig := rfl
@[simp] theorem Pkg.setReg_wgt (p : Pkg) (b : Blk) (i off : Nat) (w : W64) : (p.setReg b i off w).wgt = p.wgt := rfl
@[simp] theorem Pkg.setReg_host (p : Pkg) (b : Blk) (i off : Nat) (w : W64) : (p.setReg b i off w).host = p.host := rfl
@[simp] theorem Pkg.setReg_job (p : Pkg) (b : Blk) (i off : Nat) (w : W64) : (p.setReg b i off w).job = p.job := rfl
@[simp] theorem Pkg.setReg_care (p : Pkg) (b : Blk) (i off : Nat) (w : W64) : (p.setReg b i off w).care = p.care := rfl
@[simp] theorem Pkg.setReg_power (p : Pkg) (b : Blk) (i off : Nat) (w : W64) : (p.setReg b i off w).power = p.power := rfl
@[simp] theorem Pkg.setReg_marks (p : Pkg) (b : Blk) (i off : Nat) (w : W64) : (p.setReg b i off w).marks = p.marks := rfl
@[simp] theorem Pkg.setReg_perfPend (p : Pkg) (b : Blk) (i off : Nat) (w : W64) : (p.setReg b i off w).perfPend = p.perfPend := rfl
@[simp] theorem Pkg.setReg_spdm (p : Pkg) (b : Blk) (i off : Nat) (w : W64) : (p.setReg b i off w).spdm = p.spdm := rfl
@[simp] theorem Pkg.setReg_evq (p : Pkg) (b : Blk) (i off : Nat) (w : W64) : (p.setReg b i off w).evq = p.evq := rfl
@[simp] theorem Pkg.setReg_evLost (p : Pkg) (b : Blk) (i off : Nat) (w : W64) : (p.setReg b i off w).evLost = p.evLost := rfl
@[simp] theorem Pkg.setReg_brsmRec (p : Pkg) (b : Blk) (i off : Nat) (w : W64) : (p.setReg b i off w).brsmRec = p.brsmRec := rfl
@[simp] theorem Pkg.setReg_mirrorAt (p : Pkg) (b : Blk) (i off : Nat) (w : W64) : (p.setReg b i off w).mirrorAt = p.mirrorAt := rfl
@[simp] theorem Pkg.setReg_training (p : Pkg) (b : Blk) (i off : Nat) (w : W64) : (p.setReg b i off w).training = p.training := rfl
@[simp] theorem Pkg.setReg_irqSum (p : Pkg) (b : Blk) (i off : Nat) (w : W64) : (p.setReg b i off w).irqSum = p.irqSum := rfl
@[simp] theorem Pkg.setReg_careIrq (p : Pkg) (b : Blk) (i off : Nat) (w : W64) : (p.setReg b i off w).careIrq = p.careIrq := rfl
@[simp] theorem Pkg.setReg_fresh (p : Pkg) (b : Blk) (i off : Nat) (w : W64) : (p.setReg b i off w).fresh = p.fresh := rfl
@[simp] theorem Pkg.setReg_free (p : Pkg) (b : Blk) (i off : Nat) (w : W64) : (p.setReg b i off w).free = p.free := rfl
@[simp] theorem Pkg.fset_part (p : Pkg) (f : Fld) (i v : Nat) : (p.fset f i v).part = p.part := rfl
@[simp] theorem Pkg.fset_bell (p : Pkg) (f : Fld) (i v : Nat) : (p.fset f i v).bell = p.bell := rfl
@[simp] theorem Pkg.fset_fens (p : Pkg) (f : Fld) (i v : Nat) : (p.fset f i v).fens = p.fens := rfl
@[simp] theorem Pkg.fset_samps (p : Pkg) (f : Fld) (i v : Nat) : (p.fset f i v).samps = p.samps := rfl
@[simp] theorem Pkg.fset_dredges (p : Pkg) (f : Fld) (i v : Nat) : (p.fset f i v).dredges = p.dredges := rfl
@[simp] theorem Pkg.fset_dram (p : Pkg) (f : Fld) (i v : Nat) : (p.fset f i v).dram = p.dram := rfl
@[simp] theorem Pkg.fset_mesh (p : Pkg) (f : Fld) (i v : Nat) : (p.fset f i v).mesh = p.mesh := rfl
@[simp] theorem Pkg.fset_ports (p : Pkg) (f : Fld) (i v : Nat) : (p.fset f i v).ports = p.ports := rfl
@[simp] theorem Pkg.fset_rank (p : Pkg) (f : Fld) (i v : Nat) : (p.fset f i v).rank = p.rank := rfl
@[simp] theorem Pkg.fset_roll (p : Pkg) (f : Fld) (i v : Nat) : (p.fset f i v).roll = p.roll := rfl
@[simp] theorem Pkg.fset_dig (p : Pkg) (f : Fld) (i v : Nat) : (p.fset f i v).dig = p.dig := rfl
@[simp] theorem Pkg.fset_wgt (p : Pkg) (f : Fld) (i v : Nat) : (p.fset f i v).wgt = p.wgt := rfl
@[simp] theorem Pkg.fset_host (p : Pkg) (f : Fld) (i v : Nat) : (p.fset f i v).host = p.host := rfl
@[simp] theorem Pkg.fset_job (p : Pkg) (f : Fld) (i v : Nat) : (p.fset f i v).job = p.job := rfl
@[simp] theorem Pkg.fset_care (p : Pkg) (f : Fld) (i v : Nat) : (p.fset f i v).care = p.care := rfl
@[simp] theorem Pkg.fset_power (p : Pkg) (f : Fld) (i v : Nat) : (p.fset f i v).power = p.power := rfl
@[simp] theorem Pkg.fset_marks (p : Pkg) (f : Fld) (i v : Nat) : (p.fset f i v).marks = p.marks := rfl
@[simp] theorem Pkg.fset_perfPend (p : Pkg) (f : Fld) (i v : Nat) : (p.fset f i v).perfPend = p.perfPend := rfl
@[simp] theorem Pkg.fset_spdm (p : Pkg) (f : Fld) (i v : Nat) : (p.fset f i v).spdm = p.spdm := rfl
@[simp] theorem Pkg.fset_evq (p : Pkg) (f : Fld) (i v : Nat) : (p.fset f i v).evq = p.evq := rfl
@[simp] theorem Pkg.fset_evLost (p : Pkg) (f : Fld) (i v : Nat) : (p.fset f i v).evLost = p.evLost := rfl
@[simp] theorem Pkg.fset_brsmRec (p : Pkg) (f : Fld) (i v : Nat) : (p.fset f i v).brsmRec = p.brsmRec := rfl
@[simp] theorem Pkg.fset_mirrorAt (p : Pkg) (f : Fld) (i v : Nat) : (p.fset f i v).mirrorAt = p.mirrorAt := rfl
@[simp] theorem Pkg.fset_training (p : Pkg) (f : Fld) (i v : Nat) : (p.fset f i v).training = p.training := rfl
@[simp] theorem Pkg.fset_irqSum (p : Pkg) (f : Fld) (i v : Nat) : (p.fset f i v).irqSum = p.irqSum := rfl
@[simp] theorem Pkg.fset_careIrq (p : Pkg) (f : Fld) (i v : Nat) : (p.fset f i v).careIrq = p.careIrq := rfl
@[simp] theorem Pkg.fset_free (p : Pkg) (f : Fld) (i v : Nat) : (p.fset f i v).free = p.free := rfl

end Sys2Proof.Machine
end

