-- ==== Sys2Proof/Laws/Regs.lean ====
section
/-! SUPPORT. Registers: read after write; and what logging, counting and raising a vector may touch. -/
namespace Sys2Proof.Machine

open Sys2Proof

/-! Registers. -/

theorem Pkg.reg_setReg_same (p : Pkg) (b : Blk) (i off : Nat) (w : W64) : (p.setReg b i off w).reg b i off = w := by
  simp [Pkg.reg, Pkg.setReg]

theorem Pkg.reg_setReg_other (p : Pkg) (b c : Blk) (i j off o : Nat) (w : W64) (h : c.base j + o ≠ b.base i + off) :
    (p.setReg b i off w).reg c j o = p.reg c j o := by
  simp only [Pkg.reg, Pkg.setReg]
  exact AMap.getD_set_other _ _ _ _ h

/-- What the present tick sets is kept beside the registers (R15). -/
@[simp] theorem Pkg.reg_noteSet (p : Pkg) (b c : Blk) (i j off o hi lo v : Nat) :
    (p.noteSet b i off hi lo v).reg c j o = p.reg c j o := rfl

/-- Bits [hi:lo] after a write of that field: the value at the width of the field. -/
theorem bits_setBits (w : W64) (hi lo v : Nat) (h : lo ≤ hi) (h64 : hi < 64) :
    bits (setBits w hi lo v) hi lo = v % 2 ^ (hi + 1 - lo) := by
  apply Nat.eq_of_testBit_eq
  intro i
  simp only [bits, Nat.testBit_mod_two_pow, Nat.testBit_shiftRight]
  by_cases hi' : i < hi + 1 - lo
  · simp only [hi', decide_true, Bool.true_and]
    have e : (setBits w hi lo v).toNat.testBit (lo + i) = (setBits w hi lo v).getLsbD (lo + i) := rfl
    rw [e]
    have hm : ((2 ^ (hi + 1 - lo) - 1) * 2 ^ lo).testBit (lo + i) = true := by
      rw [Nat.testBit_mul_two_pow]; simp; omega
    have hv : (v % 2 ^ (hi + 1 - lo) * 2 ^ lo).testBit (lo + i) = v.testBit i := by
      rw [Nat.testBit_mul_two_pow]; simp [Nat.testBit_mod_two_pow, hi']
    have hlt : lo + i < 64 := by omega
    simp only [setBits, BitVec.getLsbD_or, BitVec.getLsbD_and, BitVec.getLsbD_not, BitVec.getLsbD_ofNat, hlt, hm, hv, decide_true,
      Bool.true_and, Bool.not_true, Bool.and_false, Bool.and_true, Bool.false_or]
  · simp [hi']

/-- Bits [h2:l2] after a write of bits [hi:lo] that do not meet them. -/
theorem bits_setBits_other (w : W64) (hi lo v h2 l2 : Nat) (h64 : h2 < 64) (hd : h2 < lo ∨ hi < l2) :
    bits (setBits w hi lo v) h2 l2 = bits w h2 l2 := by
  apply Nat.eq_of_testBit_eq
  intro i
  simp only [bits, Nat.testBit_mod_two_pow, Nat.testBit_shiftRight]
  by_cases hi' : i < h2 + 1 - l2
  · simp only [hi', decide_true, Bool.true_and]
    have e : (setBits w hi lo v).toNat.testBit (l2 + i) = (setBits w hi lo v).getLsbD (l2 + i) := rfl
    have e2 : w.toNat.testBit (l2 + i) = w.getLsbD (l2 + i) := rfl
    rw [e, e2]
    have hlt : l2 + i < 64 := by omega
    have hout : l2 + i < lo ∨ hi + 1 - lo ≤ l2 + i - lo := by omega
    have hm : ((2 ^ (hi + 1 - lo) - 1) * 2 ^ lo).testBit (l2 + i) = false := by
      rw [Nat.testBit_mul_two_pow]; simp; omega
    have hv : (v % 2 ^ (hi + 1 - lo) * 2 ^ lo).testBit (l2 + i) = false := by
      rw [Nat.testBit_mul_two_pow]; simp [Nat.testBit_mod_two_pow]; omega
    simp only [setBits, BitVec.getLsbD_or, BitVec.getLsbD_and, BitVec.getLsbD_not, BitVec.getLsbD_ofNat, hlt, hm, hv, decide_true,
      Bool.not_false, Bool.and_false, Bool.and_true, Bool.or_false]
  · simp [hi']

/-- A field reads as it was written, at its width. -/
theorem Pkg.fget_fset (p : Pkg) (f : Fld) (i v : Nat) (h : f.lo ≤ f.hi) (h64 : f.hi < 64) :
    (p.fset f i v).fget f i = v % 2 ^ (f.hi + 1 - f.lo) := by
  unfold Pkg.fget Pkg.fset
  rw [Pkg.reg_setReg_same, bits_setBits _ _ _ _ h h64]

/-- A field of another register is not written. -/
theorem Pkg.fget_fset_reg (p : Pkg) (f g : Fld) (i j v : Nat) (h : g.blk.base j + g.off ≠ f.blk.base i + f.off) :
    (p.fset f i v).fget g j = p.fget g j := by
  unfold Pkg.fget Pkg.fset
  rw [Pkg.reg_setReg_other _ _ _ _ _ _ _ _ h, Pkg.reg_noteSet]

/-- Another field of the same register is not written. -/
theorem Pkg.fget_fset_field (p : Pkg) (f g : Fld) (i v : Nat) (hb : g.blk = f.blk) (ho : g.off = f.off) (h64 : g.hi < 64)
    (hd : g.hi < f.lo ∨ f.hi < g.lo) : (p.fset f i v).fget g i = p.fget g i := by
  unfold Pkg.fget Pkg.fset
  rw [hb, ho, Pkg.reg_setReg_same, bits_setBits_other _ _ _ _ _ _ h64 hd]

/-! What the log may touch. -/

theorem Pkg.SameButLog.refl (p : Pkg) : p.SameButLog p := rfl
theorem Pkg.SameButLog.trans {p q r : Pkg} (h : p.SameButLog q) (g : q.SameButLog r) : p.SameButLog r := by
  unfold Pkg.SameButLog at *
  rw [g, h]

theorem Pkg.setReg_same (p : Pkg) (b : Blk) (i off : Nat) (w : W64) : p.SameButLog (p.setReg b i off w) := rfl
theorem Pkg.noteSet_same (p : Pkg) (b : Blk) (i off hi lo v : Nat) : p.SameButLog (p.noteSet b i off hi lo v) := rfl
theorem Pkg.noteAdd_same (p : Pkg) (b : Blk) (i off hi lo n : Nat) : p.SameButLog (p.noteAdd b i off hi lo n) := rfl
theorem Pkg.fset_same (p : Pkg) (f : Fld) (i v : Nat) : p.SameButLog (p.fset f i v) := rfl
theorem Pkg.fadd_same (p : Pkg) (f : Fld) (i n : Nat) : p.SameButLog (p.fadd f i n) := by
  unfold Pkg.fadd; split
  · exact .refl p
  · rfl
theorem Pkg.raise_same (p : Pkg) (v : Nat) : p.SameButLog (p.raise v) := by
  unfold Pkg.raise; split <;> rfl
theorem Pkg.irqUpdate_same (p : Pkg) (b : Blk) (i : Nat) : p.SameButLog (p.irqUpdate b i) := by
  unfold Pkg.irqUpdate
  dsimp only
  split
  · split
    · exact Pkg.SameButLog.trans (q := { p with irqSum := _, careIrq := _ }) rfl (Pkg.raise_same _ _)
    · rfl
  · split <;> rfl
theorem Pkg.intRaw_same (p : Pkg) (b : Blk) (i k : Nat) : p.SameButLog (p.intRaw b i k) :=
  ((Pkg.noteSet_same p b i _ _ _ _).trans (Pkg.setReg_same _ b i _ _)).trans (Pkg.irqUpdate_same _ b i)
theorem Pkg.perfAt_same (b : Blk) (i code add : Nat) (a : Option Attr) (s : Pkg × Bool) (n : Nat) :
    s.1.SameButLog (Pkg.perfAt b i code add a s n).1 := by
  unfold Pkg.perfAt
  dsimp only
  repeat' split
  all_goals
    first
    | exact .refl _
    | exact Pkg.setReg_same _ _ _ _ _
    | exact ((Pkg.setReg_same _ _ _ _ _).trans (Pkg.setReg_same _ _ _ _ _)).trans (Pkg.intRaw_same _ _ _ _)
theorem Pkg.perf_same (p : Pkg) (b : Blk) (i code add : Nat) (a : Option Attr) : p.SameButLog (p.perf b i code add a) := by
  unfold Pkg.perf
  split
  · exact .refl p
  · have h : ∀ (l : List Nat) (s : Pkg × Bool), s.1.SameButLog (l.foldl (Pkg.perfAt b i code add a) s).1 := by
      intro l
      induction l with
      | nil => intro s; exact .refl _
      | cons n r ih => intro s; exact (Pkg.perfAt_same b i code add a s n).trans (ih _)
    exact h _ (p, false)
theorem Pkg.queueEv_same (p : Pkg) (e : Ev) : p.SameButLog (p.queueEv e) := by
  unfold Pkg.queueEv
  split
  · exact Pkg.SameButLog.trans (q := { p with evLost := p.evLost + 1 }) rfl (Pkg.fadd_same _ _ _ _)
  · rfl

/-- Logging an event touches registers, the event queue and interrupt state alone (R492, R500, R565). -/
theorem Pkg.log_same (p : Pkg) (b : Blk) (i code time info : Nat) (k : Option Nat) :
    p.SameButLog (p.log b i code time info k) := by
  unfold Pkg.log
  dsimp only
  refine Pkg.SameButLog.trans ?_ (Pkg.queueEv_same _ _)
  refine Pkg.SameButLog.trans ?_ (Pkg.perf_same _ _ _ _ _ _)
  have h0 : ∀ c w, p.SameButLog (if c = 0 then p.noteSet b i 0x040 63 0 w else p) := fun c w => by split <;> rfl
  have h1 : ∀ c w v, p.SameButLog (((if c = 0 then p.noteSet b i 0x040 63 0 w else p).noteAdd b i 0x038 31 0 1).setReg b i 0x038 v) :=
    fun c w v => ((h0 c w).trans (Pkg.noteAdd_same _ _ _ _ _ _ _)).trans (Pkg.setReg_same _ _ _ _ _)
  have h3 : ∀ q : Pkg, p.SameButLog q → p.SameButLog (match k with | some k => q.intRaw b i k | none => q) := by
    intro q hq
    cases k
    · exact hq
    · exact hq.trans (Pkg.intRaw_same _ _ _ _)
  apply h3
  refine Pkg.SameButLog.trans ?_ (Pkg.intRaw_same _ _ _ _)
  refine Pkg.SameButLog.trans ?_ (Pkg.setReg_same _ _ _ _ _)
  split
  · exact (h1 _ _ _).trans (Pkg.setReg_same _ _ _ _ _)
  · exact h1 _ _ _

end Sys2Proof.Machine
end

