-- ==== Sys2Proof/WellFormed.lean ====
section
/-! DEFINITION. Which commands are well formed: the sizes that the bus, the link and the pins give their data. An
ill-formed command is one that the outside cannot send; it has a meaning all the same. -/
namespace Sys2Proof

/-- An Issyn flit has 256 bytes (R271). -/
def flitLen (flit : List Byte) : Bool := decide (flit.length = 256)
/-- A write carries one byte enable per byte, and at least one byte (R217, R434). -/
def sameLen (be : List Bool) (data : List Byte) : Bool := decide (be.length = data.length) && decide (0 < data.length)
/-- A register access lies in BAR0 (R556); one of another size or alignment than R557 allows is answered by it. -/
def regAccess (off : Nat) : Bool := decide (off < 2 ^ 26)
/-- Each row of samples holds the six sense channels (R512). -/
def sampleRows (rows : List (List (Int × Int))) : Bool := rows.all fun r => decide (r.length = 6)
/-- Strap pins of their widths (R477). -/
def straps (rack board pos mode : Nat) : Bool :=
  decide (rack < 256) && decide (board < 16) && decide (pos < 4) && decide (mode < 4)

/-- The command is one that can arrive. -/
def Instr.wf : Instr → Bool
  | .teLda _ => true
  | .teLdb _ => true
  | .teMac _ => true
  | .teDrain _ => true
  | .teAddw _ => true
  | .teClr _ => true
  | .veLd _ => true
  | .veSt _ => true
  | .veImm _ => true
  | .veFadd _ => true
  | .veFsub _ => true
  | .veFmul _ => true
  | .veFfma _ => true
  | .veFmin _ => true
  | .veFmax _ => true
  | .veFneg _ => true
  | .veFabs _ => true
  | .veFbcast _ => true
  | .veFmask _ => true
  | .veExp2 _ => true
  | .veLog2 _ => true
  | .veRcp _ => true
  | .veRsqrt _ => true
  | .veTanh _ => true
  | .veGelu _ => true
  | .veSilu _ => true
  | .veRsum _ => true
  | .veRmax _ => true
  | .veRmin _ => true
  | .veAadd _ => true
  | .veAst _ => true
  | .veArnd _ => true
  | .veAclr _ => true
  | .smCopy _ => true
  | .smSend _ => true
  | .smSlrd _ => true
  | .smSlput _ => true
  | .smSlwr _ => true
  | .sampDraw _ => true
  | .lxHdr _ => true
  | .epochZeroingDone _ => true
  | .add _ => true
  | .sub _ => true
  | .and_ _ => true
  | .or_ _ => true
  | .xor _ => true
  | .shl _ => true
  | .shr _ => true
  | .sra _ => true
  | .mul _ => true
  | .addi _ => true
  | .andi _ => true
  | .ldi _ => true
  | .ldhi _ => true
  | .cmp _ => true
  | .minmax _ => true
  | .bfx _ => true
  | .agcur _ => true
  | .agnext _ => true
  | .agrst _ => true
  | .agbase _ => true
  | .agat _ => true
  | .br _ => true
  | .jal _ => true
  | .jr _ => true
  | .loop _ => true
  | .lidx _ => true
  | .break_ _ => true
  | .step _ => true
  | .pushTe _ => true
  | .pushVe _ => true
  | .pushSm _ => true
  | .pushLx _ => true
  | .pushSamp _ => true
  | .pushQueueEntry _ => true
  | .ins _ => true
  | .waitt _ => true
  | .waits _ => true
  | .waitb _ => true
  | .csrr _ => true
  | .csrw _ => true
  | .csrs _ => true
  | .csrc _ => true
  | .epoch _ => true
  | .tbset _ => true
  | .cover _ => true
  | .icacheMiss _ _ => true
  | .icacheFill _ _ => true
  | .pcRange _ => true
  | .pcRangeResume _ => true
  | .droopStretch _ _ => true
  | .slipHigh _ => true
  | .droopHigh _ => true
  | .fenClockUnlock _ => true
  | .meshFlitArrival _ => true
  | .meshHopRepeat _ _ _ => true
  | .portBGrant _ => true
  | .portBAccess _ => true
  | .pbForced _ => true
  | .scrubWriteback _ => true
  | .slabWindowRead _ _ _ len => decide (0 < len)
  | .slabWindowWrite _ _ _ be data _ => sameLen be data
  | .slabWindowBitSet _ _ _ be data _ => sameLen be data
  | .slabWindowBitClear _ _ _ be data _ => sameLen be data
  | .dredgeRegionStart _ => true
  | .dredgeMarchDone _ => true
  | .dredgeRegionEnd _ => true
  | .dredgeEnableWrite _ _ _ => true
  | .sluiceDataArrival _ => true
  | .sluiceWriteAccept _ => true
  | .dramRequestService _ _ => true
  | .peatRequestService _ => true
  | .refreshWindow _ bank => decide (bank < 16)
  | .ownRefresh _ bank => decide (bank < 16)
  | .refreshDeficit _ _ => true
  | .deficitClear _ _ => true
  | .issynSlot _ => true
  | .issynFlitReceive _ _ _ flit => flitLen flit
  | .issynDelivery _ => true
  | .ack _ flit => flitLen flit
  | .replayTimeout _ => true
  | .nakRepeat _ => true
  | .ident _ flit => flitLen flit
  | .ping _ flit phase => flitLen flit && decide (phase < 65536)
  | .pong _ flit phase => flitLen flit && decide (phase < 65536)
  | .lane _ flit => flitLen flit
  | .laneFail _ k => decide (k.lane < 9)
  | .laneMapChange _ => true
  | .laneRetry _ _ => true
  | .laneRetestDone _ _ k _ => decide (k < 9)
  | .portEnable _ _ _ _ _ => true
  | .train _ _ _ _ => true
  | .trainDone _ _ _ _ => true
  | .trainTimeout _ => true
  | .blockLockLoss _ => true
  | .retrainTimeout _ => true
  | .fenceSet _ _ => true
  | .partIdWrite _ _ v => decide (v < 256)
  | .fenceClear _ _ => true
  | .bellSync _ _ => true
  | .sync _ flit phase => flitLen flit && decide (phase < 65536)
  | .followUp _ flit => flitLen flit
  | .delayReq _ flit phase => flitLen flit && decide (phase < 65536)
  | .delayResp _ flit => flitLen flit
  | .timeMasterLost _ => true
  | .handover => true
  | .tb0RateWrite _ _ => true
  | .tb0AdjWrite _ _ => true
  | .masterChange _ _ _ => true
  | .refLoss => true
  | .refRestored => true
  | .throttleTickWrite _ => true
  | .throttleApplied => true
  | .stepBoundary => true
  | .intakeScan => true
  | .submit _ => true
  | .cancel _ => true
  | .samplerRecordToRoll _ => true
  | .egressPost => true
  | .egressTailWrite _ => true
  | .disarmEffect => true
  | .digestPointDrop _ => true
  | .digestStepRecord => true
  | .replayHalted => true
  | .shadowStart => true
  | .sdig _ flit => flitLen flit
  | .sroll _ flit => flitLen flit
  | .shadowLate => true
  | .wchunk _ flit => flitLen flit
  | .wack _ flit => flitLen flit
  | .chunkIncomplete _ => true
  | .chunkAuthenticated _ => true
  | .chunkResendTimeout _ _ => true
  | .chunkTimeout _ => true
  | .weightFrameScan => true
  | .slabFill => true
  | .deferredPlacement => true
  | .weightsSwitched => true
  | .identify => true
  | .loadPlan => true
  | .relocate => true
  | .arm => true
  | .armCopy _ flit => flitLen flit
  | .armReady => true
  | .armTimeout => true
  | .startAt => true
  | .startGuard => true
  | .disarm => true
  | .abort => true
  | .loadWeights => true
  | .switchWeightsAt => true
  | .adapterPut => true
  | .adapterRetire => true
  | .keyInstall => true
  | .replay => true
  | .digestRead => true
  | .shadowBegin => true
  | .shadowEnd => true
  | .timeRebase => true
  | .perfConfig => true
  | .perfCtlApply _ => true
  | .logRead => true
  | .powerState => true
  | .powerEntryCommit => true
  | .powerExit => true
  | .partitionSet => true
  | .commandSlotScan => true
  | .completionPost => true
  | .cplTailWrite _ => true
  | .functionLevelReset => true
  | .memoryWindowRead w _ len => decide (0 < len) && decide (w < 5)
  | .memoryWindowWrite w _ be data _ => sameLen be data && decide (w < 5)
  | .rankTableWrite e _ _ => decide (e < 16384)
  | .registerWrite _ off _ _ => regAccess off
  | .perfCounterClear _ n _ => decide (n < 8)
  | .markReset _ => true
  | .markRecord _ _ => true
  | .coldReset rack board pos mode => straps rack board pos mode
  | .warmReset rack board pos mode => straps rack board pos mode
  | .stageEntered => true
  | .fullRate => true
  | .stackLost _ => true
  | .peatLost c => decide (c < 8)
  | .sensorSample _ => true
  | .status => true
  | .heartbeat port _ => decide (port < 3)
  | .command port _ => decide (port < 3)
  | .throttleSet port _ => decide (port < 3)
  | .time port _ => decide (port < 3)
  | .record port _ => decide (port < 3)
  | .fwWrite port _ => decide (port < 3)
  | .fwActivate port _ => decide (port < 3)
  | .fwCommit port _ => decide (port < 3)
  | .fwTrialExpire => true
  | .messageAck port _ => decide (port < 3)
  | .messageRetransmit _ => true
  | .mgmtFlit _ flit => flitLen flit
  | .caretakerRestart => true
  | .eventLogAppend => true
  | .logFlashWrite => true
  | .mgmtPortDown _ => true
  | .bursarTagFrame _ => true
  | .bursarInterval => true
  | .bursarPowerFail samples => sampleRows samples
  | .bursarPowerOn => true
  | .bursarSelect _ => true
  | .timeMark _ => true
  | .calData off data => decide (off + data.length ≤ 96)
  | .calCommit _ samples => sampleRows samples
  | .sealChange _ => true
  | .bursarMirror => true
  | .bursarStale => true
  | .brsmSelectWrite _ _ => true
  | .wakeN => true
  | .thermtrip _ => true
  | .powerUpStart => true
  | .pwrEnStep => true
  | .pwrSeqTimeout _ => true
  | .pgLost _ => true
  | .vauxLoss samples => sampleRows samples
  | .getVersion _ _ _ => true
  | .getCapabilities _ _ _ => true
  | .negotiateAlgorithms _ _ _ => true
  | .getDigests _ _ _ => true
  | .getCertificate _ _ _ => true
  | .challenge _ _ _ => true
  | .getMeasurements _ _ _ => true
  | .keyExchange _ _ _ => true
  | .finish _ _ _ => true
  | .spdmHeartbeat _ _ _ => true
  | .keyUpdate _ _ _ => true
  | .endSession _ _ _ => true
  | .sessionTimeout _ => true
  | .registerRead _ off _ => regAccess off
  | .lagCleared _ => true
  | .retrainCountReset _ => true
  | .hostLinkChange _ _ => true
  | .d3hot _ => true
  | .mgmtPortUp _ => true
  | .senseFault _ _ => true
  | .tagInvalid samples => sampleRows samples
  | .powerAborted => true
  | .powerEntryDone => true
  | .stackTrainingDone _ => true

end Sys2Proof
end

