-- ==== Sys2Proof/Tests/Slice0.lean ====
section
/-! SUPPORT. Tests of the model: ill-formed commands that WellFormed refuses, a few results worked out by hand from the spec,
and, per statement of Obligations.lean, a theorem witness_<statement> that shows states and operands that meet its hypotheses. -/
set_option Elab.async false

namespace Sys2Proof.Tests

open Sys2Proof Sys2Proof.Machine

/-! Small states. -/

/-- The package at reset. -/
def base : Pkg := State.reset.pkg
/-- The block at reset with another package. -/
def blk (p : Pkg) : State := { State.reset with pkg := p }
def step6 : List (Int × Int) := List.replicate 6 (0, 0)

/-! Well-formedness: each check refuses an ill-formed command, and lets the smallest good one pass. -/

theorem wf_flit : (Instr.ack 0 []).wf = false ∧ (Instr.ack 0 (List.replicate 256 0#8)).wf = true := by decide +kernel
theorem wf_enables : (Instr.slabWindowWrite .host 0 0 [true] [0#8, 0#8] false).wf = false ∧
    (Instr.slabWindowBitSet .host 0 0 [] [] false).wf = false ∧ (Instr.slabWindowBitClear .debug 0 0 [true] [0#8] false).wf = true := by decide +kernel
theorem wf_window : (Instr.memoryWindowRead 5 0 1).wf = false ∧ (Instr.memoryWindowRead 4 0 0).wf = false ∧
    (Instr.memoryWindowWrite 5 0 [true] [0#8] false).wf = false ∧ (Instr.memoryWindowWrite 4 0 [true] [0#8] false).wf = true := by decide +kernel
theorem wf_length : (Instr.slabWindowRead .host 0 0 0).wf = false ∧ (Instr.slabWindowRead .care 0 0 1).wf = true := by decide +kernel
theorem wf_register : (Instr.registerRead false (2 ^ 26) 8).wf = false ∧ (Instr.registerWrite true (2 ^ 26) 8 0#64).wf = false ∧
    (Instr.registerRead false (2 ^ 26 - 1) 8).wf = true := by decide +kernel
theorem wf_samples : (Instr.bursarPowerFail [[(0, 0)]]).wf = false ∧ (Instr.tagInvalid [step6, []]).wf = false ∧
    (Instr.calCommit 0 [[]]).wf = false ∧ (Instr.vauxLoss [[]]).wf = false ∧ (Instr.tagInvalid [step6]).wf = true := by decide +kernel
theorem wf_straps : (Instr.coldReset 256 0 0 0).wf = false ∧ (Instr.coldReset 0 16 0 0).wf = false ∧
    (Instr.warmReset 0 0 4 0).wf = false ∧ (Instr.warmReset 0 0 0 4).wf = false ∧ (Instr.coldReset 255 15 3 3).wf = true := by decide +kernel
theorem wf_numbers : (Instr.perfCounterClear 0 8 true).wf = false ∧ (Instr.calData 90 (List.replicate 7 0#8)).wf = false ∧
    (Instr.heartbeat 3 []).wf = false ∧ (Instr.laneFail 0 ⟨9, 0, true⟩).wf = false ∧ (Instr.laneRetestDone 0 true 9 true).wf = false ∧
    (Instr.peatLost 8).wf = false ∧ (Instr.partIdWrite 0 true 256).wf = false ∧ (Instr.rankTableWrite 16384 true 0#64).wf = false ∧
    (Instr.refreshWindow 0 16).wf = false ∧ (Instr.ownRefresh 0 16).wf = false := by decide +kernel
theorem wf_phase : (Instr.sync 0 (List.replicate 256 0#8) 65536).wf = false ∧ (Instr.ping 0 (List.replicate 256 0#8) 65535).wf = true := by decide +kernel

/-! The queue, the idle step, isolation. -/

theorem witness_IdleStepIsATick : State.reset.pending = [] ∧ base.on = true ∧ base.power.state ≠ 3 ∧ base.drive = false ∧
    ({ base with power := { base.power with pg := 14 } } : Pkg).on = false ∧
    (base.fset F.bellCtrlDrive 0 1).drive = true ∧ (base.fset F.bellCtrlDrive 0 1).bell.tb2.state ≠ .follow ∧
    (base.fset F.bellCtrlDrive 0 1).bell.handoverTick = none := by decide +kernel

theorem witness_SuppliesApart : bursarCmd (.timeMark 0) = true ∧ bursarCmd .wakeN = false ∧ railCmd (.add 0) = false ∧
    (∃ t, exec (.timeMark 0) State.reset = .next t) ∧ (∃ t, exec .wakeN State.reset = .next t) := by
  refine ⟨by decide, by decide, by decide, ⟨_, rfl⟩, ⟨_, rfl⟩⟩

/-! The Proctor: fen 0 with its code in a pinned page. -/

/-- The word of an instruction from the fields of R184. -/
def iw (op dst a b fi : Nat) : Nat := op * 2 ^ 58 + dst * 2 ^ 53 + a * 2 ^ 48 + b * 2 ^ 43 + fi
/-- Fen 0 runs at the first of these instruction words, with g1 = 7 and g2 = 3. -/
def procAt (ws : List Nat) (g : Proctor → Proctor) (p : Pkg) : Pkg :=
  p.setFen 0 { Fen.init with proc := g { Proctor.init with
    code := (ws.map (leBytes 8)).flatten, st := .run, g := [(1, 7#64), (2, 3#64)],
    icache := { ICache.init with pins := [0], lines := [(0, 0)] } } }
def run1 (w : Nat) : Pkg := procAt [w] id base

/-- The Proctor of fen 0 issues an instruction of opcode `k` of which `P` holds. -/
def issuesB (p : Pkg) (k : Nat) (P : PCtx → Bool) : Bool :=
  p.on && match p.pFetch 0 with
    | some x => decide (x.op = k) && decide (x.pc ∉ x.x.icache.bad) && P x
    | none => false
theorem issues_of_issuesB {p : Pkg} {k : Nat} {P : PCtx → Bool} (h : issuesB p k P = true) :
    ∃ x, p.Issues 0 k x ∧ P x = true := by
  unfold issuesB at h
  cases hx : p.pFetch 0 with
  | none => simp [hx] at h
  | some x =>
    simp [hx] at h
    exact ⟨x, ⟨h.1, hx, h.2.1.1, h.2.1.2⟩, h.2.2⟩

/-- ADD g3 := g1 + g2: 7 + 3 (R185). -/
theorem test_add : (match exec (.add 0) (blk (run1 (iw 0 3 1 2 0))) with
    | .next t => decide ((t.pkg.fen 0).proc.greg 3 = 10#64) && decide ((t.pkg.fen 0).proc.pc = 8)
    | _ => false) = true := by decide +kernel
/-- SUB g3 := g2 − g1 wraps: 3 − 7 = 2^64 − 4 (R185). -/
theorem test_sub_wraps : (match exec (.sub 0) (blk (run1 (iw 1 3 2 1 0))) with
    | .next t => decide ((t.pkg.fen 0).proc.greg 3 = 0xFFFFFFFFFFFFFFFC#64)
    | _ => false) = true := by decide +kernel
/-- BFX with LEN = 0 is skipped: pc + 8, ILLEGAL counted (R185, R199). -/
theorem test_bfx_illegal : (match exec (.bfx 0) (blk (run1 (iw 0xF 3 1 2 0))) with
    | .next t => decide ((t.pkg.fen 0).proc.pc = 8) && decide ((t.pkg.fen 0).proc.greg 3 = 0#64) &&
        decide (t.pkg.fget F.fenProcStatIllegal 0 = 1)
    | _ => false) = true := by decide +kernel

theorem witness_ProctorArithmetic : (∃ x, (run1 (iw 0 3 1 2 0)).Issues 0 0 x ∧ (valueOf 0 x).isSome = true) ∧
    (∃ x, (run1 (iw 0xF 3 1 2 0)).Issues 0 0xF x ∧ (valueOf 0xF x).isNone = true) ∧
    (∃ x, (run1 (iw 0xF 3 1 2 (64 * 64))).Issues 0 0xF x ∧ (valueOf 0xF x).isSome = true) ∧
    valueRow (.add 0) = some (0, 0) ∧ valueRow (.bfx 0) = some (0, 0xF) :=
  ⟨issues_of_issuesB (P := fun x => (valueOf 0 x).isSome) (by decide +kernel),
    issues_of_issuesB (P := fun x => (valueOf 0xF x).isNone) (by decide +kernel),
    issues_of_issuesB (P := fun x => (valueOf 0xF x).isSome) (by decide +kernel), rfl, rfl⟩

theorem witness_ProctorDescriptors : ∀ k ∈ [0x11, 0x12, 0x13], ∃ x, (run1 (iw k 3 1 2 7)).Issues 0 k x := by
  intro k hk
  have h : ∀ k ∈ [0x11, 0x12, 0x13], issuesB (run1 (iw k 3 1 2 7)) k (fun _ => true) = true := by decide +kernel
  exact (issues_of_issuesB (h k hk)).imp fun _ h => h.1

/-- The same with a full loop stack whose innermost entry ends at pc 0. -/
def fullStack (w : Nat) : Pkg :=
  procAt [w] (fun x => { x with loops := List.replicate 4 { start := 8, stop := 0, remaining := 2#64, index := 0#64 } }) base

theorem witness_ProctorControl :
    (issuesB (run1 (iw 0x18 0 1 2 (6 * 2 ^ 32 + 5))) 0x18 (fun x => decide (x.fb 34 32 = 6)) &&
     issuesB (run1 (iw 0x18 0 1 2 5)) 0x18 (fun x => holdsCond (x.fb 34 32) x.a x.b == some false) &&
     issuesB (run1 (iw 0x18 0 1 2 (7 * 2 ^ 32))) 0x18 (fun x => holdsCond (x.fb 34 32) x.a x.b == none) &&
     issuesB (run1 (iw 0x19 3 1 2 5)) 0x19 (fun _ => true) &&
     issuesB (run1 (iw 0x1A 3 1 2 0)) 0x1A (fun x => decide (x.a.toNat % 8 ≠ 0)) &&
     issuesB (run1 (iw 0x1A 3 0 2 0)) 0x1A (fun x => decide (x.a.toNat % 8 = 0)) &&
     issuesB (run1 (iw 0x1D 0 0 0 0)) 0x1D (fun x => x.x.loops.isEmpty) &&
     issuesB (fullStack (iw 0x1D 0 0 0 0)) 0x1D (fun x => !x.x.loops.isEmpty) &&
     issuesB (run1 (iw 0x1E 0 0 0 0)) 0x1E (fun _ => true) &&
     issuesB (run1 (iw 0x1B 0 0 0 (2 ^ 24))) 0x1B (fun x => decide (x.fb 42 24 = 1 ∧ x.a.toNat + x.fb 23 0 = 0)) &&
     issuesB (run1 (iw 0x1B 0 1 0 (2 ^ 24))) 0x1B (fun x => decide (x.fb 42 24 = 1 ∧ x.a.toNat + x.fb 23 0 = 7 ∧ x.x.loops.length < 4)) &&
     issuesB (run1 (iw 0x1B 0 1 0 0)) 0x1B (fun x => decide (x.fb 42 24 = 0)) &&
     issuesB (fullStack (iw 0x1B 0 1 0 (2 ^ 24))) 0x1B (fun x => decide (x.a.toNat + x.fb 23 0 = 7 ∧ 4 ≤ x.x.loops.length)) &&
     issuesB (fullStack (iw 0 3 1 2 0)) 0 (fun x => (valueOf 0 x).isSome && x.x.loops.head?.any fun e => decide (e.stop = x.pc))) = true := by
  decide +kernel

/-- A plan of 2,100-tick steps that uses logical fen 0, on physical fen 0, started at tick 0. -/
def img0 : Image :=
  { bytes := [], hash := [], manifest := [], contract := 1, single := true, stepTicks := 2100, slack := 0, rankCount := 1, ceilCu := 0,
    ceilOpt := 0, dramBytes := 0, peatBytes := 0, dir := [], fenset := [0] }
def tab0 : PlanTables :=
  { portMask := 0, slots := [], transit := [], plog := 0, patterns := [], chan := [], refresh := [(0, 0, 0)], sluices := [(0, (0, 1000))],
    points := [] }
def plan0 : PlanInst :=
  { img := img0, tab := tab0, selfRank := 0, acceptHoles := true, dramBase := 0, peatBase := 0, fmap := [(0, 0)], rt := [], placed := true,
    filled := true, wset := none, arm := none, startTick := 0, stepBase := 0, replay := none }
/-- Fen 0 is logical fen 0. -/
def mapped (p : Pkg) : Pkg := (p.fset F.fenMapMapped 0 1).fset F.fenMapLogical 0 0
/-- The plan runs. -/
def running (p : Pkg) : Pkg := { (mapped p).fset F.jobStateTb1Run 0 1 with job := { p.job with state := 6, cur := some plan0 } }
/-- Both bases at a count. -/
def atTick (n : Nat) (p : Pkg) : Pkg := { p with bell := { p.bell with tb1 := { p.bell.tb1 with count := n } } }

/-- Fen 0 with other contents. -/
def fen0 (g : Fen → Fen) (p : Pkg) : Pkg := p.setFen 0 (g (p.fen 0))

theorem witness_ProctorPush :
    (issuesB (run1 (iw 0x20 0 1 2 5)) 0x20 (fun x => decide (x.l < x.x.tb.toNat + x.fb 23 0 ∧ x.x.tb.toNat + x.fb 23 0 ≤ x.l + 4096)) &&
     issuesB (run1 (iw 0x24 0 1 2 0)) 0x24 (fun x => decide (x.x.tb.toNat + x.fb 23 0 ≤ x.l)) &&
     issuesB (run1 (iw 0x22 0 1 2 4097)) 0x22 (fun x => decide (x.l + 4096 < x.x.tb.toNat + x.fb 23 0))) = true ∧
    (let p := procAt [] (fun x => { x with st := .pushWait, held := some ⟨.te, 0#128, 4096, 0⟩ }) base
     p.on = true ∧ (p.fen 0).proc.st = .pushWait ∧ (p.fen 0).hard = false ∧ (p.fen 0).clk.heldNow = false ∧ (p.fen 0).proc.held = some ⟨.te, 0#128, 4096, 0⟩ ∧
     4096 ≤ p.local_ 0 + 4096 ∧ p.local_ 0 < 4096 ∧ ((p.fen 0).queue .te).length < Station.depth .te) := by decide +kernel

/-- Fen 0 meets a WAITS of sluice 1 that holds this. -/
def atWaits (fi : Nat) (l : List SlEnt) (q : List QCmd) : Pkg :=
  fen0 (fun y => { y with slu := [(1, l)], qSm := q }) (run1 (iw 0x29 3 0 0 (2 ^ 24 + fi)))
def ent1 (rdy pois : Bool) : SlEnt :=
  { id := 0, write := false, cls := 0, addr := 0, beats := 1, start := 0, at_ := 0, atoms := [(0, ⟨leBytes 64 1, pois⟩)], accepted := [],
    ready := rdy, dead := false }
/-- A queued command of this word that fires at this tick. -/
def qc (w fire : Nat) : QCmd := { word := BitVec.ofNat 128 w, fire := fire, fen := 0, pc := 0, late := false, avail := 0 }

theorem witness_ProctorWaits :
    (issuesB (run1 (iw 0x28 0 0 0 0)) 0x28 (fun x => decide (x.x.tb.toNat + x.a.toNat + x.fb 23 0 ≤ x.l)) &&
     issuesB (run1 (iw 0x28 0 0 0 1)) 0x28 (fun x => decide (x.l < x.x.tb.toNat + x.a.toNat + x.fb 23 0)) &&
     issuesB (running (run1 (iw 0x2A 3 0 0 0))) 0x2A (fun x => decide (x.fb 1 0 = 0)) &&
     issuesB (run1 (iw 0x2A 3 1 0 1)) 0x2A (fun x => decide (x.fb 1 0 = 1 ∧ x.l < x.a.toNat)) &&
     issuesB (run1 (iw 0x2A 3 0 0 1)) 0x2A (fun x => decide (x.fb 1 0 = 1 ∧ x.a.toNat ≤ x.l)) &&
     issuesB (run1 (iw 0x2A 3 0 0 2)) 0x2A (fun x => decide (2 ≤ x.fb 1 0)) &&
     issuesB (atWaits 1 [] []) 0x29 (fun x => decide (x.l < x.fb 23 0)) &&
     issuesB (atWaits (8 * 2 ^ 26) [ent1 true false] []) 0x29 (fun x => decide (x.fb 31 26 = 8 ∧ x.fb 25 24 = 1)) &&
     issuesB (atWaits 0 [ent1 false false] []) 0x29 (fun x => decide (x.fb 31 26 = 0)) &&
     issuesB (atWaits 0 [ent1 true false] []) 0x29 (fun x => decide (x.fb 31 26 = 0)) &&
     issuesB (atWaits 0 [ent1 true true] []) 0x29 (fun x => decide (x.fb 31 26 = 0)) && issuesB (atWaits 0 [] []) 0x29 (fun _ => true)) = true ∧
    (((atWaits 0 [ent1 true false] []).fen 0).headEntry 1 = some (ent1 true false)) ∧ ((atWaits 0 [] []).fen 0).headEntry 1 = none ∧
    (ent1 true false).word 0 = .ok 1 ∧ ({ ent1 true false with raw := [(0, eccEncode 1 ^^^ 1#72)] } : SlEnt).word 0 = .corrected 1 ∧
    ({ ent1 true false with raw := [(0, eccPoison)] } : SlEnt).word 0 = .bad ∧
    ((atWaits 0 [] []).fen 0).slWaits 1 = false ∧ ((atWaits 0 [] [qc (0x84 * 2 ^ 120 + 2 ^ 86) 0]).fen 0).slWaits 1 = true := by
  decide +kernel

theorem witness_ProctorCsrsAndEpoch :
    (issuesB (run1 (iw 0x30 3 0 0 0)) 0x30 (fun x => (csrValue (run1 0) x x.x (x.fb 11 0)).isSome) &&
     issuesB (run1 (iw 0x30 3 0 0 0x13)) 0x30 (fun x => (csrValue (run1 0) x x.x (x.fb 11 0)).isNone) &&
     issuesB (run1 (iw 0x35 0 1 0 1)) 0x35 (fun _ => true) && issuesB (run1 (iw 0x36 0 0 0 1)) 0x36 (fun _ => true) &&
     issuesB (run1 (iw 0x31 0 1 0 0x7C)) 0x31 (fun x => csrRw (x.fb 11 0)) &&
     issuesB (run1 (iw 0x33 0 1 0 0x7D)) 0x33 (fun x => !csrRw (x.fb 11 0)) && issuesB (run1 (iw 0x34 3 0 0 0)) 0x34 (fun _ => true)) = true ∧
    (let p := fen0 (fun y => { y with zeroing := true, zeroTill := 64 }) (atTick 64 base)
     p.on = true ∧ (p.fen 0).zeroing = true ∧ (p.fen 0).zeroTill ≤ p.local_ 0) := by decide +kernel

theorem witness_IllegalCommands :
    (let p := procAt [0] (fun x => { x with icache := { x.icache with bad := [0] } }) base
     p.on = true ∧ (p.pFetch 0).any (fun x => decide (x.pc ∈ x.x.icache.bad)) = true) ∧
    issuesB (run1 (iw 0x15 0 0 0 0)) 0x15 (fun _ => true) = true ∧ issuesB (run1 (iw 0x3F 0 0 0 0)) 0x3F (fun _ => true) = true ∧
    procRowOf (.add 0) = some 0 ∧ stationRowOf (.teLda 0) = some (0, .te, 1) ∧
    (let p := fen0 (fun y => { y with qTe := [qc 0 0] }) base
     p.on = true ∧ (p.fen 0).queue .te = [qc 0 0] ∧ (p.fen 0).hard = false ∧ (p.fen 0).clk.heldNow = false ∧ max (qc 0 0).fire (qc 0 0).avail ≤ p.local_ 0 ∧
     p.legal 0 .te (qc 0 0).word = false) ∧
    (let w := BitVec.ofNat 128 (0x84 * 2 ^ 120 + 1)
     base.legal 0 .sm w = false ∧ (base.fen 0).slotFree (slSlu w) = true) := by decide +kernel

/-- Line 0 of the code of fen 0 as it comes back from memory. -/
def line0 : DRet := { fen := 0, slu := 4, ent := 0, atom := 0, write := false, data := ⟨List.replicate 64 1#8, false⟩, bad := [7] }
theorem witness_ProctorFetch :
    (let p := procAt [0] (fun x => { x with icache := { x.icache with lines := [], want := [0] } }) base
     let x := (p.fen 0).proc
     p.on = true ∧ x.st = .run ∧ x.ready ≤ p.local_ 0 ∧ (p.fen 0).hard = false ∧ (p.fen 0).clk.heldNow = false ∧ x.pc < x.code.length ∧
     (x.icache.wayOf (x.pc / 64)).isNone = true ∧ 0 ∈ x.icache.want ∧ (x.icache.order 0).any (fun w => x.icache.ways.contains w) = true ∧
     p.atomMapped 0 (codeAddr 0) false = true) ∧
    (let q : Pkg := { base with dram := { base.dram with returns := [line0] } }
     q.dram.returns[0]? = some line0 ∧ line0.data.bytes.length = 64 ∧ ¬ (line0.ent = 1)) ∧
    (let p := procAt [0] (fun x => { x with pc := 8 }) base
     let x := (p.fen 0).proc
     x.st = .run ∧ x.ready ≤ p.local_ 0 ∧ (p.fen 0).hard = false ∧ (p.fen 0).clk.heldNow = false ∧ x.code.length ≤ x.pc) ∧
    (let p := procAt [0] (fun x => { x with st := .stepWait, waitB := some 0 }) base
     let x := (p.fen 0).proc
     x.st = .stepWait ∧ x.waitB = some 0 ∧ (p.fen 0).clk.heldNow = false) := by decide +kernel
/-! The stations. -/

/-- The word of a station command: opcode and operand bits. -/
def sw (op rest : Nat) : Nat := op * 2 ^ 120 + rest
/-- A legal command per station row, by opcode and operand bits: one beat, one flit, one pass, sluice 0. -/
def starters : List (Station × Nat × Nat) :=
  [(.te, 0x01, 0), (.te, 0x02, 0), (.te, 0x03, 2 ^ 66), (.te, 0x04, 2 ^ 84), (.te, 0x05, 0), (.te, 0x06, 0),
   (.sm, 0x80, 2 ^ 28), (.sm, 0x81, 2 ^ 52), (.sm, 0x84, 0), (.sm, 0x85, 0), (.sm, 0x86, 0), (.lx, 0xE0, 0)] ++
  ([0x20, 0x21, 0x22, 0x28, 0x29, 0x2A, 0x2B, 0x2C, 0x2D, 0x2E, 0x2F, 0x30, 0x31, 0x38, 0x39, 0x3A, 0x3B, 0x3C, 0x3D, 0x3E, 0x40, 0x41,
    0x42, 0x43, 0x44, 0x45, 0x46].map fun k => (Station.ve, k, 0))
/-- Fen 0 of the running plan with this command alone, at the head of its queue; a ready entry in sluice 0. -/
def oneHead (st : Station) (w : Nat) : Pkg :=
  fen0 (fun y => { y.setQueue st [qc w 0] with slu := [(0, [ent1 true false])] }) (running base)
/-- HeadStarts as a test. -/
def startsB (st : Station) (k rest : Nat) : Bool :=
  let p := oneHead st (sw k rest)
  let q := qc (sw k rest) 0
  decide (p.on = true ∧ (p.fen 0).queue st = [q] ∧ opOf q.word = k ∧ p.legal 0 st q.word = true ∧ p.isDue q (p.local_ 0) = true ∧
    p.canStart 0 st q (p.local_ 0) = true)
theorem headStarts_of_startsB {st : Station} {k rest : Nat} (h : startsB st k rest = true) :
    (oneHead st (sw k rest)).HeadStarts 0 st k (qc (sw k rest) 0) [] :=
  have ⟨on, alone, op, fits, due, starts⟩ := of_decide_eq_true h
  ⟨on, alone, op, fits, due, starts⟩

/-- The hypotheses of StationStart, VectorCapture and MoverAndDrainStart hold for every row of the stations. -/
theorem witness_StationStart : starters.all (fun x => startsB x.1 x.2.1 x.2.2) = true := by decide +kernel
theorem witness_VectorCapture : startsB .ve 0x2B 0 = true ∧ startsB .ve 0x44 0 = true := by decide +kernel
theorem witness_MoverAndDrainStart : startsB .te 0x04 (2 ^ 84) = true ∧ startsB .sm 0x84 0 = true ∧ startsB .sm 0x85 0 = true ∧
    (oneHead .sm (sw 0x84 0)).atomMapped 0 0 false = true ∧ (oneHead .sm (sw 0x84 0)).atomMapped 1 (2 ^ 43) false = false := by decide +kernel

/-- An addition that has started at tick 3. -/
def flight0 : Flight :=
  { st := .ve, start := 3, fire := 3, ep := 0, word := BitVec.ofNat 128 (sw 0x28 0), fill := false, beats := [], lanes := [1#32],
    acc := .zero, poison := false }
theorem witness_VectorResultVisible :
    (let p := fen0 (fun z => { z with flights := [flight0] }) base
     (p.fen 0).flights = [flight0] ∧ flight0.ep = (p.fen 0).proc.ep.toNat ∧ flight0.st = .ve ∧ opOf flight0.word = 0x28 ∧
     flight0.start + 6 = 9) := by decide +kernel

/-- A draw of slot 0 with a vocabulary of 1. -/
def draw0 (k : Nat) : QCmd := qc (sw k (2 ^ 58 + 15 * 2 ^ 22)) 0
theorem witness_SamplerDraw :
    (let p : Pkg := { mapped base with samps := [(0, { Samp.init with queue := [draw0 0xC1] })] }
     p.on = true ∧ p.drawDue 0 = some (draw0 0xC1) ∧ p.legal 0 .samp (draw0 0xC1).word = true ∧ (p.samp 0).run = none ∧
     (p.samp 0).lastStart ≤ p.refCount ∧ p.drawWaits 0 (draw0 0xC1) = false) ∧
    (let p : Pkg := { mapped base with samps := [(0, { Samp.init with queue := [draw0 0xC2] })] }
     p.drawDue 0 = some (draw0 0xC2) ∧ p.legal 0 .samp (draw0 0xC2).word = false) := by decide +kernel

/-! Clocks, mesh, slab port, Dredge, sluices, memories. -/

def clk0 (g : FenClk → FenClk) : Pkg := fen0 (fun y => { y with clk := g y.clk }) base
theorem witness_FenSlipAndFailure : base.on = true ∧ base.fused 0 = false ∧ max 16 (base.fget F.fenDroopCfgThresholdMv 0) = 40 ∧
    (let p := clk0 fun c => { c with lag := 22529 }
     22528 < (p.fen 0).clk.lag ∧ p.fget F.fenClkStatSlipHighAct 0 = 0) ∧
    (let p := clk0 fun c => { c with stretchLag := 1409 }
     1408 < (p.fen 0).clk.stretchLag ∧ p.fget F.fenClkStatDroopHighAct 0 = 0) ∧
    (base.fset F.fenClkStatSlipHighAct 0 1).fget F.fenClkStatSlipHighAct 0 = 1 ∧ (base.fen 0).clk.lag = 0 ∧
    (running base).planRuns = true ∧ base.planRuns = false := by decide +kernel

/-- R68: 41 mV against a threshold of 40 mV stretches by one sixteenth of a tick, 22 units; 40 mV does not stretch. -/
theorem test_droop : (match exec (.droopStretch 0 41) (blk base), exec (.droopStretch 0 40) (blk base) with
    | .next t, .next u => decide ((t.pkg.fen 0).clk.pend = 22) && decide ((u.pkg.fen 0).clk.pend = 0)
    | _, _ => false) = true := by decide +kernel

theorem witness_ReferenceAndThrottle : base.fget F.pclkPllStatusHoldover 0 = 0 ∧
    (base.fset F.pclkPllStatusHoldover 0 1).fget F.pclkPllStatusHoldover 0 = 1 ∧
    (let p := running base
     let v : Int := 1050000
     p.planRuns = true ∧ p.fget F.pclkThrottleRatioNext 0 ≤ 64 ∧ v = p.job.start + 500 * p.stepTicks ∧ p.refCount + 1050000 ≤ 1050000 ∧
     p.stepTicks ≠ 0 ∧ p.fget F.pclkThrottleRatioNext 0 = 0) ∧
    base.planRuns = false ∧ ((running base).fset F.pclkThrottleRatioNext 0 65).fget F.pclkThrottleRatioNext 0 = 65 ∧
    ({ base with bell := { base.bell with throttle := some (64, 0) } } : Pkg).bell.throttle = some (64, 0) := by decide +kernel

/-- A mesh flit of eight bytes for an address. -/
def mf (dst : FlitDst) (addr ep : Nat) : MFlit :=
  { src := 1, dst := dst, addr := addr, data := ⟨leBytes 8 5, false⟩, len := 8, ep := ep, vc := 0, arr := 1, tries := 0, hop := 0, inj := 0,
    route := [], side := 0, left := 0, blocked := false }
def meshOf (m : MFlit) : Pkg := { atTick 1 (mapped base) with mesh := [m] }
def hop0 (n : Nat) : MFlit := { mf (.fen 0) 0 0 with hop := 1, route := [(0, 0)], side := 1, tries := n }
/-- Port 0 with this staging entry 1. -/
def withStag (e : StagEnt) (p : Pkg) : Pkg := { p with ports := [(0, { Port.init with stag := [(1, e)] })] }
theorem witness_MeshFlits :
    (meshOf (mf (.fen 0) (slabBytes - 8) 0)).flitReady 0 (mf (.fen 0) (slabBytes - 8) 0) 0 0 ∧
    (meshOf (mf (.fen 0) (slabBytes - 8) 1)).flitReady 0 (mf (.fen 0) (slabBytes - 8) 1) 0 0 ∧
    (let p := meshOf (mf (.fen 0) (slabBytes - 8) 0)
     p.readPending' 0 (mf (.fen 0) (slabBytes - 8) 0) = false ∧ (p.fen 0).slab.stuck = [] ∧ (p.fen 0).proc.ep.toNat % 256 = 0) ∧
    (let m := mf (.samp 0) 0x27FFF8 0
     (meshOf m).inOrder 0 m = true ∧ m.there 1 = true ∧ m.addr + m.len ≤ 0x280000 ∧ ((meshOf m).samp 0).holds m.addr = false ∧ m.data.poison = false) ∧
    (let m := mf (.samp 0) 0x27FFF9 0
     0x280000 < m.addr + m.len) ∧
    (let m := mf (.edge 0) 256 0
     ((meshOf m).port 0).stag.getD 1 .init = .init ∧ (StagEnt.init.payTag || StagEnt.init.hdrTag && StagEnt.init.null) = false ∧
     ((withStag { StagEnt.init with payTag := true } (meshOf m)).port 0).stag.getD 1 .init = { StagEnt.init with payTag := true } ∧
     ((withStag { StagEnt.init with hdrTag := true, null := true } (meshOf m)).port 0).stag.getD 1 .init =
       { StagEnt.init with hdrTag := true, null := true }) ∧
    (let m := mf (.cross 0 5) 0 256
     (meshOf m).mesh[0]? = some m ∧ (meshOf m).inOrder 0 m = true ∧ m.there (meshOf m).refCount = true ∧ m.arr ≤ (meshOf m).refCount) ∧
    (let p := meshOf (hop0 14)
     p.physOf 0 = some 0 ∧ (∀ n ∈ [15, 16, 17], p.hopOf (hop0 n) 1 0 = true) ∧ (hop0 15).tries < 16 ∧ (hop0 16).tries = 16 ∧
     16 < (hop0 17).tries ∧ p.hopOf { hop0 16 with hop := 288 } 0 0 = true) := by
  unfold Pkg.flitReady
  decide +kernel

/-- A port-B access of eight bytes of the host, granted or not. -/
def pb8 (k : PbKind) (g : Option Nat) : PbReq :=
  { pbReq .host k (slabBytes - 8) 8 with grant := g, data := leBytes 8 1, be := List.replicate 8 true }
def withPb (l : List PbReq) (p : Pkg) : Pkg := fen0 (fun y => { y with slab := { y.slab with pb := l } }) p
theorem witness_PortBGrants :
    (let p := withPb [pb8 .read none] base
     p.paKnown 0 (p.local_ 0 + 4) = false ∧ (pb8 .read none).forced = false ∧ (∀ x ∈ (p.fen 0).slab.pb, x.grant ≠ some 4) ∧ (p.fen 0).slab.pb[0]? = some (pb8 .read none) ∧
     pbOrder (p.fen 0).slab.lastGrant = [] ++ .host :: [.care, .debug, .dredge, .scrub]) := by decide +kernel
theorem pbNow_pb8 (k : PbKind) (p : Pkg) (ho : p.on = true) (hl : p.local_ 0 = 0) (h : (p.fen 0).slab.pb = [pb8 k (some 0)]) :
    p.pbNow 0 0 (pb8 k (some 0)) :=
  ⟨ho, by simp [h], by rw [hl]; rfl, by intro j x hj; omega⟩
theorem witness_PortBAccesses : (withPb [pb8 .read (some 0)] base).pbNow 0 0 (pb8 .read (some 0)) ∧
    (withPb [pb8 .bitSet (some 0)] base).pbNow 0 0 (pb8 .bitSet (some 0)) ∧
    (let p := withPb [pb8 .read (some 0)] base
     p.paNow 0 = false ∧ (∀ k, k < 8 → ∃ d, p.slabWord 0 ((slabBytes - 8 + k) / 8 * 8) = .ok d) ∧ (p.fen 0).slab.stuck = []) ∧
    (fen0 (fun y => { y with pa := 1 }) (withPb [pb8 .write (some 0)] base)).paNow 0 = true := by
  refine ⟨pbNow_pb8 _ _ (by decide +kernel) (by decide +kernel) (by decide +kernel),
    pbNow_pb8 _ _ (by decide +kernel) (by decide +kernel) (by decide +kernel), ⟨by decide +kernel, ?_, by decide +kernel⟩, by decide +kernel⟩
  intro k hk
  have h : (slabBytes - 8 + k) / 8 * 8 = slabBytes - 8 := by simp only [slabBytes]; omega
  rw [h]
  exact ⟨_, rfl⟩
theorem witness_PortBForcedAndScrub :
    (let p := atTick 65535 (withPb [pb8 .read none] base)
     (pb8 .read none).issued + max 1 (p.fget F.fenSlabCfgPbMaxWait 0) ≤ p.local_ 0 ∧ (pb8 .read none).forced = false) ∧
    (((withPb [{ pb8 .read none with forced := true }] base).fen 0).slab.pb[0]?.any PbReq.forced) = true ∧
    (let p := fen0 (fun y => { y with slab := { y.slab with scrubQ := [8] } }) base
     (p.fen 0).slab.scrubQ.head? = some 8 ∧ (p.fen 0).slab.pb = []) := by decide +kernel
theorem witness_SlabWindows : (mapped base).winFen .host 0 = some 0 ∧ base.winFen .care 287 = some 287 ∧
    base.winFen .debug 287 = some 287 ∧ ({ base with part := { base.part with fused := [(31, [8])] } } : Pkg).winFen .care 287 = none ∧
    base.winFen .host 0 = none ∧ slabPlace .host (slabOff .host 2 255 (2 ^ 24 - 1)) = some (2, 255, 2 ^ 24 - 1) ∧
    slabPlace .debug (slabOff .debug 2 287 (2 ^ 24 - 1)) = some (2, 287, 2 ^ 24 - 1) ∧
    slabBytes - 1 + [0#8].length ≤ slabBytes ∧ slabBytes < slabBytes + [0#8].length := by decide +kernel

def dr0 (g : Dredge → Dredge) (p : Pkg) : Pkg := { p with dredges := [(0, g .init)] }
theorem witness_DredgeRegions :
    (let p := base.fset F.dredgeCfgEnable 0 1
     p.fget F.dredgeCfgEnable 0 = 1 ∧ (p.dredge 0).phase = 0 ∧ (p.dredge 0).started = false ∧ p.power.state < 2 ∧ p.power.target < 2) ∧
    (let p := (base.fset F.dredgeCfgEnable 0 1).fset F.fenSlabRepairPriorityValid 71 1
     p.fused 71 = false ∧ p.fget F.fenSlabRepairPriorityValid 71 = 1) ∧
    (let x := (dr0 (fun x => { x with phase := 2, done := 160 }) base).dredge 0
     x.phase = 2 ∧ 160 ≤ x.done ∧ x.failed = false) ∧
    (let p := dr0 (fun x => { x with phase := 2, done := 160, failed := true, row := 2559, region := 2559 }) base
     (p.dredge 0).failed = true ∧ (p.dredge 0).row < 2560 ∧ p.fget (F.fenSlabRmapValid.nth 0) 0 = 0 ∧
       p.fget (F.fenSlabRmapRetired.nth 0) 0 = 0) ∧
    (let p := (List.range 64).foldl (fun p j => Pkg.fset p (F.fenSlabRmapValid.nth j) 0 1) base
     ∀ j, j < 64 → p.fget (F.fenSlabRmapValid.nth j) 0 = 1 ∨ p.fget (F.fenSlabRmapRetired.nth j) 0 = 1) ∧
    (let x := (dr0 (fun x => { x with phase := 3, done := 8 }) base).dredge 0
     x.phase = 3 ∧ x.done = 8) := by decide +kernel

def ret0 (wr : Bool) : DRet := { fen := 0, slu := 0, ent := 0, atom := 0, write := wr, data := ⟨leBytes 64 1, false⟩ }
def withRet (wr : Bool) (d : Bool) : Pkg :=
  { fen0 (fun y => { y with slu := [(0, [{ ent1 false false with dead := d, atoms := [(1, ⟨[], false⟩), (2, ⟨[], false⟩), (3, ⟨[], false⟩),
      (4, ⟨[], false⟩), (5, ⟨[], false⟩), (6, ⟨[], false⟩), (7, ⟨[], false⟩)] }])] }) base with
    dram := { Dram.init with returns := [ret0 wr] } }
theorem witness_SluiceReturns : (withRet false false).nthReturn false 0 = some (ret0 false, 0) ∧
    (withRet true false).nthReturn true 0 = some (ret0 true, 0) ∧
    (((withRet false true).fen 0).sluice 0).any (fun e => e.dead && decide (8 * e.beats ≤ (AMap.put e.atoms 0 ⟨[], false⟩).length)) = true := by
  decide +kernel

def dreq (cls : Nat) (wr : Bool) : DReq :=
  { fen := 0, slu := 0, ent := 0, atom := 0, cls := cls, addr := 0, write := wr, data := ⟨leBytes 64 1, false⟩, held := false }
def outer (wr : Bool) : DReq := { dreq 0 wr with fen := 292 }
def withReq (cls : Nat) (wr : Bool) : Pkg := { running base with dram := { Dram.init with queue := [dreq cls wr] } }
theorem attachFits_of {p : Pkg} {l s c : Nat} {r : DReq} (h : p.attachOf l r.cls r.addr = .mem s c)
    (g : (p.physOf (memAt p.meshW s c)).isSome = true) : p.attachFits l r := by
  intro s' c' e
  rw [h] at e
  cases e
  exact g
theorem witness_MemoryServiceAndRefresh_fits : (withReq 0 false).attachFits 0 (dreq 0 false) ∧ (withReq 1 false).attachFits 0 (dreq 1 false) :=
  ⟨attachFits_of (s := 0) (c := 0) (by decide +kernel) (by decide +kernel), attachFits_of (s := 4) (c := 0) (by decide +kernel) (by decide +kernel)⟩
theorem witness_MemoryServiceAndRefresh : (withReq 0 true).dramFree 0 0 0 (dreq 0 true) ∧ (withReq 0 false).dramFree 0 0 0 (dreq 0 false) ∧
    ((withReq 0 false).logOf 0 = some 0 ∧ (withReq 1 false).logOf 0 = some 0 ∧ 288 ≤ (outer true).fen ∧ inWpt (0 % 2 ^ 36) = false ∧ (dreq 0 true).data.bytes.length = 64 ∧
    nthReq (fun r => decide (r.cls = 1)) (withReq 1 true).dram.queue 0 = some (0, dreq 1 true) ∧
    (∀ z ∈ (withReq 1 true).dram.queue.take 0, z.cls = 1 → z.addr = 0 → (z.fen, z.slu) ≠ (0, 0)) ∧
    (withReq 1 false).dram.peatBad.getD 0 0 = 0 ∧
    (let p := (running base).fset F.sdramThermCover 0 0
     p.job.cur = some plan0 ∧ p.planRuns = true ∧ p.fitted 0 = true ∧
     (plan0.tab.refresh.find? fun w => decide (w.2.1 = 0) && decide (w.2.2 = 0) &&
        decide (w.1 ≤ p.refCount - p.stepStart (p.stepOf p.refCount)) &&
        decide (p.refCount - p.stepStart (p.stepOf p.refCount) < w.1 + 160)) = some (0, 0, 0) ∧
     p.fget F.sdramThermCover 0 < 1 ∧ p.fget F.sdramThermDeficit 0 = 0) ∧
    base.planRuns = false ∧ base.fitted 7 = true ∧ (base.stack 7).selfRefresh = false ∧ 83 + 2 ≤ 85) := by
  refine ⟨⟨by decide +kernel, by decide +kernel, by decide +kernel, by decide +kernel, by decide +kernel⟩,
    ⟨by decide +kernel, by decide +kernel, by decide +kernel, by decide +kernel, by decide +kernel⟩, by decide +kernel⟩

/-! Issyn links and the Bell. Port 0. -/

def port0 (g : Port → Port) (p : Pkg) : Pkg := { p with ports := [(0, g .init)] }
/-- Port 0 is UP, with its fence off. -/
def up0 (g : Port → Port) (p : Pkg) : Pkg := (port0 (fun x => g { x with state := .up }) p).fset F.issynPartFence 0 0
/-- A control flit of a type, without an acknowledgement. -/
def ctl (ct : Nat) (pay : List Byte) : List Byte := mkFlit (1 + 4 * ct) pay

/-- The package with RAW at so many ns. -/
def atNs (n : Nat) (p : Pkg) : Pkg := { p with bell := { p.bell with raw := n * 2 ^ 32 } }
theorem witness_LinkTraining : (base.port 0).state = .off ∧ base.fget F.issynCtrlEnable 0 = 1 ∧
    (let p := atNs (1000000 * base.fget F.issynCtrlRetryMs 0) (port0 (fun x => { x with state := .down }) base)
     (p.port 0).state = .down ∧ (p.port 0).sinceNs + max 1 (p.fget F.issynCtrlRetryMs 0) * 1000000 ≤ p.rawNs) ∧
    (let p := atNs 400000000 (port0 (fun x => { x with state := .train, paths := List.replicate 64 0 }) base)
     (p.port 0).state = .train ∧ (p.port 0).sinceNs + 400000000 ≤ p.rawNs ∧ p.rawNs ≤ (p.port 0).sinceNs + 400000000 ∧
     64 ≤ (p.port 0).paths.length) ∧
    (let p := atNs 400000001 (port0 (fun x => { x with state := .train }) base)
     (p.port 0).sinceNs + 400000000 < p.rawNs) ∧ popcount 9 7 = 3 := by
  decide +kernel

theorem witness_LinkRetrainAndPings : ((up0 id base).port 0).state = .up ∧ (base.port 0).state ≠ .up ∧
    (∀ n ∈ [200000, 200001],
      let p := atNs n (port0 (fun x => { x with state := .retrain }) base)
      p.hearsCtl 0 1 (ctl 1 []) ∧ (p.port 0).state = .retrain ∧ (p.port 0).paths = [] ∧ (p.port 0).sinceNs + 200000 ≤ p.rawNs ∧
      (p.rawNs ≤ (p.port 0).sinceNs + 200000 ↔ n = 200000)) ∧
    ((up0 id (atTick 1050000 base)).port 0).since + 1050000 ≤ (atTick 1050000 base).tb1 ∧
    (up0 id base).hearsCtl 0 4 (ctl 4 []) ∧ (up0 (fun x => { x with pings := [(0, 7)] }) base).hearsCtl 0 5 (ctl 5 []) ∧
    AMap.find? ((up0 (fun x => { x with pings := [(0, 7)] }) base).port 0).pings (leAt (ctl 5 []) 8 8) = some 7 ∧
    AMap.find? ((up0 id base).port 0).pings (leAt (ctl 5 []) 8 8) = none := by
  unfold Pkg.hearsCtl
  decide +kernel

def swap0 (op : Nat) (tx : Bool) : LaneChange := { op := op, lane := 7, block := 0, tx := tx, granted := true }
theorem witness_LinkLanes : hasLane (base.fget F.issynLaneCfgRxFailed 0) 8 = false ∧
    hasLane ((base.fset F.issynLaneCfgRxFailed 0 256).fget F.issynLaneCfgRxFailed 0) 8 = true ∧
    0 ≤ base.fget F.issynLaneCfgSerLimit 0 ∧ base.fget F.issynLaneCfgSerLimit 0 < 2 ^ 32 ∧
    (swap0 1 true).block ≤ base.txBlocks 0 ∧ base.laneAt 0 F.issynLanemapRxMap 7 = 7 ∧
    popcount 9 (0x60 + 2 ^ 8) = 3 ∧ leAt (flitPayload (ctl 2 [1#8])) 0 1 = 1 ∧ leAt (flitPayload (ctl 2 [4#8])) 0 1 = 4 ∧
    ([swap0 2 true].find? (fun c => c.tx) = some (swap0 2 true)) ∧
    (let p := up0 (fun x => { x with changes := [swap0 1 false], retest := [24] }) base
     (p.port 0).changes = [swap0 1 false] ∧ p.laneAt 0 F.issynLanemapRxMap 7 = 7 ∧
     (∀ j, j < 7 → p.laneAt 0 F.issynLanemapRxMap j ≠ 7) ∧ 16 + 8 ∈ (p.port 0).retest) := by
  decide +kernel
theorem witness_LinkLanes_hears : (up0 id base).hearsCtl 0 2 (ctl 2 [1#8]) ∧ (up0 id base).hearsCtl 0 2 (ctl 2 [4#8]) := by
  unfold Pkg.hearsCtl
  decide +kernel
theorem witness_LinkLanes_spare : base.spareIs 0 F.issynLanemapRxMap F.issynLaneCfgRxFailed 8 ∧
    (∀ k, k < 8 → ¬ base.spareIs 0 F.issynLanemapRxMap F.issynLaneCfgRxFailed k) := by
  unfold Pkg.spareIs
  decide +kernel

/-- A plan whose slot table reserves slot 0 of port 0, both ways. -/
def slotPlan (p : Pkg) : Pkg :=
  let p := (p.fset F.issynPartnerValid 0 1).fset F.jobStateTb1Run 0 1
  { p with job := { p.job with cur := some { plan0 with tab := { tab0 with slots := [(0, [0])] } } } }
def stag0 : StagEnt := { StagEnt.init with payTag := true, hdrTag := true, payload := List.replicate 240 0#8 }
def tx0 (seq : Nat) : TxRec := { seq := seq, bytes := ctl 0 [], lastSent := 0, replays := 0, pend := false }
theorem witness_LinkSending_new :
    (let p := slotPlan (up0 (fun x => { x with stag := [(0, stag0)] }) base)
     p.slotNow = some (0, 0) ∧ (p.port 0).lastSlot ≠ 1 ∧ p.reach 0 0 < p.slotUnits ∧ (p.port 0).state = .up ∧ p.drive = false ∧ 0 ∈ p.slotTable 0 ∧ p.dataOpen 0 = true ∧
     AMap.find? (p.port 0).stag 0 = some stag0 ∧ p.entryReady 0 = true ∧ (p.port 0).replay.length < 1024) := by decide +kernel
theorem witness_LinkSending_replay_slot :
    (let p := up0 id base
     p.slotNow = some (0, 0) ∧ p.reach 0 0 < p.slotUnits ∧ 0 ∉ p.slotTable 0 ∧ p.dataOpen 0 = true ∧ (p.port 0).replayRun < 3) := by decide +kernel
theorem witness_LinkSending_replay_find :
    let r : TxRec := { tx0 7 with bytes := [], pend := true }
    ((up0 (fun x => { x with replay := [r] }) base).port 0).replay.find? (fun r => r.pend) = some r := by decide +kernel
theorem witness_LinkSending_replay :
    ((up0 (fun x => { x with lastSlot := 1 }) base).port 0).lastSlot = 1 ∧ (base.port 0).state = .off ∧
    (let p := up0 (fun x => { x with busy := 10 ^ 6 }) base
     ¬ p.reach 0 0 < p.slotUnits) ∧
    (tx0 0).replays < max 1 (base.fget F.issynCtrlReplayLimit 0) ∧
    max 1 (base.fget F.issynCtrlReplayLimit 0) ≤ ({ tx0 0 with replays := 15 } : TxRec).replays ∧
    ([tx0 0].map TxRec.seq).Nodup := by decide +kernel
theorem witness_LinkSending_ack :
    (let b := mkFlit (1 + 4095 * 2 ^ 24 + 2 ^ 36) []
     flitGood b = true ∧ flitKind b = 1 ∧ flitCtype b = 0 ∧ flitAckValid b = true ∧ leAt (flitPayload b) 0 1 = 0 ∧ flitAck b = 4095) := by
  decide +kernel
theorem witness_LinkSending_nak :
    (let b := ctl 0 [1#8]
     (up0 (fun x => { x with replay := [tx0 0] }) base).hearsCtl 0 0 b ∧ leAt (flitPayload b) 0 1 = 1 ∧ leAt (flitPayload b) 2 2 % 4096 = 0) := by
  unfold Pkg.hearsCtl
  decide +kernel

def data0 (hdr : Nat) : List Byte := mkFlit hdr [1#8]
def rx0 : RxRec := { ord := 0, bytes := data0 (39999 * 2 ^ 39), arrived := 0, unscheduled := false, transit := none, delivered := false }
theorem witness_LinkReceiving_drop : (base.port 0).state ≠ .up ∧ flitGood (List.replicate 255 0#8 ++ [1#8]) = false ∧
    (let b := data0 (1 * 2 ^ 16)
     flitGood b = true ∧ flitKind b = 0 ∧ flitPart b ≠ (up0 id base).fget F.issynPartPartId 0) := by decide +kernel
theorem witness_LinkReceiving_take :
    (let p := slotPlan (up0 id base)
     let b := data0 (1023 * 4)
     flitPart b = p.fget F.issynPartPartId 0 ∧ p.fenced 0 = false ∧ p.fget F.issynStatusForeign 0 = 0 ∧
     p.fget F.issynStatusPartnerChanged 0 = 0 ∧ (flitSeq b + 4096 - (p.port 0).ordRx % 4096) % 4096 = 1023 ∧ (p.port 0).rxHeld < 1024 ∧
     p.rxTable 0 ≠ []) := by decide +kernel
def rxPkg : Pkg := atTick 4000 { mapped (slotPlan (up0 (fun x => { x with rx := [rx0], ordRx := 1 }) base)) with rank := [(0, 3#64)] }
theorem witness_LinkReceiving_due : rx0.ord < (rxPkg.port 0).ordRx ∧ rxPkg.dueTick 0 0 ≤ rxPkg.refCount ∧ rx0.arrived < rxPkg.refCount ∧
    rx0.arrived ≤ rxPkg.dueTick 0 0 ∧ (rxPkg.physOf ((portIn rxPkg.meshW 0).1 * rxPkg.meshW + (portIn rxPkg.meshW 0).2)).isSome = true := by
  decide +kernel
/-- A flit for the stacked DRAM. -/
def rx1 : RxRec := { rx0 with bytes := data0 (2 ^ 38) }
theorem witness_LinkReceiving_space1 : flitKind rx1.bytes = 0 ∧ bit (rxPkg.rank.getD (flitDest rx1.bytes) 0#64) 1 = true ∧
    bit (rxPkg.rank.getD (flitDest rx1.bytes) 0#64) 2 = false ∧ flitSpace rx1.bytes = 1 ∧ flitAddr rx1.bytes = 0 ∧
    rxPkg.atomMapped 0 0 true = true := by decide +kernel
theorem witness_LinkReceiving_deliver :
    flitKind rx0.bytes = 0 ∧ bit (rxPkg.rank.getD (flitDest rx0.bytes) 0#64) 1 = true ∧ bit (rxPkg.rank.getD (flitDest rx0.bytes) 0#64) 2 = false ∧
     flitSpace rx0.bytes = 0 := by decide +kernel
theorem witness_LinkReceiving_addr :
    rxPkg.physOf (nbits (flitAddr rx0.bytes) 23 16) = some 0 ∧ nbits (flitAddr rx0.bytes) 15 0 = 39999 := by
  decide +kernel

theorem witness_Partitions : base.fget F.issynPartFence 0 = 1 ∧ (base.port 0).stag = [] ∧ (base.port 0).replay = [] ∧ (base.port 0).rx = [] ∧
    base.fget F.issynPartPartId 0 = 0 ∧ ¬ ((up0 id base).fget F.issynPartFence 0 = 1) := by decide +kernel

/-- A Bell flit: type, base, EXCH_ID 0, and T1 or T4. -/
def bellFlit (ty b : Nat) : List Byte := ctl 3 (leBytes 1 ty ++ leBytes 1 b ++ leBytes 1 0 ++ leBytes 1 1 ++ leBytes 12 0 ++ leBytes 8 100)
/-- Port 0 is UP, and the base TB1 has it as master port. -/
def bell0 (z : TBase) (p : Pkg) : Pkg :=
  let p := (up0 id p).fset F.bellTb1CfgMasterPort 0 0
  { p with bell := { p.bell with tb1 := z } }
def slave0 : SlaveX :=
  { id := 0, port := 0, t1 := 0, t2 := 0, t3 := 0, gotT1 := true, gotT3 := true, steps := 0, ratio := 0, valid := true, base := 1, gm := 0 }
def master0 : MasterX := { id := 0, due := 0, sent := true, t1 := 0, closed := false }
theorem witness_BellMessages :
    (let p := base.setReg .bell 0 0x158 1#64
     bit (p.reg .bell 0 0x158) 0 = true ∧ AMap.find? (p.tb false).masters 0 = none) ∧ bit (base.reg .bell 0 0x158) 15 = false ∧
    (bell0 { TBase.init with masters := [(0, { master0 with due := 1 })] } base).bell.tb1.count / 2 ^ 12 ≠ 1 ∧
    (bell0 .init base).bellIn 0 1 (bellFlit 1 1) ∧ (bell0 .init base).master false = .port 0 ∧
    leAt (flitPayload (bellFlit 1 1)) 1 1 = 1 + (bell0 .init base).fget (masterBaseF false) 0 ∧
    (bell0 { TBase.init with slave := some slave0 } base).bellIn 0 2 (bellFlit 2 1) ∧
    (bell0 { TBase.init with slave := some slave0 } base).bell.tb2.slave = none ∧ leAt (flitPayload (bellFlit 2 1)) 4 2 = slave0.id ∧
    leAt (flitPayload (bellFlit 2 1)) 1 1 = slave0.base ∧
    (bell0 { TBase.init with masters := [(0, master0)] } base).bellIn 0 3 (bellFlit 3 1) ∧ leAt (flitPayload (bellFlit 3 1)) 4 2 = master0.id := by
  unfold Pkg.bellIn Pkg.hearsCtl
  decide +kernel

theorem witness_BellMessages_unknown :
    let p := bell0 { TBase.init with slave := some slave0 } base
    p.bellIn 0 5 (bellFlit 5 1) ∧ p.bell.tb2.slave = none ∧ AMap.find? p.bell.tb2.masters 0 = none := by
  unfold Pkg.bellIn Pkg.hearsCtl
  decide +kernel

theorem witness_BellServo :
    (let p := bell0 { TBase.init with slave := some slave0, state := .locked } base
     let b := bellFlit 4 1
     p.bellIn 0 4 b ∧ (p.tb false).slave = some slave0 ∧ (p.tb true).slave = none ∧ slave0.id = leAt (flitPayload b) 4 2 ∧
     slave0.base = leAt (flitPayload b) 1 1 ∧ bit (BitVec.ofNat 8 (leAt (flitPayload b) 3 1)) 0 = true ∧
     leAt (flitPayload b) 2 1 = p.ratio ∧
     ¬ max 1 (p.fget F.bellJumpJumpNs 0) * 65536 * periodDen < (sx 64 (wrapNat 64 (((100 * 65536 : Int) - 0 - 0) / 2))).natAbs * p.periodNum) ∧
    (let p := (bell0 { TBase.init with slave := some slave0, state := .locked } base).fset F.bellJumpJumpNs 0 1
     max 1 (p.fget F.bellJumpJumpNs 0) * 65536 * periodDen < (sx 64 (wrapNat 64 (((100 * 65536 : Int) - 0 - 0) / 2))).natAbs * p.periodNum) ∧
    ({ TBase.init with state := .follow } : TBase).state = .follow ∧ TBase.init.state = .free ∧ ({ slave0 with gotT3 := false } : SlaveX).gotT3 = false ∧ (base.fset F.pclkThrottleRatioNow 0 1).ratio ≠ 0 := by
  unfold Pkg.bellIn Pkg.hearsCtl
  decide +kernel

theorem witness_BellTime : base.fget F.bellCtrlTb0Mode 0 = 0 ∧ base.fget F.bellCtrlBellOutEn 0 = 0 ∧
    (base.fset F.bellCtrlBellOutEn 0 1).fget F.bellCtrlBellOutEn 0 = 1 ∧
    (let p := (bell0 { TBase.init with state := .locked } base)
     let q : Pkg := { p with ports := [(0, { Port.init with state := .down })] }
     q.master false = .port 0 ∧ (q.port 0).state = .down ∧ (q.tb false).state = .locked ∧
     bits 15#64 4 0 < 16 ∧ bits 15#64 4 0 ≠ p.fget (masterPortF false) 0 ∧ bits 16#64 4 0 = 16 ∧ p.fget (masterPortF false) 0 ≠ 16) := by
  decide +kernel

/-! The Roll, the rings, the digest log and shadowing. -/

/-- The chip at a stage. -/
def stage (n : Nat) (p : Pkg) : Pkg := p.fset F.chipStage 0 n
/-- A request record: SUBMIT without adapter, one prompt token, one output token, sequence number 1 (R333). -/
def rec0 (ty : Nat) : List Byte :=
  leBytes 2 ty ++ leBytes 6 1 ++ leBytes 8 9 ++ List.replicate 40 0#8 ++ leBytes 4 1 ++ leBytes 4 1 ++ List.replicate 60 0#8 ++ leBytes 4 1
/-- Position `i` of the intake area holds the record. -/
def intake (i : Nat) (r : List Byte) (p : Pkg) : Pkg := { p with roll := { p.roll with intake := Memory.write [] (128 * i) r } }
def arm0 : ArmRec :=
  { jobId := 5, dkey := [], batchSlots := 1, drainSteps := 1, specMax := 0, maxCtx := 2, home := [0], params := [] }
def planA : PlanInst := { plan0 with arm := some arm0 }
def nextA (p : Pkg) : Pkg := { p with job := { p.job with next := some planA, state := 4 } }

theorem witness_RollIntake_submit :
    (let p := intake 1023 (rec0 1) (nextA (stage 2 base))
     let r := p.roll.intake.read (128 * 1023) 128
     p.scanning' ∧ p.newIntake 1023 ∧ p.egFull = false ∧ p.roll.upset = [] ∧ leAt r 0 1 ≠ 2 ∧ p.submitCause r = none) := by
  unfold Pkg.scanning' Pkg.newIntake
  decide +kernel
theorem witness_RollIntake_refused :
    (let p := intake 0 (rec0 1) (stage 2 base)
     let r := p.roll.intake.read (128 * 0) 128
     p.newIntake 0 ∧ leAt r 0 1 ≠ 2 ∧ p.submitCause r = some (0x21, 0) ∧ (∀ j, j < 1024 → j ≠ 0 → ¬ p.newIntake j)) := by
  unfold Pkg.newIntake
  decide +kernel
theorem witness_RollIntake_cancel :
    (let p := intake 0 (rec0 2) (stage 2 base)
     p.newIntake 0 ∧ leAt (p.roll.intake.read (128 * 0) 128) 0 1 = 2 ∧ p.roll.backlog = [] ∧ firstFree 0 p.roll.entries = 0) := by
  unfold Pkg.newIntake
  decide +kernel

def samp0 (tok : Nat) : SampRec := { die := 0, slot := 0, ridx := 0, step := 0, token := tok, prob := 0, flags := 0, pos := 1, due := 0 }
def entry0 : REntry := { REntry.init with state := 2, slot := 0, promptLen := 1, maxNew := 1, stops := [7], noAdapter := true }
def active0 : BSlot := { BSlot.init with state := 1 }
/-- The armed plan runs. -/
def runA (p : Pkg) : Pkg :=
  { (mapped p).fset F.jobStateTb1Run 0 1 with job := { p.job with state := 6, cur := some planA } }
def oneReq (tok : Nat) : Pkg :=
  { atTick 2100 (runA base) with
    roll := { base.roll with entries := [(0, entry0)], slots := [(0, active0)], recs := [samp0 tok], lastStep := 1 } }
theorem witness_RollBoundary :
    (let p : Pkg := { runA base with roll := { base.roll with slots := [(0, active0)], inbound := [samp0 3] } }
     p.on = true ∧ p.roll.inbound[0]? = some (samp0 3) ∧ (samp0 3).due ≤ p.refCount ∧ p.homes.contains 0 = true ∧ (p.bslot 0).state = 1) ∧
    base.boundaryDue = false ∧
    (let p := oneReq 3
     p.boundaryDue = true ∧ p.job.disarmReq = false ∧ p.dig.halted = false ∧ p.scripted = false ∧ p.dig.role = 0 ∧
     (samp0 3).due < p.stepStart p.roll.lastStep ∧ p.dig.pendingRole = 0 ∧ p.dig.reports = [] ∧ p.homes = [0] ∧ p.egRoom = false ∧ entry0.slot = 0 ∧ entry0.cancel = false ∧
     entry0.runDepth = 0 ∧ (samp0 3).pos = entry0.promptLen + entry0.tokensOut) := by decide +kernel
theorem witness_RollBoundary_roll :
    (oneReq 7).roll = { (oneReq 7).roll with entries := [(0, entry0)], upset := [], slots := [(0, active0)], recs := [samp0 7], inbound := [],
                                             changes := [], backlog := [], intake := [] } := by decide +kernel
theorem witness_RollBoundary_stop :
    (samp0 7).token ≠ 0xFFFFFFFF ∧ (samp0 7).token ∈ entry0.stops ∧ (samp0 3).token ∉ entry0.stops ∧ entry0.maxNew ≤ entry0.tokensOut + 1 ∧
    ¬ ({ entry0 with maxNew := 2 } : REntry).maxNew ≤ ({ entry0 with maxNew := 2 } : REntry).tokensOut + 1 := by decide +kernel
theorem witness_RollBoundary_upset :
    (let p : Pkg := { base with roll := { base.roll with entries := [(0, entry0)], upset := [(0, 3#72)] } }
     p.entryBad 0 = true ∧ (p.entry 0).state = 2) := by decide +kernel
theorem witness_RollBoundary_disarm :
    (let p : Pkg := { runA base with job := { (runA base).job with disarmReq := true } }
     p.boundaryDue = true ∧ p.job.disarmReq = true) := by decide +kernel

/-- A request that awaits a run of depth 1, and its records. -/
def spec0 : REntry := { entry0 with specEn := true, runDepth := 1, tokensOut := 1, maxNew := 9 }
def req0 (k tok fl : Nat) : SampRec := { samp0 tok with ridx := k, pos := 2 + k, flags := fl }
def oneRun (e : REntry) : Pkg := { runA base with roll := { base.roll with entries := [(0, e)], slots := [(0, active0)] } }
theorem witness_SpeculativeCommit : (oneRun spec0).entry ((oneRun spec0).bslot 0).entry = spec0 ∧ (oneRun spec0).roll.upset = [] ∧
    (∀ l ∈ [[req0 1 4 0, req0 0 3 1, req0 2 5 0], [req0 0 7 1, req0 1 4 0], [req0 0 3 0, req0 1 4 8], [req0 0 3 0, req0 1 4 16]],
      let keep := l.filter fun r => decide (r.ridx ≤ 1)
      (keep.map SampRec.ridx).Perm (List.range 2) ∧ ∀ r ∈ keep, r.pos = spec0.promptLen + spec0.tokensOut + r.ridx) ∧
    ¬ ([req0 0 3 0].map SampRec.ridx).Perm (List.range 2) ∧ (req0 0 3 1).flags % 2 = 1 ∧ (req0 1 4 8).flags / 8 % 2 = 1 ∧
    (req0 1 4 16).flags / 16 % 2 = 1 ∧ (req0 1 4 16).flags / 8 % 2 = 0 ∧ (req0 0 7 1).token ∈ spec0.stops ∧ (req0 0 3 1).token ∉ spec0.stops ∧
    ¬ spec0.maxNew ≤ spec0.tokensOut + 1 + 1 ∧ ({ spec0 with maxNew := 2 } : REntry).maxNew ≤ spec0.tokensOut + 0 + 1 := by decide +kernel
/-- Worked example of chapter 13: a = 2, D = 4 from ACC_EST 45,056. -/
theorem test_depth_example :
    (let e := base.depthUpdate { spec0 with accEst := 45056 } 2 4
     (e.accEst, e.depth) = (43624, 5)) := by decide +kernel

def eg0 : EgRec := { kind := 3, cause := 0, entry := 0, intake := 0, hostTag := 1, value := 2, pos := 3, vec := 0, idx := 0, n := 1 }
def cpl0 : Cpl :=
  { path := .slot 7, opcode := 1, status := 0, tag := 0, res0 := 0, res1 := 0, accepted := false, msix := false, silent := false }
theorem witness_HostRings :
    (let p : Pkg := { base.fset F.rollCtrlEgressEn 0 1 with roll := { base.roll with backlog := [eg0] } }
     p.roll.backlog = [eg0] ∧ p.egRoom = true ∧ p.roll.upset = [] ∧ p.hasPerf .roll 0 = false ∧ p.fget F.rollEgressBase 0 + 32 * (p.fget F.rollEgressHead 0 % 2 ^ p.egSize) + 32 ≤ 2 ^ 64) ∧
    base.roll.backlog = [] ∧ base.host.careCpl = [] ∧ base.host.cplQ = [] ∧
    (let p : Pkg := { base.fset F.hostCplCfgEn 0 1 with host := { base.host with cplQ := [cpl0] } }
     p.host.careCpl = [] ∧ p.host.cplQ = [cpl0] ∧ p.cplRoom = true ∧
     p.fget F.hostCplBaseBase 0 + 32 * (p.fget F.hostCplHeadIndex 0 % 2 ^ p.cplSize) + 32 ≤ 2 ^ 64) ∧
    (let p : Pkg := { base with host := { base.host with cplQ := [cpl0] } }
     p.cplRoom = false) := by decide +kernel

def open0 : DigPoint := { idx := 0, step := 0, taken := [], due := none }
def digP (n : Nat) (o : List DigPoint) (k : AMap DigStep) : Pkg :=
  let p := atTick n (running base)
  { p with job := { p.job with cur := some { plan0 with tab := { tab0 with points := [List.replicate 32 0#8] } } },
           dig := { p.dig with open_ := o, steps := k } }
theorem witness_DigestAndShadow :
    (∀ n ∈ [2099, 2100],
      let p := digP n [open0] []
      p.on = true ∧ p.dig.open_[0]? = some open0 ∧ ((p.points.map DPoint.parse)[open0.idx]?).isSome = true ∧
      p.stepEnd open0.step = 2100 ∧ p.refCount = n ∧ p.local_ 0 = n ∧ p.physOf 0 = some 0) ∧
    (let p := digP 2100 [] [(0, DigStep.init)]
     ({ open0 with due := some 5 } : DigPoint).due ≠ none ∧ p.dig.steps = [(0, DigStep.init)] ∧ p.dig.open_ = [] ∧ p.stepEnd 0 ≤ p.refCount ∧ p.dig.role = 0 ∧ p.fget F.dlogTraceArmed 0 = 0) := by
  decide +kernel
theorem witness_DigestAndShadow_replay :
    (let p := atTick 5 (running base)
     let n : PlanInst := { plan0 with replay := some ([], 0, 5) }
     let q : Pkg := { p with job := { p.job with cur := some n } }
     q.job.cur = some n ∧ n.replay = some ([], 0, 5) ∧ q.tb1Run = true ∧ q.dig.halted = false ∧ q.stepStart 0 + 5 ≤ q.refCount) := by
  decide +kernel
/-- A management flit for the package at the reset straps. -/
def mg0 (pay : List Byte) : List Byte := mkFlit (1 + 4 * 6 + base.phys * 2 ^ 46) pay
def pupil (p : Pkg) : Pkg := { p with dig := { p.dig with role := 2, own := [(0, StepDig.init)] } }
theorem witness_DigestAndShadow_pupil :
    (let p := pupil (digP (3 * 2100) [] [])
     p.dig.role = 2 ∧ p.dig.own = [(0, StepDig.init)] ∧ p.stepEnd (0 + 2) ≤ p.refCount) ∧
    (let p := pupil (up0 id base)
     (p.mgmtIn 0 0x51 (mg0 [0x51#8]) ∧ p.dig.port = 0 ∧ p.drive = false) ∧
     (p.mgmtIn 0 0x50 (mg0 [0x50#8, 11#8, 0#8, 0#8, 0#8, 0#8, 0#8, 0#8, 1#8]) ∧ AMap.find? p.dig.tutor 1 = none ∧ AMap.find? p.dig.own 1 = none ∧
      leAt (flitPayload (mg0 [0x50#8, 11#8, 0#8, 0#8, 0#8, 0#8, 0#8, 0#8, 1#8])) 1 1 % 16 ≤ 11)) := by
  unfold Pkg.mgmtIn Pkg.hearsCtl
  decide +kernel
theorem witness_DigestAndShadow_start :
    (let p : Pkg := { nextA base with dig := { base.dig with pendingRole := 2 } }
     p.job.next = some planA ∧ p.dig.pendingRole = 2 ∧ p.job.state = 4 ∧ planA.placed = true ∧ planA.filled = true ∧ p.planRuns = false) := by
  decide +kernel

/-! Commands of the ROM and the weights. -/

/-- A command of slot 0 with these bytes from 0x10 on, and the same in a record of 512 bytes. -/
def cmdS (op : Nat) (body : List Byte) : Cmd :=
  { no := 1, path := .slot 0, opcode := op, flags := 0, tag := 0, rec_ := leBytes 2 op ++ List.replicate 14 0#8 ++ body,
    takenNs := 0, silent := false }
def pad512 (c : Cmd) : Cmd := { c with rec_ := c.rec_ ++ List.replicate (512 - c.rec_.length) 0#8 }
def cmd0 (op : Nat) (body : List Byte) : Cmd := pad512 (cmdS op body)
def front (c : Cmd) (p : Pkg) : Pkg := { p with host := { p.host with taken := [c] } }
/-- A command goes on. -/
def going (c : Cmd) (p : Pkg) : Pkg := { p with host := { p.host with running := [c] } }
theorem getD_zeros (l : List Byte) (n i : Nat) : (l ++ List.replicate n 0#8).getD i 0#8 = l.getD i 0#8 := by
  by_cases h : i < l.length
  · rw [List.getD_append l _ _ i h]
  · rw [List.getD_append_right l _ _ i (by omega), List.getD_eq_getElem?_getD, List.getElem?_getD_replicate_default_eq,
      List.getD_eq_default l _ (by omega)]
/-- The checks of a record do not see zeros behind it. -/
theorem clean_front {op : Nat} {body : List Byte} {p : Pkg}
    (h : (p.on && p.mayRun (cmdS op body) && (cmdS op body).le 4 4 == 0 && !p.recordBad (cmdS op body)) = true)
    (h4 : (cmd0 op body).le 4 4 = 0) : (front (cmd0 op body) p).Clean op (cmd0 op body) [] := by
  simp only [Bool.and_eq_true, Bool.not_eq_true', beq_iff_eq] at h
  refine ⟨⟨h.1.1.1, rfl, rfl, h.1.1.2⟩, ?_⟩
  have hb : p.recordBad (cmd0 op body) = p.recordBad (cmdS op body) := by
    unfold Pkg.recordBad
    rw [h4, h.1.2]
    simp only [cmd0, pad512, getD_zeros]
    rfl
  exact hb.trans h.2

theorem witness_CommandChecks : romRow .identify = some (1, false) ∧ romRow .loadPlan = some (0x10, true) ∧ base.host.taken = [] ∧
    (let p : Pkg := { base with power := { base.power with cmd := some (cmd0 0x80 []) } }
     p.mayRun (cmd0 0x10 []) = false) ∧
    base.mayRun (cmd0 0x9999 []) = true ∧ (cmd0 0x9999 []).opcode ∉ opcodes ∧ (cmd0 1 []).opcode ∈ opcodes ∧
    (going (cmd0 0x11 []) base).groupBusy = true ∧ base.groupBusy = false ∧
    base.recordBad (cmd0 1 (List.replicate 8 0#8 ++ [1#8])) = true := by decide +kernel

/-- A manifest of one shard of 64 bytes or more, for every rank, of this tier, to the slab of fen 0 at 0 or to address 0 (R376 to R378). -/
def manifest0 (tier len : Nat) : List Byte :=
  leBytes 4 0x31464D57 ++ leBytes 4 1 ++ leBytes 4 1 ++ leBytes 4 1 ++ leBytes 8 (2 ^ 30) ++ List.replicate 104 0#8 ++
  leBytes 4 0 ++ leBytes 2 0xFFFF ++ leBytes 2 tier ++ leBytes 4 9 ++ leBytes 4 (cdiv len mib) ++ leBytes 8 len ++ leBytes 8 0 ++
  leBytes 4 0 ++ leBytes 4 0xFFFFFFFF ++ List.replicate 56 0#8
def set0 (tier len : Nat) : WSet :=
  { WSet.init with state := 1, loadId := 7, manifest := manifest0 tier len, up := noPeer, down := noPeer, cmd := 1 }
def withSet (w : WSet) (p : Pkg) : Pkg := { going (cmd0 0x20 []) p with wgt := { p.wgt with sets := [(0, w)] } }
def chunkFlit (ty pl load sh ch : Nat) : List Byte :=
  mg0 (leBytes 1 ty ++ leBytes 1 pl ++ leBytes 2 0 ++ leBytes 4 load ++ leBytes 4 sh ++ leBytes 4 ch)
theorem witness_WeightChunks_flit :
    (let p := withSet (set0 1 161) (up0 id base)
     let y := flitPayload (chunkFlit 0x40 0 7 0 0)
     p.mgmtIn 0 0x40 (chunkFlit 0x40 0 7 0 0) ∧ p.wgt.asm_ = [] ∧ p.setOfLoad (leAt y 4 4) false = some 0 ∧ leAt y 8 4 < (p.wset 0).shards ∧
     leAt y 12 4 < (p.wset 0).chunks 0 ∧ cdiv (64 + (p.wset 0).chunkLen 0 0) 224 = 2 ∧ cdiv (64 + (set0 1 160).chunkLen 0 0) 224 = 1) ∧
    (up0 id base).setOfLoad 7 false = none := by
  unfold Pkg.mgmtIn Pkg.hearsCtl
  decide +kernel
/-- Free-running time. -/
def atRaw (ns : Nat) (p : Pkg) : Pkg := { p with bell := { p.bell with raw := ns * 2 ^ 32 } }
theorem witness_WeightChunks_late :
    (let a : ChunkAsm := { loadId := 7, shard := 0, chunk := 0, flits := [], last := 0 }
     let p := atRaw 2000000 { base with wgt := { base.wgt with asm_ := [a] } }
     p.wgt.asm_[0]? = some a ∧ a.last + 2000000 ≤ p.rawNs) := by decide +kernel

/-- A chunk of one byte 5, sealed under the all-zero key (R380). -/
def chunkHead (ch len : Nat) : List Byte :=
  leBytes 4 0x314B4357 ++ leBytes 4 1 ++ leBytes 4 0 ++ leBytes 4 ch ++ leBytes 4 9 ++ leBytes 4 len ++ leBytes 24 1
def chunk1 : ChunkIn :=
  { loadId := 7, bytes := chunkHead 1 1 ++ leBytes 16 5641056823199088525297718459507196763 ++ [0xA3#8], frame := none }
def key0 : KeySlot := { id := 9, key := List.replicate 32 0#8 }
def withChunk (keys : AMap KeySlot) : Pkg :=
  let p := withSet (set0 1 (mib + 1)) base
  { p with wgt := { p.wgt with ready := [chunk1], keys := keys } }
theorem witness_WeightChunks_auth :
    (let p := withChunk [(63, key0)]
     let x := chunk1
     p.wgt.ready[0]? = some x ∧ p.setOfLoad x.loadId x.frame.isSome = some 0 ∧
     List.find? (fun z => decide (z.2.id = leAt x.bytes 0x10 4)) p.wgt.keys = some (63, key0) ∧ (p.wset 0).headerOk x.bytes = true ∧
     leAt x.bytes 8 4 = 0 ∧ leAt x.bytes 0xC 4 = 1 ∧ (p.wset 0).held = [] ∧ (p.wset 0).keeps 0 = true ∧ 0 < (p.wset 0).chunks 0) ∧
    (let p := withChunk []
     ∀ z ∈ p.wgt.keys, z.2.id ≠ leAt chunk1.bytes 0x10 4) := by decide +kernel
theorem witness_WeightChunks_opens :
    gcmOpen key0.key (sliceB chunk1.bytes 0x18 12) (chunk1.bytes.take 0x30) (chunk1.bytes.drop 64) (sliceB chunk1.bytes 0x30 16) =
      some (List.replicate 1 5#8) := by decide +kernel

def out0 (sends : Nat) : ChunkOut := { shard := 0, chunk := 0, sends := sends, sentAt := 0, acked := false, resend := false, abandoned := false }
theorem witness_WeightChunks_resend :
    (let p := atRaw 50000000 (withSet { set0 1 64 with out := [out0 7], lastAuth := 0 } (up0 id base))
     (∀ k ∈ [1, 2, 3], p.mgmtIn 0 0x41 (chunkFlit 0x41 k 7 0 0) ∧ p.setOfLoad (leAt (flitPayload (chunkFlit 0x41 k 7 0 0)) 4 4) false = some 0 ∧
       leAt (flitPayload (chunkFlit 0x41 k 7 0 0)) 1 1 = k) ∧
     (p.wset 0).out = [out0 7] ∧ (out0 8).sends ≠ 0 ∧ (p.wset 0).state = 1 ∧ 0 < (p.wset 0).shards ∧ 0 ∉ (p.wset 0).checked ∧
     (out0 7).sentAt + 5000000 ≤ p.rawNs ∧ p.taking 0 = true ∧ (p.wset 0).lastAuth + 50000000 ≤ p.rawNs ∧
     0 ∈ (p.wset 0).expected ∧ 0 < (p.wset 0).chunks 0 ∧ (p.wset 0).held = []) := by
  unfold Pkg.mgmtIn Pkg.hearsCtl
  decide +kernel
theorem witness_WeightChunks_frames :
    (let p := stage 2 (withSet (set0 1 64) base)
     let p : Pkg := { p with wgt := { p.wgt with frames := Memory.write [] (63 * 0x101000) (leBytes 8 1 ++ leBytes 4 7) } }
     2 ≤ p.fget F.chipStage 0 ∧ p.power.state < 3 ∧ ofLe (p.wgt.frames.read (63 * 0x101000) 4) = 1 ∧
     (∀ j, j < 63 → ofLe (p.wgt.frames.read (j * 0x101000) 4) = 0) ∧
     (p.setOfLoad (ofLe (p.wgt.frames.read (63 * 0x101000 + 8) 4)) true).isSome = true) := by decide +kernel

/-- Reading an operand answers bytes of which `P` holds. -/
def readsB (p : Pkg) (a n : Nat) (P : List Byte → Bool) : Bool :=
  match p.input a n 1 with
  | .ok b => P b
  | .error _ => false
theorem reads_of_readsB {p : Pkg} {a n : Nat} {P : List Byte → Bool} (h : readsB p a n P = true) :
    ∃ b, p.input a n 1 = .ok b ∧ P b = true := by
  cases hi : p.input a n 1 with
  | ok b => exact ⟨b, rfl, by simpa only [readsB, hi] using h⟩
  | error e => simp only [readsB, hi, Bool.false_eq_true] at h
/-- Where every word is clean, reading leaves the package as it is. -/
theorem gets_of_readsB {p : Pkg} {a n : Nat} {P : List Byte → Bool} (h : readsB p a n P = true)
    (hw : p.oddWords (pkgCls a) (pkgAddr a) n = []) : ∃ b, p.getInput a n 1 = (p, .ok b) ∧ P b = true := by
  obtain ⟨b, hb, hp⟩ := reads_of_readsB h
  exact ⟨b, by simp only [Pkg.getInput, hb, Pkg.noteRead, hw, List.foldl_nil], hp⟩

def loadCmdAt (n : Nat) (dest : List Byte) : Cmd :=
  cmd0 0x20 (leBytes 4 n ++ leBytes 4 7 ++ leBytes 8 0 ++ leBytes 4 224 ++ leBytes 4 0xFFFFFFFF ++ dest)
def loadCmd : Cmd := loadCmdAt 0 []
/-- What the command reads, and the status of its checks. -/
def loadsB (p : Pkg) (P : Nat → WSet → Bool) : Bool :=
  readsB p (loadCmd.le 0x18 8) (loadCmd.le 0x20 4) fun m =>
    let c := loadCmd
    let w : WSet := { WSet.init with state := 1, loadId := c.le 0x14 4, wrank := c.le 0x12 2, manifest := m, up := c.le 0x24 2,
                                     down := c.le 0x26 2, dramDest := c.le 0x28 8, peatDest := c.le 0x30 8, stageAddr := c.le 0x38 8,
                                     stageBytes := c.le 0x40 8, lastAuth := p.rawNs, cmd := c.no }
    P (p.loadWeightsCheck 0 w (sliceB c.rec_ 0x48 48)) w
def loadPkg : Pkg :=
  { base with dram := { base.dram with mem := Memory.write [] 0 (manifest0 0 64) }, wgt := { base.wgt with keys := [(0, key0)] } }
theorem witness_WeightSets_load : (front loadCmd base).Clean 0x20 loadCmd [] ∧ loadCmd.loadWide = false ∧ loadCmd.loadAligned = true ∧
    loadsB base (fun st _ => decide (st = 0x0201)) = true ∧ (front loadCmd loadPkg).Clean 0x20 loadCmd [] ∧
    loadsB loadPkg (fun st w => decide (st = 0) && decide (0 < w.shards) && w.keeps 0) = true ∧ loadPkg.taking 0 = false := by
  repeat' first | exact clean_front (by decide +kernel) (by decide +kernel) | decide +kernel | constructor
theorem witness_WeightSets_load_reads :
    (∃ m, base.getInput (loadCmd.le 0x18 8) (loadCmd.le 0x20 4) 1 = (base, .ok m) ∧ true = true) ∧
    ∃ m, loadPkg.getInput (loadCmd.le 0x18 8) (loadCmd.le 0x20 4) 1 = (loadPkg, .ok m) ∧ true = true :=
  ⟨gets_of_readsB (by decide +kernel) (by decide +kernel), gets_of_readsB (by decide +kernel) (by decide +kernel)⟩
theorem witness_WeightSets_load_fields :
    (front (loadCmdAt 4 []) base).Clean 0x20 (loadCmdAt 4 []) [] ∧ (loadCmdAt 4 []).loadWide = true ∧ (loadCmdAt 3 []).loadWide = false ∧
    (front (loadCmdAt 3 [1#8]) base).Clean 0x20 (loadCmdAt 3 [1#8]) [] ∧ (loadCmdAt 3 [1#8]).loadWide = false ∧
    (loadCmdAt 3 [1#8]).loadAligned = false ∧ (loadCmdAt 3 [1#8]).le 0x24 2 = 0xFFFF ∧ (loadCmdAt 3 [1#8]).le 0x26 2 = 0xFFFF := by
  repeat' first | exact clean_front (by decide +kernel) (by decide +kernel) | decide +kernel | constructor
def switchCmd (n : Nat) : Cmd := cmd0 0x21 (List.replicate 8 0#8 ++ leBytes 8 n)
def switchAt (n : Nat) : Pkg :=
  let p := running base
  front (switchCmd n) { p with wgt := { p.wgt with sets := [(0, { set0 1 64 with state := 2 })] } }
theorem witness_WeightSets_switch_front : (switchAt 1050000).Clean 0x21 (switchCmd 1050000) [] :=
  clean_front (by decide +kernel) (by decide +kernel)
theorem witness_WeightSets_switch :
    (let p := switchAt 1050000
     (switchCmd 1050000).le 0x18 8 = 1050000 ∧ (p.wset 0).state = 2 ∧
     p.job.cur = some plan0 ∧ (p.wset 0).wrank = plan0.selfRank ∧ (p.wset 0).shards = 1 ∧ (p.wset 0).tier 0 ≠ 0 ∧ p.tb1Run = true ∧
     p.job.start ≤ 1050000 ∧ (1050000 - p.job.start) % max 1 p.stepTicks = 0 ∧ p.tb1 + 1050000 ≤ 1050000 ∧ p.wgt.pending = none) ∧
    (let p := switchAt 1047900
     (switchCmd 1047900).le 0x18 8 < p.tb1 + 1050000) := by decide +kernel
theorem witness_WeightSets_switched :
    (∀ k ∈ [2099, 2100],
      let p := atTick k (running { base with wgt := { base.wgt with pending := some (0, 2100, 1) } })
      p.on = true ∧ p.wgt.pending = some (0, 2100, 1) ∧ p.planRuns = true ∧ p.job.starts = [] ∧ p.refCount = k) := by decide +kernel
/-- The word at 8 of the stacked DRAM is not correctable. -/
def badWord8 (p : Pkg) : Pkg := { p with dram := { p.dram with raw := [(8, 3)] } }
theorem witness_WeightSets_fill_bad :
    (badWord8 base).badWords 0 0 64 = [8] ∧ (∀ z ∈ (badWord8 base).badWords 0 0 64, z % 8 = 0) ∧ base.badWords 0 0 64 = [] := by
  decide +kernel
theorem witness_WeightSets_fill :
    (let x : PlanInst := { planA with filled := false, wset := some 0 }
     let q := withSet (set0 0 64) base
     let p : Pkg := { q with job := { q.job with next := some x } }
     p.on = true ∧ p.job.next = some x ∧ x.arm.isSome = true ∧ p.planRuns = false ∧ (p.wset 0).shards = 1 ∧ (p.wset 0).tier 0 = 0 ∧
     (p.wset 0).keeps 0 = true ∧ x.fmap.find? ((p.wset 0).sh 0 7 1) = some 0 ∧ (p.wset 0).sh 0 0x20 4 % 8 = 0 ∧
     (p.wset 0).sh 0 0x10 8 % 8 = 0 ∧ (p.wset 0).sh 0 0x20 4 + (p.wset 0).sh 0 0x10 8 ≤ slabBytes ∧ p.goodCells 0 ∧
     (p.wset 0).addr 0 % 2 ^ 39 % 8 = 0) := by
  unfold Pkg.goodCells
  decide +kernel

/-! Plans and their start. -/

def jobP (g : Job → Job) (p : Pkg) : Pkg := { p with job := g p.job }
def loadPlanCmd (a : Nat) : Cmd := cmd0 0x10 (leBytes 8 a ++ leBytes 8 4)
theorem witness_PlanArming_load : (∀ a ∈ [0, 2 ^ 63], (front (loadPlanCmd a) base).Clean 0x10 (loadPlanCmd a) []) ∧
    (front (loadPlanCmd 0) base).groupBusy = false ∧ pkgCls ((loadPlanCmd (2 ^ 63)).le 0x10 8) ≠ 0 ∧ pkgCls ((loadPlanCmd 0).le 0x10 8) = 0 ∧
    (∃ b, base.getInput ((loadPlanCmd 0).le 0x10 8) ((loadPlanCmd 0).le 0x18 8) 1 = (base, .ok b) ∧
      decide (base.loadCheck b ≠ 0) = true) ∧ base.job.state < 3 ∧ (jobP (fun j => { j with state := 3 }) base).job.state = 3 := by
  refine ⟨?_, by decide +kernel, by decide +kernel, by decide +kernel, gets_of_readsB (by decide +kernel) (by decide +kernel),
    by decide +kernel, by decide +kernel⟩
  intro a ha
  simp only [List.mem_cons, List.not_mem_nil, or_false] at ha
  obtain rfl | rfl := ha
  · exact clean_front (by decide +kernel) (by decide +kernel)
  · exact clean_front (by decide +kernel) (by decide +kernel)

/-- An image of one fen with an empty program, for a step of 1,024 ticks: a refresh window for every bank of every stack (R38 to R40). -/
def image0 (hash : List Byte) : List Byte :=
  let row (t o n : Nat) : List Byte := leBytes 8 t ++ leBytes 8 o ++ leBytes 16 n
  leBytes 4 0x31495454 ++ leBytes 2 1 ++ leBytes 2 6 ++ leBytes 2 1 ++ [BitVec.ofNat 8 base.meshW, 8#8] ++ leBytes 2 1 ++ leBytes 2 1 ++
  leBytes 4 1024 ++ leBytes 4 31 ++ leBytes 40 1 ++ hash ++ List.replicate 144 0#8 ++
  padTo 256 (row 1 0x200 32 ++ row 2 0x300 0x48 ++ row 5 0x400 8 ++ row 6 0x500 52 ++ row 7 0x600 1032 ++ row 8 0xB00 48) ++
  padTo 256 [1#8] ++ padTo 256 (leBytes 4 0 ++ leBytes 4 8) ++ padTo 256 [] ++
  padTo 256 (leBytes 16 (nslot 1024) ++ leBytes 16 4) ++
  padTo 1280 (leBytes 8 128 ++ ((List.range 16).flatMap fun k => (List.range 8).flatMap fun s => leBytes 4 (40 * k) ++ leBytes 4 (s + 256 * k))) ++
  (leBytes 16 1 ++ leBytes 4 0 ++ leBytes 8 0 ++ leBytes 4 1 ++ leBytes 10 0 ++ [1#8, 1#8] ++ leBytes 4 0)
def goodImage : List Byte :=
  image0 (leBytes 48 16763583638614541530875669771638922137486151119018775812520235977287573548239376504231940635336931944355615223206264)
def imagePkg : Pkg := { base with dram := { base.dram with mem := Memory.write [] 0 goodImage } }
/-- LOAD_PLAN of an image that passes every check: the package reads it, and the checks answer 0. -/
theorem witness_PlanArming_image : imagePkg.input 0 goodImage.length 1 = .ok goodImage ∧ imagePkg.loadCheck goodImage = 0 := by
  have hl : goodImage.length = 2864 := by decide +kernel
  refine ⟨?_, by decide +kernel⟩
  have h1 : (nbits 0 62 44 ≠ 0 || pkgAddr 0 % 1 ≠ 0 || (2864 ≠ 0 && imagePkg.badRun (pkgCls 0) (pkgAddr 0) 2864)) = false := by decide +kernel
  have h2 : imagePkg.poisonRun (pkgCls 0) (pkgAddr 0) 2864 = false := by decide +kernel
  have h3 : imagePkg.memRead (pkgCls 0) (pkgAddr 0) 2864 = goodImage := by
    have hw : (inWpt (pkgAddr 0 % 2 ^ 36) || inWpt ((pkgAddr 0 + (2864 - 1)) % 2 ^ 36)) = false := by decide +kernel
    have hc : pkgCls 0 = 0 := by decide +kernel
    have ha : pkgAddr 0 % 2 ^ 39 = 0 := by decide +kernel
    have hm : imagePkg.dram.mem = Memory.write [] 0 goodImage := rfl
    rw [Pkg.memRead, if_pos hc, ha, hm, ← hl, Memory.read_write, hl, if_neg (by rw [hw]; exact Bool.false_ne_true)]
  rw [hl]
  unfold Pkg.input
  simp only [h1, h2, Pkg.memGet, ← h3]
  rfl

/-- A relocated plan whose image reaches over everything that ARM checks; its refresh windows cover every bank. -/
def manifestHash : List Byte := sha384 (manifest0 1 64)
def imgR : Image := { img0 with manifest := manifestHash, stepTicks := 1024 }
def tabR : PlanTables := { tab0 with refresh := (List.range 16).flatMap fun k => (List.range 8).map fun s => (40 * k, s, k) }
def planR : PlanInst := { plan0 with img := imgR, tab := tabR }
def relocCmd (mode : Nat) : Cmd := cmd0 0x11 (leBytes 2 0 ++ leBytes 2 mode ++ leBytes 4 0 ++ leBytes 8 0)
theorem witness_PlanArming_relocate :
    (∀ m ∈ [0, 1], (front (relocCmd m) (jobP (fun j => { j with image := some (img0, tab0), state := 1 }) base)).Clean 0x11 (relocCmd m) []) ∧
    (relocCmd 1).le 0x12 2 = 1 ∧ (relocCmd 1).le 0x10 2 < img0.rankCount ∧
    (∃ b, base.getInput ((relocCmd 1).le 0x18 8) (8 * img0.rankCount) 1 = (base, .ok b) ∧ true = true) ∧
    (∃ b, base.ppr.getInput ((relocCmd 1).le 0x18 8) (8 * img0.rankCount) 1 = (base.ppr, .ok b) ∧ true = true) ∧
    base.unmappedFens img0 = [] ∧ base.unmappedFens { img0 with fenset := [256] } ≠ [] ∧ base.latencyOk img0 tab0.portMask = true ∧
    relocsOk img0 = true ∧ (base.placeBases img0).isSome = true := by
  refine ⟨?_, by decide +kernel, by decide +kernel, gets_of_readsB (by decide +kernel) (by decide +kernel),
    gets_of_readsB (by decide +kernel) (by decide +kernel), by decide +kernel, by decide +kernel, by decide +kernel, by decide +kernel,
    by decide +kernel⟩
  intro a ha
  simp only [List.mem_cons, List.not_mem_nil, or_false] at ha
  obtain rfl | rfl := ha
  · exact clean_front (by decide +kernel) (by decide +kernel)
  · exact clean_front (by decide +kernel) (by decide +kernel)

/-- ARM of job 5: 1,024 batch slots at the most, home list at 2^30 of the DRAM class. -/
def armCmd (slots : Nat) : Cmd := cmd0 0x12 (leBytes 8 5 ++ List.replicate 16 0#8 ++ leBytes 2 slots ++ [1#8, 8#8] ++ leBytes 4 2 ++ leBytes 8 (2 ^ 30))
def armReadyPkg : Pkg :=
  let p := jobP (fun j => { j with state := 2, next := some planR }) (withSet { set0 1 64 with state := 2 } base)
  { p with bell := { p.bell with tb2 := { p.bell.tb2 with state := .locked } }, host := { p.host with running := [] } }
/-- ArmFit as a test. -/
def fitB (p : Pkg) (c : Cmd) (n : PlanInst) : Bool :=
  decide (c.le 0x38 2 = 0 ∧ c.le 0x10 8 ∉ p.liveJobs ∧ p.groupBusy = false ∧ p.job.state = 2 ∧ n.wset = none ∧ n.img.single = true ∧
    1 ≤ c.le 0x28 2 ∧ c.le 0x28 2 ≤ 1024 ∧ c.le 0x2B 1 ≤ 8) &&
  readsB p (c.le 0x30 8) (2 * c.le 0x28 2) fun h => (homeRanks h).all fun r => decide (r < n.img.rankCount)
theorem fit_of_fitB {p : Pkg} {c : Cmd} {n : PlanInst} (hn : p.job.next = some n) (h : fitB p c n = true) : ∃ b, p.ArmFit c b n := by
  rw [fitB, Bool.and_eq_true] at h
  obtain ⟨hops, job, busy, state, free, single, some_, most, spec⟩ := of_decide_eq_true h.1
  obtain ⟨home, hin, hranks⟩ := reads_of_readsB h.2
  exact ⟨home, hops, job, busy, state, hn, free, .inl single, some_, most, spec, hin, by simpa using hranks⟩
theorem witness_PlanArming_arm : (front (armCmd 1) armReadyPkg).Clean 0x12 (armCmd 1) [] ∧ (∃ h, (front (armCmd 1) armReadyPkg).ArmFit (armCmd 1) h planR) ∧
    armReadyPkg.training = none ∧ armReadyPkg.refreshOk imgR tabR.refresh = true ∧ armReadyPkg.tb2Ready = true ∧
    armReadyPkg.armSet planR = some 0 :=
  ⟨clean_front (by decide +kernel) (by decide +kernel), fit_of_fitB rfl (by decide +kernel), by decide +kernel, by decide +kernel,
    by decide +kernel, by decide +kernel⟩
theorem witness_PlanArming_again : (front (armCmd 1) (nextA base)).Clean 0x12 (armCmd 1) [] ∧ (armCmd 1).le 0x38 2 = 0 ∧
    (armCmd 1).le 0x10 8 ∈ (nextA base).liveJobs :=
  ⟨clean_front (by decide +kernel) (by decide +kernel), by decide +kernel, by decide +kernel⟩
def armFlit : List Byte := mg0 (leBytes 16 0x60 ++ leBytes 8 5 ++ List.replicate 16 0#8 ++ leBytes 2 1 ++ [1#8, 8#8] ++ leBytes 4 2 ++ leBytes 8 (2 ^ 30))
theorem witness_PlanArming_copy_flit : (up0 id armReadyPkg).mgmtIn 0 0x60 armFlit := by
  unfold Pkg.mgmtIn Pkg.hearsCtl
  decide +kernel
theorem witness_PlanArming_copy : ∃ h, (up0 id armReadyPkg).ArmFit
    { no := base.host.nextNo, path := .link, opcode := 0x0012, flags := 0, tag := leAt (flitPayload armFlit) 8 8,
      rec_ := armOfCopy (flitPayload armFlit), takenNs := base.rawNs, silent := false } h planR :=
  fit_of_fitB rfl (by decide +kernel)
theorem witness_PlanArming_wait :
    (let n : PlanInst := { planR with wset := some 0 }
     let p := atRaw 2000000000 (jobP (fun j => { j with state := 3, next := some n, arming := some (armCmd 1, []) }) base)
     p.on = true ∧ p.job.next = some n ∧ n.wset.isSome = true ∧ p.tb2Ready = false ∧ (armCmd 1).takenNs + 2000000000 ≤ p.rawNs) ∧
    armReadyPkg.tb2Ready = true ∧ base.rawNs < (armCmd 1).takenNs + 2000000000 := by decide +kernel

def startCmd (at_ : Nat) : Cmd := cmd0 0x13 (leBytes 8 at_)
def replayCmd (at_ first last : Nat) : Cmd :=
  cmd0 0x50 (leBytes 8 at_ ++ leBytes 8 first ++ leBytes 8 0 ++ leBytes 8 16 ++ leBytes 8 last ++ leBytes 4 0)
def armed (p : Pkg) : Pkg := jobP (fun j => { j with state := 4, next := some planA }) p
theorem witness_PlanStarts_start : (∀ at_ ∈ [2099999, 2100000], (front (startCmd at_) (armed base)).Clean 0x13 (startCmd at_) []) ∧
    (armed base).job.state = 4 ∧ (armed base).drive = false ∧ (armed base).bell.tb2.count + 2100000 = (startCmd 2100000).le 0x10 8 ∧
    base.job.state ≠ 4 := by
  refine ⟨?_, by decide +kernel, by decide +kernel, by decide +kernel, by decide +kernel⟩
  intro a ha
  simp only [List.mem_cons, List.not_mem_nil, or_false] at ha
  obtain rfl | rfl := ha
  · exact clean_front (by decide +kernel) (by decide +kernel)
  · exact clean_front (by decide +kernel) (by decide +kernel)
def scripted0 : Pkg := { armed base with dram := { base.dram with mem := Memory.write [] 0 (leBytes 16 0x31535052) } }
theorem witness_PlanStarts_replay : (∀ f ∈ [0, 1], (front (replayCmd 2100000 f 0) scripted0).Clean 0x50 (replayCmd 2100000 f 0) []) ∧
    scripted0.job.next = some planA ∧ scripted0.bell.tb2.count + 2100000 ≤ (replayCmd 2100000 0 0).le 0x10 8 ∧
    (∃ b, scripted0.getInput ((replayCmd 2100000 0 0).le 0x20 8) ((replayCmd 2100000 0 0).le 0x28 4) 1 = (scripted0, .ok b) ∧
      scriptOk b = true) ∧
    (∃ b, (armed base).getInput ((replayCmd 2100000 0 0).le 0x20 8) ((replayCmd 2100000 0 0).le 0x28 4) 1 = (armed base, .ok b) ∧
      (!scriptOk b) = true) ∧
    (replayCmd 2100000 0 0).le 0x18 8 ≤ (replayCmd 2100000 0 0).le 0x30 8 ∧
    (replayCmd 2100000 1 0).le 0x30 8 < (replayCmd 2100000 1 0).le 0x18 8 := by
  refine ⟨?_, by decide +kernel, by decide +kernel, gets_of_readsB (by decide +kernel) (by decide +kernel),
    gets_of_readsB (by decide +kernel) (by decide +kernel), by decide +kernel, by decide +kernel⟩
  intro a ha
  simp only [List.mem_cons, List.not_mem_nil, or_false] at ha
  obtain rfl | rfl := ha
  · exact clean_front (by decide +kernel) (by decide +kernel)
  · exact clean_front (by decide +kernel) (by decide +kernel)
/-- The handover to the armed plan stands at tick 10, TB2 is at `n`. -/
def due (n : Nat) (x : PlanInst) (p : Pkg) : Pkg :=
  let q := jobP (fun j => { j with state := 5, next := some x }) p
  { q with bell := { q.bell with handoverTick := some 10, tb2 := { q.bell.tb2 with count := n } } }
theorem witness_PlanStarts_due :
    (let p := (due 9 planA base).fset F.jobGuardGuardTicks 0 1
     p.on = true ∧ p.bell.handoverTick = some 10 ∧ p.job.state = 5 ∧ p.fget F.jobGuardGuardTicks 0 = 1 ∧ p.bell.tb2.count < 10 ∧
     10 ≤ p.bell.tb2.count + 1 ∧ p.care.everMsg = false) ∧
    (base.fset F.jobGuardGuardTicks 0 0).fget F.jobGuardGuardTicks 0 = 0 ∧
    (let p := (due 9 planA { base with care := { base.care with everMsg := true } }).fset F.careStatusMgUp 0 1
     p.mgUp ≠ 0 ∧ p.care.everMsg = true ∧ p.tb1 ≤ p.care.lastMsg) ∧
    (let p := due 10 planA base
     p.job.next = some planA ∧ 10 ≤ p.bell.tb2.count ∧ p.planRuns = false ∧ planA.placed = true ∧ planA.filled = true) ∧
    (due 10 planA (running base)).bell.tb2.count = 10 ∧
    (let n : PlanInst := { planA with placed := false, acceptHoles := false, img := { img0 with fenset := [256] } }
     let p := armed base
     let q := jobP (fun j => { j with next := some n }) p
     q.job.next = some n ∧ n.arm.isSome = true ∧ n.placed = false ∧ q.planRuns = false ∧ q.unmappedFens n.img ≠ [] ∧
     ({ n with acceptHoles := true } : PlanInst).acceptHoles = true) := by decide +kernel

def disarmCmd (t : Nat) : Cmd := cmd0 0x14 (leBytes 1 t)
def abortCmd : Cmd := cmd0 0x15 []
def shadowCmd (role port : Nat) : Cmd := cmd0 0x58 [BitVec.ofNat 8 role, BitVec.ofNat 8 port]
def rebaseCmd (b m : Nat) : Cmd := cmd0 0x60 [BitVec.ofNat 8 b, BitVec.ofNat 8 m]
theorem witness_PlanStops : (front (disarmCmd 1) (armed base)).Clean 0x14 (disarmCmd 1) [] ∧ (disarmCmd 1).le 0x10 1 = 1 ∧
    (armed base).job.state = 4 ∧ (armed base).drive = false ∧ (armed base).job.arming = none ∧ (armed base).dig.pendingRole ≠ 2 ∧
    (front (disarmCmd 2) (running base)).Clean 0x14 (disarmCmd 2) [] ∧ (disarmCmd 2).le 0x10 1 = 2 ∧ (running base).tb1Run = true ∧
    (running base).dig.pendingRole ≠ 1 ∧ 5 < (running base).job.state ∧ base.tb1Run = false ∧ base.job.state ≠ 5 ∧
    (front (disarmCmd 1) (due 9 planA base)).Clean 0x14 (disarmCmd 1) [] ∧ (due 9 planA base).bell.tb2.count < 10 ∧
    (front abortCmd (running base)).Clean 0x15 abortCmd [] ∧ (running base).fon F.fenMapMapped 0 = true ∧ base.fused 0 = false := by
  repeat' first | exact clean_front (by decide +kernel) (by decide +kernel) | decide +kernel | constructor
theorem witness_PlanStops_shadow : (front (shadowCmd 1 15) (running base)).Clean 0x58 (shadowCmd 1 15) [] ∧ (shadowCmd 1 15).le 0x10 1 = 1 ∧
    (shadowCmd 1 15).le 0x11 1 = 15 ∧ (running base).tb1Run = true ∧ (running base).dig.halted = false ∧
    (front (shadowCmd 2 0) armReadyPkg).Clean 0x58 (shadowCmd 2 0) [] ∧ (shadowCmd 2 0).le 0x10 1 = 2 ∧ armReadyPkg.drive = false ∧
    armReadyPkg.bell.tb2.state = .locked ∧ armReadyPkg.job.state ≠ 4 ∧ (front (cmd0 0x59 []) base).Clean 0x59 (cmd0 0x59 []) [] ∧
    base.dig.role ≠ 1 ∧ base.dig.pendingRole = 0 ∧ (base.fset F.bellCtrlDrive 0 1).drive = true := by
  repeat' first | exact clean_front (by decide +kernel) (by decide +kernel) | decide +kernel | constructor
theorem witness_PlanStops_rebase : (front (rebaseCmd 1 2) base).Clean 0x60 (rebaseCmd 1 2) [] ∧ (rebaseCmd 1 2).le 0x10 1 = 1 ∧
    (rebaseCmd 1 2).le 0x11 1 = 2 ∧ base.baseBusy false = false ∧ (running base).baseBusy false = true :=
  ⟨clean_front (by decide +kernel) (by decide +kernel), by decide +kernel, by decide +kernel, by decide +kernel, by decide +kernel⟩

/-! Other commands, power, host access, reset. -/

def sess0 : Sess :=
  { id := 1, idx := 0, mgmt := true, established := true, version := 3, hs := [], th := [], reqSecret := List.replicate 48 0#8,
    rspSecret := List.replicate 48 0#8, reqSeq := 0, rspSeq := 0, last := 0 }
def withSess (e : Sess) (p : Pkg) : Pkg := { p with spdm := { p.spdm with sessions := [e] } }
def keyCmd (slot : Nat) : Cmd := cmd0 0x40 (leBytes 4 slot ++ leBytes 4 9 ++ leBytes 4 1 ++ leBytes 4 0 ++ leBytes 8 64 ++ leBytes 4 64)
/-- A wrapped key in host memory at 64: nonce with the id 9, ciphertext, tag. -/
def wrapped0 : List Byte :=
  leBytes 12 1 ++ leBytes 4 9 ++ leBytes 32 29079299805319496664510253759497238380327840579617005417297685251358512656450 ++
  leBytes 16 295673317403235237323020208878628769444
def keyPkg : Pkg := withSess sess0 { base with host := { base.host with mem := Memory.write [] 64 wrapped0 } }
theorem witness_HostCommands_key : (front (keyCmd 63) keyPkg).Clean 0x40 (keyCmd 63) [] ∧ (keyCmd 63).le 0x14 4 = 9 ∧ (keyCmd 63).le 0x28 4 = 64 ∧
    base.spdm.sessions = [] ∧
    keyPkg.spdm.sessions.find? (fun e => e.established && decide (e.id = (keyCmd 63).le 0x18 4)) = some sess0 ∧
    (keyCmd 63).le 0x10 1 = 63 ∧ (keyCmd 64).le 0x10 1 = 64 ∧ keyPkg.keyBusy 63 = false ∧ keyPkg.wgt.keys = [] ∧ (keyCmd 63).le 0x20 8 % 64 = 0 ∧
    keyPkg.host.mem.read ((keyCmd 63).le 0x20 8) 64 = wrapped0 ∧ leAt wrapped0 12 4 = 9 := by
  repeat' first | exact clean_front (by decide +kernel) (by decide +kernel) | decide +kernel | constructor
theorem wrapKey : smKey sess0.version sess0.reqSecret (ascii "mladuth wkey") =
    leBytes 32 25291836339634655193797007681987322678559930948786341713207002508205059751577 := by decide +kernel
theorem witness_HostCommands_opens :
    gcmOpen (smKey sess0.version sess0.reqSecret (ascii "mladuth wkey")) (sliceB wrapped0 0 12) (sliceB wrapped0 0 16 ++ leBytes 1 63)
      (sliceB wrapped0 16 32) (sliceB wrapped0 48 16) = some (List.replicate 32 5#8) := by
  rw [wrapKey]
  decide +kernel

def idCmd (a : Nat) : Cmd := cmd0 0x01 (leBytes 8 a)
def logCmd (a : Nat) : Cmd := cmd0 0x71 (leBytes 8 0 ++ leBytes 8 a ++ leBytes 4 64)
def digCmd (a : Nat) : Cmd := cmd0 0x51 (leBytes 16 0 ++ leBytes 8 a ++ leBytes 4 1)
def perfCmd (page ctr fan v at_ : Nat) : Cmd :=
  cmd0 0x70 (leBytes 4 page ++ leBytes 1 ctr ++ leBytes 3 fan ++ leBytes 8 v ++ leBytes 8 at_)
theorem witness_HostCommands_reads : (front (idCmd 4096) base).Clean 1 (idCmd 4096) [] ∧ (idCmd 4096).le 0x10 8 % 4096 = 0 ∧
    (front (idCmd 4095) base).Clean 1 (idCmd 4095) [] ∧ (idCmd 4095).le 0x10 8 % 4096 ≠ 0 ∧
    (front (logCmd 64) base).Clean 0x71 (logCmd 64) [] ∧ (logCmd 64).le 0x18 8 % 64 = 0 ∧
    (front (logCmd 63) base).Clean 0x71 (logCmd 63) [] ∧ (front (digCmd 64) base).Clean 0x51 (digCmd 64) [] ∧
    (front (digCmd 63) base).Clean 0x51 (digCmd 63) [] ∧ (digCmd 63).le 0x20 8 % 64 ≠ 0 := by
  repeat' first | exact clean_front (by decide +kernel) (by decide +kernel) | decide +kernel | constructor
def pend0 (n : Nat) : PerfPend := { page := Blk.base .fen 0, ctr := n, ctrl := 1#64, tick := 5, cmd := 1 }
theorem witness_HostCommands_perf :
    (front (perfCmd (Blk.base .fen 0) 7 0 0x500 0) base).Clean 0x70 (perfCmd (Blk.base .fen 0) 7 0 0x500 0) [] ∧
    (perfCmd (Blk.base .fen 0) 7 0 0x500 0).le 0x14 1 = 7 ∧ (perfCmd (Blk.base .fen 0) 7 1 0x500 0).le 0x15 1 = 1 ∧
    (front (perfCmd (Blk.base .fen 0) 7 1 0x500 0) base).Clean 0x70 (perfCmd (Blk.base .fen 0) 7 1 0x500 0) [] ∧
    Blk.locate ((perfCmd (Blk.base .fen 0) 7 0 0x500 0).le 0x10 4) = some (.fen, 0, 0) ∧ Blk.locate (2 ^ 26) = none ∧
    base.absent .fen 0 = false ∧ perfListed .fen 0x500 = true ∧ perfListed .fen 0x503 = false ∧ base.perfPend = [] ∧
    (perfCmd 0 0 0 0 9).le 0x20 8 = 9 ∧ (atTick 10 base).tb1 = 10 ∧ (∃ y ∈ [pend0 7], y.page = Blk.base .fen 0 ∧ y.ctr = 7) := by
  repeat' first | exact clean_front (by decide +kernel) (by decide +kernel) | decide +kernel | constructor
theorem witness_HostCommands_apply :
    (∀ n ∈ [4, 5],
      let p := atTick n { base with perfPend := [pend0 7] }
      p.on = true ∧ p.perfPend[0]? = some (pend0 7) ∧ (pend0 7).ctr < 8 ∧ Blk.locate (pend0 7).page = some (.fen, 0, 0) ∧
      p.absent .fen 0 = false ∧ p.pendDue (pend0 7) = decide (n = 5)) := by decide +kernel

def putCmd (mode step gen : Nat) : Cmd :=
  cmd0 0x30 (leBytes 2 65535 ++ leBytes 2 mode ++ leBytes 4 gen ++ leBytes 8 0 ++ leBytes 8 0 ++ leBytes 8 step)
def retireCmd : Cmd := cmd0 0x31 (leBytes 2 65535)
def adapters (a b : Nat) (p : Pkg) : Pkg :=
  let x (st gen : Nat) : AdSlot := { st := st, gen := gen, addr := 0, len := 0, ref := 1 }
  { p with roll := { p.roll with adapters := [(65535, { AdEnt.init with s0 := x a 1, s1 := x b 2 })] } }
theorem witness_HostCommands_adapters :
    (front (putCmd 0 0 5) (adapters 1 0 base)).Clean 0x30 (putCmd 0 0 5) [] ∧ (putCmd 0 0 5).le 0x10 2 = 65535 ∧ (putCmd 0 0 5).le 0x12 1 = 0 ∧
    (putCmd 0 0 5).le 0x14 4 = 5 ∧ ((adapters 1 0 base).adapter 65535).s1.st = 0 ∧ ((adapters 1 0 base).adapter 65535).s0.gen ≠ 5 ∧
    ((adapters 1 2 base).adapter 65535).s0.st ≠ 0 ∧ ((adapters 1 2 base).adapter 65535).s1.st ≠ 3 ∧
    (front (putCmd 0 0 1) (adapters 1 0 base)).Clean 0x30 (putCmd 0 0 1) [] ∧ ((adapters 1 0 base).adapter 65535).s0.gen = (putCmd 0 0 1).le 0x14 4 ∧
    (front (putCmd 1 1 5) (running base)).Clean 0x30 (putCmd 1 1 5) [] ∧ (running base).planRuns = true ∧
    (putCmd 1 1 5).le 0x28 8 < (running base).stepOf (running base).refCount + 2 ∧
    (front retireCmd (adapters 1 0 base)).Clean 0x31 retireCmd [] ∧ ((adapters 1 0 base).adapter 65535).s0.st = 1 ∧
    (base.adapter 65535).s0.st ≠ 1 ∧ (base.adapter 65535).s1.st ≠ 1 := by
  repeat' first | exact clean_front (by decide +kernel) (by decide +kernel) | decide +kernel | constructor

/-- PARTITION_SET of port 0, on the host's path and on the Caretaker's. -/
def partCmd (path : CmdPath) (id fence : Nat) : Cmd :=
  { no := 1, path := path, opcode := 0x90, flags := 0, tag := 0,
    rec_ := leBytes 16 0x90 ++ leBytes 2 1 ++ [BitVec.ofNat 8 id, BitVec.ofNat 8 fence], takenNs := 0, silent := false }
def partCleanB (c : Cmd) (p : Pkg) : Bool := p.on && p.mayRun c && !p.recordBad c
theorem part_clean {c : Cmd} {p : Pkg} (ho : c.opcode = 0x90) (h : partCleanB c p = true) : (front c p).Clean 0x90 c [] := by
  simp only [partCleanB, Bool.and_eq_true, Bool.not_eq_true'] at h
  exact ⟨⟨h.1.1, rfl, ho, h.1.2⟩, h.2⟩
theorem witness_HostCommands_partition :
    (front (partCmd (.slot 0) 255 0) base).Front 0x90 (partCmd (.slot 0) 255 0) [] ∧
    (front (partCmd .care 255 0) base).Clean 0x90 (partCmd .care 255 0) [] ∧ (partCmd .care 255 0).path = .care ∧
    (partCmd .care 255 0).le 0x10 2 = 2 ^ (0 : Fin 16).val ∧ (partCmd .care 255 0).le 0x13 1 ≤ 1 ∧
    base.fget F.issynPartFence 0 = 1 ∧ (base.port 0).stag = [] ∧ (base.port 0).replay = [] ∧ (base.port 0).rx = [] ∧
    (front (partCmd .care 255 0) (up0 id base)).Clean 0x90 (partCmd .care 255 0) [] ∧ (up0 id base).fget F.issynPartFence 0 = 0 ∧
    (up0 id base).fget F.issynPartPartId 0 ≠ 255 :=
  ⟨(part_clean rfl (by decide +kernel)).1, part_clean rfl (by decide +kernel), rfl, by decide +kernel, by decide +kernel, by decide +kernel,
    by decide +kernel, by decide +kernel, by decide +kernel, part_clean rfl (by decide +kernel), by decide +kernel, by decide +kernel⟩

def powerCmd (t : Nat) : Cmd := cmd0 0x80 (leBytes 1 t)
def withPower (g : Power → Power) (p : Pkg) : Pkg := { p with power := g p.power }
theorem witness_PowerStates : (∀ n ∈ [0, 4], (front (powerCmd n) base).Clean 0x80 (powerCmd n) [] ∧ (powerCmd n).le 0x10 1 = n) ∧
    base.power.state = 0 ∧ base.power.cmd = none ∧ base.refuser 1 = none ∧ (running base).refuser 1 = some (2, 6) ∧ base.rollBusy = 0 ∧
    (front (powerCmd 1) (withPower (fun w => { w with state := 1 }) base)).Clean 0x80 (powerCmd 1) [] ∧
    (oneReq 3).rollBusy ≠ 0 := by
  refine ⟨?_, by decide +kernel, by decide +kernel, by decide +kernel, by decide +kernel, by decide +kernel,
    clean_front (by decide +kernel) (by decide +kernel), by decide +kernel⟩
  intro a ha
  simp only [List.mem_cons, List.not_mem_nil, or_false] at ha
  obtain rfl | rfl := ha
  · exact ⟨clean_front (by decide +kernel) (by decide +kernel), by decide +kernel⟩
  · exact ⟨clean_front (by decide +kernel) (by decide +kernel), by decide +kernel⟩
def entering (t : Nat) (k : Bool) : Pkg := withPower (fun w => { w with cmd := some (powerCmd t), target := t, committed := k }) base
theorem witness_PowerStates_entry : (entering 1 false).power.cmd = some (powerCmd 1) ∧ (entering 1 false).refuser 1 = none ∧
    (entering 1 false).power.committed = false ∧ (entering 4 true).power.target = 4 ∧ (entering 4 true).power.en = 15 ∧
    (entering 3 true).power.target < 4 ∧ (entering 2 false).dram.queue = [] ∧ (∀ d, d < 4 → ((entering 2 false).dredge d).phase = 0) ∧
    (∀ m ∈ (entering 2 false).mesh, m.reqs = []) ∧ ((entering 2 false).setDredge 3 { Dredge.init with phase := 4 }).dredge 3 = { Dredge.init with phase := 4 } ∧
    ({ entering 1 false with roll := (oneReq 3).roll } : Pkg).refuser 1 = some (1, 1) ∧
    (withPower (fun w => { w with state := 3, wakeHeld := true }) base).power.state ≤ 3 := by
  refine ⟨rfl, by decide +kernel, rfl, rfl, rfl, by decide +kernel, by decide +kernel, by decide +kernel, by decide +kernel,
    by decide +kernel, by decide +kernel, by decide +kernel⟩
/-- A request that is still in the mesh holds the entry into SLEEP. -/
theorem witness_PowerStates_mesh : (let p : Pkg := { entering 2 false with mesh := [{ mf (.fen 0) 0 0 with reqs := [dreq 0 true] }] }
    p.power.cmd = some (powerCmd 2) ∧ 2 ≤ p.power.target ∧ ∃ m ∈ p.mesh, m.reqs ≠ []) := by decide +kernel

theorem witness_PowerRails : base.on = true ∧ base.power.rising = true ∧ base.power.en = 15 ∧
    (withPower (fun w => { w with pg := 14 }) base).on = false ∧ base.power.en / 2 ^ 3 % 2 = 1 ∧
    (withPower (fun w => { w with rising := false }) base).power.rising = false ∧ (319 < 320 ∧ base.power.vaux = true ∧ base.power.en ≠ 0) ∧
    ¬ (320 < 320 ∧ base.power.vaux = true ∧ base.power.en ≠ 0) ∧ base.power.cmd = none ∧ base.power.state = 0 ∧
    (withPower (fun w => { w with state := 3 }) base).power.state ≤ 3 := by decide +kernel

theorem witness_RegisterAccess : base.on = true ∧ ¬ ((8 = 4 ∨ 8 = 8) ∧ 4 % 8 = 0) ∧
    (∀ pg ∈ [0, 1, 2, 3], Blk.locate (Blk.base .fen 287 + 0x1000 * pg + 0x108) = some (.fen, 287, 0x1000 * pg + 0x108)) ∧
    Blk.base .fen 287 % 8 = 0 ∧ msixAt (Blk.base .fen 287 + 0x108) = false ∧ pbaAt (Blk.base .fen 287 + 0x108) = false ∧
    base.host.d3hot = false ∧ base.power.state ≠ 3 ∧ base.absent .fen 0 = false ∧ ({ base with part := { base.part with fused := [(0, [8])] } } : Pkg).absent .fen 8 = true ∧
    plainReg .bell 0x108 = true ∧ (Blk.row? .bell 0x108).isSome = true ∧ base.planRuns = false ∧ base.job.arming = none ∧ base.job.next = none ∧
    (running base).planRuns = true ∧ Blk.locate (Blk.base .fen 0) = some (.fen, 0, 0) := by decide +kernel
theorem witness_RegisterAccess_marks :
    (let m : MarkOpen := { fen := 0, st := 0, start := 0, due := 5, fire := 0, pc := 0, opcode := 0, ep := 0, flags := 0, lag16 := 0, no := 0 }
     let p (n : Nat) : Pkg := atTick n (mapped { base with marks := [(0, { Mark.init with open_ := [m] })] })
     ((p 5).mark 0).open_[0]? = some m ∧ (p 4).markDue m = false ∧ (p 5).markDue m = true ∧ ((p 5).mark 0).lastRec ≠ some (p 5).refCount ∧
     ((p 5).mark 0).written < 4095) := by decide +kernel

def slotRec (p : Pkg) : Pkg := { p with host := { p.host with slotMem := Memory.write [] (512 * 7 + 0x1FC) (leBytes 4 1) } }
theorem witness_HostAccess :
    (let p := slotRec (stage 2 base)
     p.fget F.chipStage 0 = 2 ∧ p.power.state = 0 ∧ p.power.cmd = none ∧ p.roll.changes = [] ∧ p.host.careCpl = [] ∧ p.care.cmdQ = [] ∧
     leAt (p.host.slotMem.read (512 * 7) 512) 0x1FC 4 = 1 ∧ p.host.lastSeq.getD 7 0 = 0 ∧ p.slotBusy 7 = false ∧
     (∀ j, j < 7 → leAt (p.host.slotMem.read (512 * j) 512) 0x1FC 4 = 0)) ∧
    base.host.cplQ = [] ∧ base.roll.backlog = [] ∧ base.fget F.chipStage 0 < 2 ∧ (let p : Pkg := { stage 2 base with care := { base.care with cmdQ := [(1, [])] } }; p.care.cmdQ = [(1, [])]) ∧
    base.host.d3hot = false ∧ areaSize 1 < 2 ^ 30 - 1 + 2 ∧ 2 ^ 30 - 1 + 1 ≤ areaSize 1 ∧ 131071 + 1 ≤ areaSize 2 ∧ 4095 + 1 ≤ areaSize 3 ∧
    64 * 0x101000 - 1 + 1 ≤ areaSize 4 ∧ areaSize 5 < 0 + 1 ∧ base.host.linkGen ≠ 6 := by decide +kernel
/-- Every PEAT channel holds a module of 1 GiB. -/
def peats (p : Pkg) : Pkg :=
  (List.range 8).foldl (fun (p : Pkg) c => (p.fset (F.peatModCapGib.nth (c % 4)) (c / 4) 1).fset (F.peatModPresent.nth (c % 4)) (c / 4) 1) p
theorem witness_HostAccess_windows :
    (let p := (peats base).fset (F.hostMwinClass.nth 1) 0 1
     p.fget (F.hostMwinClass.nth 1) 0 = 1 ∧ p.badRun 1 0 1 = false ∧ p.badWrite 1 0 1 = false) ∧
    (let a := base.fget (F.hostMwinBase.nth 0) 0 / 2 ^ 30 * 2 ^ 30
     base.fget (F.hostMwinClass.nth 0) 0 = 0 ∧ base.badRun 0 a 1 = false ∧ base.badWrite 0 a 1 = false ∧ base.dram.raw = [] ∧
     inWpt ((a + 0) % 2 ^ 36) = false) ∧
    base.badRun 0 0xC00000000 1 = true ∧ base.badWrite 0 0xBC0000000 1 = true := by decide +kernel

/-- The word at `x` of a class cannot be corrected. -/
theorem witness_HostAccess_uncorrectable :
    (let q := peats base
     let p : Pkg := ({ q with dram := { q.dram with peatBad := [(0, 2)] } }).fset (F.hostMwinClass.nth 1) 0 1
     p.badRun 1 0 1 = false ∧ (0 % 64 = 0 ∧ 0 % 2 ^ 41 < 0 + 64 ∧ 0 < 0 % 2 ^ 41 + 1 ∧ p.dram.peatBad.getD 0 0 = 2) ∧
     p.oddWords 1 0 1 = [0]) ∧
    (let a := base.fget (F.hostMwinBase.nth 0) 0 / 2 ^ 30 * 2 ^ 30 + 8
     let p := badWord8 base
     p.badRun 0 a 1 = false ∧ inWpt ((a + 0) % 2 ^ 36) = false ∧ (8 % 8 = 0 ∧ a % 2 ^ 39 < 8 + 8 ∧ 8 < a % 2 ^ 39 + 1 ∧ p.dramWord 8 = .bad)) := by
  decide +kernel

theorem witness_Resets_cold : ({ base with part := { base.part with fused := [(0, [0])] } } : Pkg).fused (0 * 72 + 1) = false ∧
    (∀ i, i < 1 → ({ base with part := { base.part with fused := [(0, [0])] } } : Pkg).fused (0 * 72 + i) = true) ∧
    base.fused (3 * 72 + 0) = false := by decide +kernel
theorem witness_Resets_dredge : (∀ d, d < 4 → (base.dredge d).phase = 0) ∧ (1 ≤ 4 ∧ 7 < 8 ∧ 160 ≤ 160) ∧
    (base.setDredge 3 { Dredge.init with phase := 2, done := 160 }).dredge 3 = { Dredge.init with phase := 2, done := 160 } := by decide +kernel
theorem witness_Resets_stage : base.fget F.chipStage 0 = 0 ∧ base.stageReady 1 = true ∧
    (∀ n ∈ [6, 7, 14, 15], ∀ x ∈ base.care.flash.rmap ++ base.care.flash.ways, x.1 ≠ F.issynCtrlMedium.at_ n) := by decide +kernel
theorem witness_Resets : base.power.en = 15 ∧ base.power.vaux = true ∧ (withPower (fun w => { w with en := 7 }) base).power.en ≠ 15 ∧
    base.on = true ∧ base.fget F.chipStage 0 < 2 ∧ (∀ k ∈ [0, 1, 2, 3, 4, 5], (stage k base).fget F.chipStage 0 = k) ∧
    base.stageReady 1 = true ∧ (stage 5 base).stageReady 6 = false ∧ (stage 1 base).stageReady 2 = true ∧
    (let p := stage 2 (base.fset F.chipStageStacksFull 0 255)
     p.training = none ∧ p.stageReady 3 = true) ∧
    (let p := (stage 4 base).fset F.chipStageService 0 1
     p.fget F.chipStageService 0 = 1 ∧ p.planArmed = false) ∧
    (let p : Pkg := { stage 2 base with training := some 7 }
     p.training = some 7 ∧ p.job.arming = none) ∧
    base.fitted 7 = true ∧ (base.stack 7).up = true ∧ (base.fset (F.peatModPresent.nth 3) 1 1).fon (F.peatModPresent.nth 3) 1 = true ∧
    base.fon (F.peatModPresent.nth 3) 1 = false := by decide +kernel

/-! The Caretaker. -/

/-- A message of session 1 with TAG 100 + type, closed by its tag (R502). -/
def mcMsg (typ flags : Nat) (body : List Byte) (mac : Nat) : List Byte :=
  leBytes 2 0x4D43 ++ [1#8, BitVec.ofNat 8 typ] ++ leBytes 2 body.length ++ leBytes 2 flags ++ leBytes 8 (100 + typ) ++ leBytes 4 0 ++ leBytes 4 1 ++
  leBytes 8 0 ++ body ++ leBytes 16 mac
theorem cmKey : smKey 3 (List.replicate 48 0#8) (ascii "mladuth cm") =
    leBytes 32 81437436865771658808101378723643256917783999315641883951818787478150325451782 := by decide +kernel
/-- The chip is at stage 2 with session 1 and both management ports up. -/
def careP (p : Pkg) : Pkg := withSess sess0 ((stage 2 p).fset F.careStatusMgUp 0 3)
/-- msgIn as a test that takes the key as computed. -/
def inB (p : Pkg) (typ : Nat) (b : List Byte) (P : Msg → Bool) : Bool :=
  match Msg.parse b with
  | some m =>
    let n := b.length - 16
    decide ((p.on = true ∧ p.fget F.chipStage 0 ≠ 0 ∧ p.mgUp / 2 ^ 1 % 2 = 1 ∧ p.fwRuns = true ∧ p.host.careCpl = []) ∧ m.session = 1 ∧
      m.isAck = false ∧ m.typ = typ ∧ m.tag ∉ p.care.tags) &&
    (gcmOpen (leBytes 32 81437436865771658808101378723643256917783999315641883951818787478150325451782)
      (leBytes 4 m.session ++ leBytes 8 m.tag) (b.take n) [] (b.drop n)).isSome && P m
  | none => false
theorem in_of_inB {p : Pkg} {typ : Nat} {b : List Byte} {P : Msg → Bool} (hs : p.spdm.sessions = [sess0]) (h : inB p typ b P = true) :
    ∃ m, p.msgIn typ 1 b m ∧ P m = true := by
  cases hm : Msg.parse b with
  | none => simp only [inB, hm, Bool.false_eq_true] at h
  | some m =>
    rw [inB, hm, Bool.and_eq_true, Bool.and_eq_true] at h
    obtain ⟨⟨on, stage, up, runs, quiet⟩, session, plain, type, fresh⟩ := of_decide_eq_true h.1.1
    refine ⟨m, ⟨on, stage, fun _ => up, hm, plain, type, ?_, runs, fresh, quiet⟩, h.2⟩
    have hf : p.spdm.sessions.find? (fun s => s.mgmt && s.established && decide (s.id = m.session)) = some sess0 := by
      rw [hs, session]
      rfl
    simp only [Pkg.msgAuth, hf]
    rw [show smKey sess0.version sess0.reqSecret (ascii "mladuth cm") = _ from cmKey]
    exact h.1.2
theorem witness_CaretakerMessages_heartbeat : ∃ m, (careP base).msgIn 1 1 (mcMsg 1 0 [] 2464574859117668956143374208516713921) m ∧ true = true :=
  in_of_inB rfl (by decide +kernel)
theorem witness_CaretakerMessages_command : ∃ m, (careP base).msgIn 4 1 (mcMsg 4 1 (List.replicate 512 0#8) 232859652207109726394532599131989439221) m ∧
    decide (m.flags % 2 = 1 ∧ m.body.length = 512 ∧ (careP base).care.cmdQ = []) = true :=
  in_of_inB rfl (by decide +kernel)
theorem witness_CaretakerMessages_must : ∃ m, (careP base).msgIn 4 1 (mcMsg 4 0 [] 196784186070197927333043729468980086538) m ∧
    decide (m.flags % 2 = 0) = true :=
  in_of_inB rfl (by decide +kernel)
theorem witness_CaretakerMessages_throttle : ∃ m, (careP base).msgIn 8 1 (mcMsg 8 1 (leBytes 16 64) 296279860208315141510600108108130419694) m ∧
    decide (m.flags % 2 = 1 ∧ m.body.length = 16 ∧ leAt m.body 0 1 = 64 ∧ leAt m.body 8 8 = 0 ∧ (careP base).planRuns = false) = true :=
  in_of_inB rfl (by decide +kernel)
theorem witness_CaretakerMessages_time : ∃ m, (careP base).msgIn 9 1 (mcMsg 9 0 (leBytes 16 5) 318422837831556750125701937439975343997) m ∧
    decide (m.body.length = 16) = true :=
  in_of_inB rfl (by decide +kernel)
theorem witness_CaretakerMessages_record :
    ∃ m, (careP base).msgIn 10 1 (mcMsg 10 1 (leBytes 1 1 ++ leBytes 15 (287 * 256)) 250403278958231794985470394039264164993) m ∧
    decide (m.flags % 2 = 1 ∧ m.body.length = 16 ∧ leAt m.body 0 1 = 1 ∧ leAt m.body 2 2 = 287) = true :=
  in_of_inB rfl (by decide +kernel)
theorem witness_CaretakerMessages_write : ∃ m, (careP base).msgIn 11 1 (mcMsg 11 1 (leBytes 5 0) 332239607109169069501919909659364196012) m ∧
    decide (m.flags % 2 = 1 ∧ (careP base).onTrial = false ∧ m.body.length = 5) = true :=
  in_of_inB rfl (by decide +kernel)
/-- Both firmware slots hold the image of the manufacture. -/
def twoFw : Pkg := careP { base with care := { base.care with flash := { base.care.flash with slotB := base.care.flash.slotA } } }
theorem witness_CaretakerMessages_activate : (∃ m, twoFw.msgIn 12 1 (mcMsg 12 1 [] 143876101982284927725291932050266513182) m ∧
    decide (m.flags % 2 = 1) = true) ∧ twoFw.onTrial = false ∧ twoFw.fget F.careStatusSlot 0 = 0 ∧ (twoFw.care.flash.slot 1).boots twoFw.part = true ∧
    twoFw.fget F.chipStrapsBootMode 0 % 2 = 0 ∧ (base.care.flash.slot 1).boots { base.part with fwFuses := 64 } = false :=
  ⟨in_of_inB rfl (by decide +kernel), by decide +kernel, by decide +kernel, by decide +kernel, by decide +kernel, by decide +kernel⟩
theorem witness_CaretakerMessages_commit : ∃ m, ((careP base).fset F.careStatusTrial 0 1).msgIn 13 1 (mcMsg 13 1 [] 222860636543543239769744754385905639397) m ∧
    decide (m.flags % 2 = 1 ∧ ((careP base).fset F.careStatusTrial 0 1).onTrial = true) = true :=
  in_of_inB rfl (by decide +kernel)
theorem witness_CaretakerMessages_drop : msgRow 1 [] 1 = some (.heartbeat 1 [], false) ∧ Msg.parse [] = none ∧ base.fget F.chipStage 0 = 0 ∧
    (careP base).fget F.chipStage 0 ≠ 0 ∧ (careP base).mgUp / 2 ^ 1 % 2 = 1 := by
  refine ⟨rfl, by decide +kernel, by decide +kernel, by decide +kernel, by decide +kernel⟩
theorem witness_CaretakerMessages_ack :
    ∃ m, Msg.parse (mcMsg 1 2 [] 15221054547230330702759383383249313464) = some m ∧ m.isAck = true ∧
      (careP base).msgAuth m (mcMsg 1 2 [] 15221054547230330702759383383249313464) = true := by
  refine ⟨_, rfl, by decide +kernel, ?_⟩
  have hf (n : Nat) (h : n = 1) : (careP base).spdm.sessions.find? (fun s => s.mgmt && s.established && decide (s.id = n)) = some sess0 := by
    rw [h]
    rfl
  unfold Pkg.msgAuth
  rw [hf _ (by decide +kernel)]
  simp only
  rw [show smKey sess0.version sess0.reqSecret (ascii "mladuth cm") = _ from cmKey]
  decide +kernel
theorem witness_CaretakerMessages_carried :
    (∀ k ∈ [0x40, 0x41, 0x43, 0x50, 0x51, 0x60, 0x44], (up0 id base).mgmtIn 0 k (mg0 [BitVec.ofNat 8 k, 0#8, 0#8, 1#8])) := by
  unfold Pkg.mgmtIn Pkg.hearsCtl
  decide +kernel

def ev0 : Ev := { time := 0, block := 0, code := 1, info := 0, irq := true, lost := false }
def unack0 (n : Nat) : OutMsg :=
  { msg := { typ := 3, flags := 1, tag := 0, src := 0, reason := 0, session := 1, sent := 0, body := [] }, lastSent := 0, sends := n }
theorem witness_CaretakerOwn : base.fwRuns = false ∧ (stage 1 base).fwRuns = true ∧ base.evq = [] ∧
    (let p : Pkg := { stage 1 base with evq := [ev0] }
     p.evq = [ev0] ∧ ev0.irq = true) ∧
    (let p := atRaw 10000000000 { stage 1 base with care := { base.care with nextSeq := 1, flash := { base.care.flash with log := [] }, pageSince := 0 } }
     p.care.unflashed < p.care.nextSeq ∧ p.care.pageSince + 10000000000 ≤ p.rawNs) ∧
    base.care.nextSeq ≤ base.care.unflashed ∧
    (∀ k ∈ [8, 9],
      let p := atRaw 2000000 { base with care := { base.care with unacked := [unack0 k] } }
      p.care.unacked[0]? = some (unack0 k) ∧ (unack0 k).lastSent + 2000000 ≤ p.rawNs) ∧
    base.rawNs < (unack0 8).lastSent + 2000000 ∧
    (let p := atRaw 600000000000 (base.fset F.careStatusTrial 0 1)
     p.onTrial = true ∧ p.care.trialStart + 600000000000 ≤ p.rawNs) ∧
    base.onTrial = false ∧ base.fget F.chipStage 0 = 0 ∧ (careP base).mgUp / 2 ^ 1 % 2 = 1 ∧ (stage 1 base).mgUp / 2 ^ 1 % 2 = 0 := by decide +kernel
theorem witness_CaretakerOwn_sensors :
    (let thr : Int := base.fget F.careThermCfgThrottleC 0
     (hottest [(343, 0)]).1 ≤ 16 * thr ∧ 16 * thr < (hottest [(0, 0x7FFF)]).1 ∧ base.care.droopSince = [] ∧ base.care.asked = false) := by
  decide +kernel

/-! The Bursar. -/

def bur (g : Bursar → Bursar) : Bursar := g State.reset.bursar
theorem witness_BursarRecords : State.reset.bursar.powered = true ∧ (bur fun b => { b with powered := false }).powered = false ∧
    bursarCmd (.tagInvalid []) = true ∧ base.on = true ∧ (withPower (fun w => { w with pg := 0 }) base).on = false ∧
    goodFrame (base.tagFrame ^^^ 1) = none ∧
    (let b := bur fun b => { b with tb3 := 1000000, binPart := some b.part }
     b.binAt + 1000000 ≤ b.tb3 ∧ ¬ (b.binAt % 60000000000 = 0 ∧ b.since < b.binAt) ∧ b.binPart = some b.part) ∧
    (let b := bur fun b => { b with tb3 := 1000000, binPart := some 255 }
     255 ≠ b.part ∧ b.binPart = some 255) ∧
    (let b := bur fun b => { b with tb3 := 60001000000, binAt := 60000000000, since := 0, binPart := some b.part }
     b.binAt + 1000000 ≤ b.tb3 ∧ (b.binAt % 60000000000 = 0 ∧ b.since < b.binAt) ∧ b.binPart = some b.part) ∧
    (let b := State.reset.bursar
     ¬ b.binAt + 1000000 ≤ b.tb3) := by decide +kernel
theorem witness_BursarAccess : State.reset.bursar.powered = true ∧ ¬ (State.reset.bursar.binAt % 60000000000 = 0 ∧
      State.reset.bursar.since < State.reset.bursar.binAt) ∧ State.reset.bursar.binPart = none ∧
    (bur fun b => { b with sealOpen := true }).sealOpen = true ∧ State.reset.bursar.calFuses.length < 16 ∧ 16 ≤ (List.replicate 16 0).length ∧
    95 + [1#8].length ≤ 96 ∧ 96 < 96 + [1#8].length ∧ base.on = true ∧
    (let p := atRaw 10000000 (base.fset F.brsmStatusStale 0 0)
     p.fget F.brsmStatusStale 0 = 0 ∧ p.mirrorAt + 10000000 ≤ p.rawNs) ∧
    (base.fset F.brsmStatusStale 0 1).fget F.brsmStatusStale 0 = 1 := by decide +kernel

/-! SPDM. -/

/-- The management connection is at a phase, at version 1.3. -/
def atPhase (n : Nat) (p : Pkg) : Pkg :=
  let q := (stage 1 p).fset F.careStatusMgUp 0 1
  { q with spdm := { q.spdm with certOk := true, conns := [(1, { Conn.init with version := 3, phase := n })] } }
/-- A request of version 1.3. -/
def req (code p1 p2 : Nat) (tail : List Byte) : List Byte := [0x13#8, BitVec.ofNat 8 code, BitVec.ofNat 8 p1, BitVec.ofNat 8 p2] ++ tail
/-- spdmPlain as a test, at version 1.3. -/
def plainB (p : Pkg) (code phase : Nat) (b : List Byte) : Bool :=
  decide (p.on = true ∧ p.spdmUp true = true ∧ 4 ≤ b.length ∧ rqCode b = code ∧ phase ≤ (p.conn true).phase ∧
    rqVer b = 0x10 + (p.conn true).version)
theorem plain_of_plainB {p : Pkg} {code phase : Nat} {b : List Byte} (h : plainB p code phase b = true) : p.spdmPlain true code phase b :=
  have ⟨on, up, long, isCode, inTurn, version⟩ := of_decide_eq_true h
  ⟨on, up, long, isCode, inTurn, fun _ => version⟩
theorem witness_SpdmResponder_plain :
    ([(0x84, 0), (0xE1, 1), (0xE3, 2), (0x81, 3), (0x82, 3), (0x83, 3), (0xE0, 3)].all
      fun x => plainB (atPhase x.2 base) x.1 x.2 (req x.1 0 0 [])) = true ∧
    plainB (atPhase 3 base) 0xE4 3 (req 0xE4 0 0 (List.replicate 134 0#8)) = true := by decide +kernel
theorem witness_SpdmResponder : (atPhase 3 base).spdmPlain true 0x81 3 (req 0x81 0 0 []) ∧
    spdmRow (.getDigests true false []) = some (0x81, 3, true, false, []) := ⟨plain_of_plainB (by decide +kernel), rfl⟩
theorem witness_SpdmResponder_turn : base.spdmUp true = false ∧ (atPhase 2 base).spdmUp true = true ∧
    ((atPhase 2 base).conn true).phase < 3 ∧ rqVer (req 0 0 0 []) ≠ 0x12 ∧ rqVer (req 0 0 0 []) = 0x13 ∧ rqVer [0x11#8] ≠ 0x13 ∧
    rqP2 (req 0xE0 0 6 []) = 6 ∧ (atPhase 3 base).spdm.sessions = [] ∧
    (let b := req 0xE3 0 0 (List.replicate 4 0#8 ++ leBytes 4 0x80 ++ leBytes 4 2)
     leAt b 8 4 / 0x80 % 2 = 1 ∧ leAt b 12 4 / 2 % 2 = 1) ∧ leAt (req 0xE3 0 0 []) 8 4 / 0x80 % 2 = 0 := by decide +kernel
theorem witness_SpdmResponder_chain : leAt (req 0x82 0 0 []) 4 2 < (atPhase 3 base).chain.length ∧ (atPhase 3 base).spdm.certOk = true := by
  have h : leAt (req 0x82 0 0 []) 4 2 = 0 := by decide +kernel
  refine ⟨?_, rfl⟩
  rw [h]
  simp only [Pkg.chain, leBytes, List.length_append, List.length_cons]
  omega
theorem witness_SpdmResponder_full :
    (∀ i, i < 8 → ∃ e ∈ (List.range 8).map (fun i => { sess0 with idx := i }), e.idx = i) := by decide +kernel
theorem witness_SpdmResponder_timeout :
    (let p := atRaw 10000000000 (withSess sess0 base)
     p.spdm.sessions[0]? = some sess0 ∧ sess0.last + 10000000000 ≤ p.rawNs) ∧ base.rawNs < sess0.last + 10000000000 := by decide +kernel

theorem recKey0 : recKey 3 (List.replicate 48 0#8) =
    leBytes 32 109486705764826334554023710580763827552646641516625854655370690933753133176775 := by decide +kernel
theorem recNonce0 : recNonce 3 (List.replicate 48 0#8) 0 = leBytes 12 66260854545565290251494046486 := by decide +kernel
/-- A record of session 1 with this length and this content under its tag (R547). -/
def rec1 (n v : Nat) : List Byte := leBytes 4 1 ++ leBytes 2 n ++ leBytes n v
/-- The session's requester direction opens a record to the request `b`. -/
def opensB (msg b : List Byte) : Bool :=
  let n := leAt msg 4 2
  decide (leAt msg 0 4 = 1 ∧ (decide (n < 18) || decide (msg.length ≠ n + 6)) = false) &&
  match gcmOpen (leBytes 32 109486705764826334554023710580763827552646641516625854655370690933753133176775)
      (leBytes 12 66260854545565290251494046486) (msg.take 6) (sliceB msg 6 (n - 16)) (sliceB msg (n - 10) 16) with
  | some x => decide (leAt x 0 2 + 2 ≤ x.length) && decide (sliceB x 2 (leAt x 0 2) = b)
  | none => false
theorem open_of_opensB {est : Bool} {msg b : List Byte} (h : opensB msg b = true) :
    (withSess { sess0 with established := est } (atPhase 3 base)).openReq true true msg = some (some { sess0 with established := est }, b) := by
  rw [opensB, Bool.and_eq_true] at h
  have ⟨isOne, fits⟩ := of_decide_eq_true h.1
  have hf : (withSess { sess0 with established := est } (atPhase 3 base)).spdm.sessions.find?
      (fun s => decide (s.id = leAt msg 0 4) && s.mgmt == true) = some { sess0 with established := est } := by
    rw [isOne]
    rfl
  unfold Pkg.openReq
  rw [if_pos rfl, hf]
  simp only [sess0, recKey0, recNonce0]
  rw [if_neg (by rw [fits]; exact Bool.false_ne_true)]
  cases hx : gcmOpen (leBytes 32 109486705764826334554023710580763827552646641516625854655370690933753133176775)
      (leBytes 12 66260854545565290251494046486) (msg.take 6) (sliceB msg 6 (leAt msg 4 2 - 16)) (sliceB msg (leAt msg 4 2 - 10) 16) with
  | none => simp [hx] at h
  | some x =>
    have ⟨inside, same⟩ : leAt x 0 2 + 2 ≤ x.length ∧ sliceB x 2 (leAt x 0 2) = b := by simpa [hx] using h.2
    simp only [if_pos inside, same]
theorem witness_SpdmResponder_sealed :
    (withSess sess0 (atPhase 3 base)).spdmSealed true 0xE8 (rec1 22 33957755400455375900902023107296808984592981456662420) sess0 (req 0xE8 0 0 []) ∧
    (withSess sess0 (atPhase 3 base)).spdmSealed true 0xE9 (rec1 22 11593484328591454567453507416699168337075836252401556) sess0 (req 0xE9 1 0 []) ∧
    (withSess sess0 (atPhase 3 base)).spdmSealed true 0xE9 (rec1 22 38077103722120970264118238162579975827528184637763476) sess0 (req 0xE9 2 0 []) ∧
    (withSess sess0 (atPhase 3 base)).spdmSealed true 0xE9 (rec1 22 28742243664121243382959870149196714041663986416562068) sess0 (req 0xE9 3 0 []) ∧
    (withSess sess0 (atPhase 3 base)).spdmSealed true 0xEC (rec1 22 89197697822393939341122339824139635845092823211782036) sess0 (req 0xEC 0 0 []) := by
  have a : (withSess sess0 (atPhase 3 base)).on = true := by decide +kernel
  have c : (withSess sess0 (atPhase 3 base)).spdmUp true = true := by decide +kernel
  have d : 3 ≤ ((withSess sess0 (atPhase 3 base)).conn true).phase := by decide +kernel
  have e : rqVer (req 0 0 0 []) = 0x10 + ((withSess sess0 (atPhase 3 base)).conn true).version := by decide +kernel
  have f : ((withSess sess0 (atPhase 3 base)).spdm.sessions.map Sess.id).Nodup := by decide +kernel
  refine ⟨⟨a, c, open_of_opensB (est := true) ?_, by decide, by decide, d, e, f⟩, ⟨a, c, open_of_opensB (est := true) ?_, by decide, by decide, d, e, f⟩,
    ⟨a, c, open_of_opensB (est := true) ?_, by decide, by decide, d, e, f⟩, ⟨a, c, open_of_opensB (est := true) ?_, by decide, by decide, d, e, f⟩,
    ⟨a, c, open_of_opensB (est := true) ?_, by decide, by decide, d, e, f⟩⟩
  all_goals decide +kernel
/-- FINISH with the HMAC of the handshake (R545). -/
def finish0 : List Byte := req 0xE5 0 0 (leBytes 48 10748117745905269018712260987832195512729102645177511565820374970386348198276420457700577469990216949160088050693752)
theorem witness_SpdmResponder_finish :
    (withSess { sess0 with established := false } (atPhase 3 base)).openReq true true (rec1 70
        2260465328356179081048587565687353976212677325552854848915371355831979741087737696100121257932650507956873508007554185908898507115990374834801067924614021049279986085796) =
      some (some { sess0 with established := false }, finish0) ∧
    sliceB finish0 4 48 = hmac384 (finishedKey sess0.version sess0.reqSecret) (sha384 (sess0.th ++ finish0.take 4)) :=
  ⟨open_of_opensB (by decide +kernel), by decide +kernel⟩

/-- The evidence is whole at reset, so that the invariant has a state to start from, and a step from it exists. -/
theorem witness_BursarEvidence : State.reset.bursar.Whole ∧ ∃ t, step State.reset = .next t := by
  refine ⟨⟨by decide +kernel, by decide +kernel, by decide +kernel, ⟨[], rfl, by simp, by simp⟩, by decide +kernel, by decide +kernel, by decide +kernel,
    by decide +kernel⟩, ⟨_, rfl⟩⟩

/-! The ciphers and hashes, against the vectors that NIST publishes with them. -/

/-- Every entry of the table is the S-box of its byte. -/
theorem test_sbox : (List.range 256).all (fun a => decide (sub a = sboxOf a)) = true := by decide +kernel
/-- FIPS 197, C.3. -/
theorem test_aes256 : natBe (aesBlock (aesKeys (List.range 32)) ((List.range 16).map (17 * ·))) = 0x8EA2B7CA516745BFEAFC49904B496089 := by
  decide +kernel
/-- SP 800-38D, AES-256 with no plaintext. -/
theorem test_gcm : (gcmSeal (List.replicate 32 0#8) (List.replicate 12 0#8) [] []).2 = beBytes 16 0x530F8AFBC74536B9A963B4F1C4CB738B := by
  decide +kernel
/-- FIPS 180-4, "abc". -/
theorem test_sha384 : sha384 [97#8, 98#8, 99#8] =
    beBytes 48 0xCB00753F45A35E8BB5A03D699AC65007272C32AB0EDED1631A8B605A43FF5BED8086072BA1E7CC2358BAECA134C825A7 := by decide +kernel
theorem test_sha256 : sha256 [97#8, 98#8, 99#8] =
    beBytes 32 0xBA7816BF8F01CFEA414140DE5DAE2223B00361A396177A9CB410FF61F20015AD := by decide +kernel

end Sys2Proof.Tests
end

namespace Sys2Proof.Machine
open Sys2Proof

/-! Which registers a write, an event of the log and a counter leave as they are. -/

theorem AMap.find?_set_other {α : Type} [DecidableEq α] (d : α) (m : AMap α) {i j : Nat} (v : α) (h : j ≠ i) :
    AMap.find? (AMap.set d m i v) j = AMap.find? m j := by
  unfold AMap.set
  split
  · exact AMap.find?_erase_other m h
  · exact AMap.find?_put_other m v h

/-- Pages are 0x4000 bytes (R567). -/
theorem Blk.base_mod (b : Blk) (i : Nat) : b.base i % 0x4000 = 0 := by
  cases b <;> simp only [Blk.base] <;> omega

/-- The register at BAR0 offset `a` is listed in `q` as in `p`. -/
def Pkg.KeepsReg (a : Nat) (p q : Pkg) : Prop := AMap.find? q.regs a = AMap.find? p.regs a

section
variable {a : Nat} {p q r : Pkg} {b : Blk} {i off : Nat}

theorem Pkg.KeepsReg.refl (a : Nat) (p : Pkg) : p.KeepsReg a p := rfl
theorem Pkg.KeepsReg.trans (h : Pkg.KeepsReg a p q) (g : Pkg.KeepsReg a q r) : Pkg.KeepsReg a p r := Eq.trans g h
theorem Pkg.KeepsReg.reg (h : Pkg.KeepsReg (b.base i + off) p q) : q.reg b i off = p.reg b i off := by
  simp only [Pkg.reg, AMap.getD, show AMap.find? q.regs _ = _ from h]
theorem Pkg.KeepsReg.fget {f : Fld} (h : Pkg.KeepsReg (f.at_ i) p q) : q.fget f i = p.fget f i := by
  simp only [Pkg.fget, Pkg.KeepsReg.reg h]

theorem Pkg.keepsReg_setReg (p : Pkg) (w : W64) (h : a ≠ b.base i + off) : p.KeepsReg a (p.setReg b i off w) :=
  AMap.find?_set_other _ _ _ h
theorem Pkg.keepsReg_fset (p : Pkg) {f : Fld} (v : Nat) (h : a ≠ f.at_ i) : p.KeepsReg a (p.fset f i v) :=
  AMap.find?_set_other _ _ _ h
theorem Pkg.keepsReg_fadd (p : Pkg) {f : Fld} (n : Nat) (h : a ≠ f.at_ i) : p.KeepsReg a (p.fadd f i n) := by
  unfold Pkg.fadd
  split
  · exact .refl a p
  · exact AMap.find?_set_other _ _ _ h

theorem Pkg.raise_regs (p : Pkg) (v : Nat) : (p.raise v).regs = p.regs := by unfold Pkg.raise; split <;> rfl
theorem Pkg.irqUpdate_regs (p : Pkg) (b : Blk) (i : Nat) : (p.irqUpdate b i).regs = p.regs := by
  unfold Pkg.irqUpdate
  dsimp only
  split
  · split
    · exact Pkg.raise_regs _ _
    · rfl
  · split <;> rfl
theorem Pkg.keepsReg_intRaw (p : Pkg) (k : Nat) (h : a ≠ b.base i + 0x020) : p.KeepsReg a (p.intRaw b i k) :=
  (congrArg (AMap.find? · a) (Pkg.irqUpdate_regs _ b i)).trans (Pkg.keepsReg_setReg _ _ h)

/-- Offsets in a page of INT_RAW and of the performance counters with their controls (R529, R564). -/
def countOff (a : Nat) : Prop := a % 0x4000 = 0x020 ∨ 0x080 ≤ a % 0x4000 ∧ a % 0x4000 < 0x100

/-- Bits of INT_RAW have been set and counters of page `i` of block `b` have counted: no event is entered for it, and a set
INT_RAW.ANY stays. -/
structure Pkg.Counted (b : Blk) (i : Nat) (p q : Pkg) : Prop where
  evq : q.evq = p.evq
  evLost : q.evLost = p.evLost
  regs : ∀ a, ¬ countOff a → p.KeepsReg a q
  any : bit (p.reg b i 0x020) 0 = true → bit (q.reg b i 0x020) 0 = true

theorem Pkg.Counted.refl (b : Blk) (i : Nat) (p : Pkg) : Pkg.Counted b i p p := ⟨rfl, rfl, fun _ _ => rfl, id⟩
theorem Pkg.Counted.trans (h : Pkg.Counted b i p q) (g : Pkg.Counted b i q r) : Pkg.Counted b i p r :=
  ⟨g.evq.trans h.evq, g.evLost.trans h.evLost, fun a ha => (h.regs a ha).trans (g.regs a ha), g.any ∘ h.any⟩

theorem Pkg.irqUpdate_queue (p : Pkg) (b : Blk) (i : Nat) :
    (p.irqUpdate b i).evq = p.evq ∧ (p.irqUpdate b i).evLost = p.evLost := by
  have raised (p : Pkg) (v : Nat) : (p.raise v).evq = p.evq ∧ (p.raise v).evLost = p.evLost := by
    unfold Pkg.raise; split <;> exact ⟨rfl, rfl⟩
  unfold Pkg.irqUpdate
  dsimp only
  split
  · split
    · exact raised _ _
    · exact ⟨rfl, rfl⟩
  · split <;> exact ⟨rfl, rfl⟩

theorem Pkg.intRaw_reg (p : Pkg) (b : Blk) (i k : Nat) :
    (p.intRaw b i k).reg b i 0x020 = p.reg b i 0x020 ||| BitVec.ofNat 64 (2 ^ k) := by
  have same (p : Pkg) : (p.irqUpdate b i).reg b i 0x020 = p.reg b i 0x020 :=
    Pkg.KeepsReg.reg (congrArg (AMap.find? · (b.base i + 0x020)) (Pkg.irqUpdate_regs p b i))
  unfold Pkg.intRaw
  rw [same, Pkg.reg_setReg_same]

theorem Pkg.intRaw_counted (p : Pkg) (b : Blk) (i k : Nat) : Pkg.Counted b i p (p.intRaw b i k) where
  evq := (Pkg.irqUpdate_queue _ b i).1
  evLost := (Pkg.irqUpdate_queue _ b i).2
  regs a h := Pkg.keepsReg_intRaw p k fun e => h (.inl (by have := Blk.base_mod b i; omega))
  any h := by simp_all [Pkg.intRaw_reg, bit]

theorem Pkg.counterWrite_counted (p : Pkg) (b : Blk) (i : Nat) (w : W64) (lo : 0x080 ≤ off) (hi : off < 0x100) :
    Pkg.Counted b i p (p.setReg b i off w) where
  evq := rfl
  evLost := rfl
  regs a h := Pkg.keepsReg_setReg p w fun e => h (.inr (by have := Blk.base_mod b i; omega))
  any h := by rwa [Pkg.reg_setReg_other _ _ _ _ _ _ _ _ (by omega)]

/-- All that one counter can do: nothing, count, or wrap with or without an interrupt (R531). -/
theorem Pkg.perfAt_cases (b : Blk) (i code add : Nat) (x : Option Attr) (s : Pkg × Bool) (n : Nat) :
    (Pkg.perfAt b i code add x s n).1 = s.1 ∨
    (∃ v, (Pkg.perfAt b i code add x s n).1 = s.1.setReg b i (0x080 + 8 * n) v) ∨
    (∃ v w, (Pkg.perfAt b i code add x s n).1 = (s.1.setReg b i (0x080 + 8 * n) v).setReg b i (0x0C0 + 8 * n) w) ∨
    ∃ v w, (Pkg.perfAt b i code add x s n).1 =
      ((s.1.setReg b i (0x080 + 8 * n) v).setReg b i (0x0C0 + 8 * n) w).intRaw b i (16 + n) := by
  unfold Pkg.perfAt
  extract_lets p ctl chained k
  by_cases hk : k = 0
  · left; rw [if_pos hk]
  · simp only [if_neg hk]
    split
    · exact .inr (.inl ⟨_, rfl⟩)
    · dsimp only
      split
      · exact .inr (.inr (.inr ⟨_, _, rfl⟩))
      · exact .inr (.inr (.inl ⟨_, _, rfl⟩))

theorem Pkg.perfAt_counted (b : Blk) (i code add : Nat) (x : Option Attr) (s : Pkg × Bool) {n : Nat} (hn : n < 8) :
    Pkg.Counted b i s.1 (Pkg.perfAt b i code add x s n).1 := by
  have count (v : W64) := Pkg.counterWrite_counted s.1 b i (off := 0x080 + 8 * n) v (by omega) (by omega)
  have ctl (p : Pkg) (w : W64) := Pkg.counterWrite_counted p b i (off := 0x0C0 + 8 * n) w (by omega) (by omega)
  obtain e | ⟨v, e⟩ | ⟨v, w, e⟩ | ⟨v, w, e⟩ := Pkg.perfAt_cases b i code add x s n <;> rw [e]
  · exact .refl b i _
  · exact count v
  · exact (count v).trans (ctl _ w)
  · exact ((count v).trans (ctl _ w)).trans (Pkg.intRaw_counted _ b i _)

theorem Pkg.perf_counted (p : Pkg) (b : Blk) (i code add : Nat) (x : Option Attr) : Pkg.Counted b i p (p.perf b i code add x) := by
  unfold Pkg.perf
  split
  · exact .refl b i p
  · exact List.foldlRecOn (motive := fun (s : Pkg × Bool) => Pkg.Counted b i p s.1) (List.range 8) _ (Pkg.Counted.refl b i p)
      fun s hs n hn => hs.trans (Pkg.perfAt_counted b i code add x s (List.mem_range.mp hn))

/-! The log of errors (R492, R500). -/

theorem Pkg.keepsReg_queueEv (p : Pkg) (e : Ev) (h : a ≠ F.careStatLogLost.at_ 0) : p.KeepsReg a (p.queueEv e) := by
  unfold Pkg.queueEv
  split
  · exact Pkg.keepsReg_fadd _ _ h
  · rfl

/-- The registers of an event as it is logged, its bits of INT_RAW aside. -/
def Pkg.logRegs (p : Pkg) (b : Blk) (i : Nat) (w : W64) : Pkg :=
  let c := bits (p.reg b i 0x038) 31 0
  let p := if bits (p.freshOf b i 0x038).2 31 0 = 0 then p.noteSet b i 0x040 63 0 w.toNat else p
  let p := (p.noteAdd b i 0x038 31 0 1).setReg b i 0x038 (BitVec.ofNat 64 (satAdd 32 c 1))
  let p := if c = 0 then p.setReg b i 0x040 w else p
  p.setReg b i 0x048 w

/-- The word that ERR_FIRST and ERR_LAST hold of an event (R492). -/
def errWord (code time info : Nat) : W64 :=
  BitVec.ofNat 64 (code % 2 ^ 12 + info % 2 ^ 20 * 2 ^ 12 + time % 2 ^ 32 * 2 ^ 32)

/-- The package as an event enters the queue: its registers written, its bits of INT_RAW set, the event counted. -/
def Pkg.logHead (p : Pkg) (b : Blk) (i : Nat) (w : W64) (k : Option Nat) : Pkg :=
  let p := (p.logRegs b i w).intRaw b i 0
  (match k with | some k => p.intRaw b i k | none => p).perf b i 0x002 1 none

theorem Pkg.log_eq (p : Pkg) (b : Blk) (i code time info : Nat) (k : Option Nat) :
    p.log b i code time info k = (p.logHead b i (errWord code time info) k).queueEv
      { time := time, block := b.base i / 0x4000, code := code, info := info % 2 ^ 20, irq := k.isSome, lost := false } := rfl

theorem Pkg.logHead_counted (p : Pkg) (b : Blk) (i : Nat) (w : W64) (k : Option Nat) :
    Pkg.Counted b i ((p.logRegs b i w).intRaw b i 0) (p.logHead b i w k) := by
  unfold Pkg.logHead
  cases k with
  | none => exact Pkg.perf_counted _ _ _ _ _ _
  | some k => exact (Pkg.intRaw_counted _ _ _ _).trans (Pkg.perf_counted _ _ _ _ _ _)

theorem Pkg.logRegs_queue (p : Pkg) (b : Blk) (i : Nat) (w : W64) :
    (p.logRegs b i w).evq = p.evq ∧ (p.logRegs b i w).evLost = p.evLost := by
  unfold Pkg.logRegs
  dsimp only
  split <;> split <;> exact ⟨rfl, rfl⟩

/-- The registers of an event lie at the offsets of R492. -/
theorem Pkg.keepsReg_logRegs (p : Pkg) (w : W64) (h38 : a ≠ b.base i + 0x038) (h40 : a ≠ b.base i + 0x040)
    (h48 : a ≠ b.base i + 0x048) : p.KeepsReg a (p.logRegs b i w) := by
  unfold Pkg.logRegs
  dsimp only
  refine Pkg.KeepsReg.trans ?_ (Pkg.keepsReg_setReg _ _ h48)
  have count (v : W64) : p.KeepsReg a (((if bits (p.freshOf b i 0x038).2 31 0 = 0 then p.noteSet b i 0x040 63 0 w.toNat
      else p).noteAdd b i 0x038 31 0 1).setReg b i 0x038 v) := by
    refine Pkg.KeepsReg.trans ?_ (Pkg.keepsReg_setReg _ _ h38)
    split <;> rfl
  split
  · exact (count _).trans (Pkg.keepsReg_setReg _ _ h40)
  · exact count _

theorem Pkg.logRegs_reg (p : Pkg) (b : Blk) (i : Nat) (w : W64) :
    (p.logRegs b i w).reg b i 0x038 = BitVec.ofNat 64 (satAdd 32 (bits (p.reg b i 0x038) 31 0) 1) ∧
    (p.logRegs b i w).reg b i 0x040 = (if bits (p.reg b i 0x038) 31 0 = 0 then w else p.reg b i 0x040) ∧
    (p.logRegs b i w).reg b i 0x048 = w := by
  have other (q : Pkg) {o o' : Nat} (v : W64) (h : o ≠ o') : (q.setReg b i o v).reg b i o' = q.reg b i o' :=
    Pkg.reg_setReg_other _ _ _ _ _ _ _ _ (by omega)
  have noted (o : Nat) : (if bits (p.freshOf b i 0x038).2 31 0 = 0 then p.noteSet b i 0x040 63 0 w.toNat
      else p).reg b i o = p.reg b i o := by split <;> rfl
  unfold Pkg.logRegs
  dsimp only
  refine ⟨?_, ?_, Pkg.reg_setReg_same _ _ _ _ _⟩
  · rw [other _ _ (by decide)]
    split
    · rw [other _ _ (by decide), Pkg.reg_setReg_same]
    · rw [Pkg.reg_setReg_same]
  · rw [other _ _ (by decide)]
    split
    · rw [Pkg.reg_setReg_same]
    · rw [other _ _ (by decide)]
      exact noted 0x040

/-- Registers that are not for the log are not written by it. -/
theorem Pkg.keepsReg_log_of_not_isLogReg (p : Pkg) (b : Blk) (i code time info : Nat) (k : Option Nat) (h : isLogReg a = false) :
    p.KeepsReg a (p.log b i code time info k) := by
  have base := Blk.base_mod b i
  simp only [isLogReg, Bool.or_eq_false_iff, Bool.and_eq_false_iff, decide_eq_false_iff_not] at h
  rw [Pkg.log_eq]
  refine Pkg.KeepsReg.trans ?_ (Pkg.keepsReg_queueEv _ _ h.2)
  refine Pkg.KeepsReg.trans ?_ ((Pkg.logHead_counted p b i _ k).regs a (by unfold countOff; omega))
  exact (Pkg.keepsReg_logRegs p _ (by omega) (by omega) (by omega)).trans (Pkg.keepsReg_intRaw _ _ (by omega))

/-- What an event leaves: every register but those of R492, INT_RAW, the counters and CARE.STAT.LOG_LOST. -/
theorem Pkg.keepsReg_log (p : Pkg) (b : Blk) (i code time info : Nat) (k : Option Nat)
    (h : a % 0x4000 = 0 ∨ 0x100 ≤ a % 0x4000) (hl : a ≠ F.careStatLogLost.at_ 0) :
    p.KeepsReg a (p.log b i code time info k) := by
  refine Pkg.keepsReg_log_of_not_isLogReg p b i code time info k ?_
  simp only [isLogReg, Bool.or_eq_false_iff, Bool.and_eq_false_iff, decide_eq_false_iff_not]
  exact ⟨by omega, hl⟩

/-- ERR_COUNT, ERR_FIRST, ERR_LAST and INT_RAW.ANY after an event (R492). -/
theorem Pkg.log_errRegs (p : Pkg) (b : Blk) (i code time info : Nat) (k : Option Nat) :
    p.ErrRegs (p.log b i code time info k) b i code time info := by
  have base := Blk.base_mod b i
  have lost (o : Nat) (ho : o < 0x100) : b.base i + o ≠ F.careStatLogLost.at_ 0 := by
    have : F.careStatLogLost.at_ 0 = 0x214C118 := rfl
    omega
  have kept (o : Nat) (ho : o = 0x038 ∨ o = 0x040 ∨ o = 0x048) :
      (p.log b i code time info k).reg b i o = (p.logRegs b i (errWord code time info)).reg b i o := by
    have raw : b.base i + o ≠ b.base i + 0x020 := by omega
    have count : ¬ countOff (b.base i + o) := by unfold countOff; omega
    rw [Pkg.log_eq]
    exact Pkg.KeepsReg.reg (((Pkg.keepsReg_intRaw _ 0 raw).trans ((Pkg.logHead_counted p b i _ k).regs _ count)).trans
      (Pkg.keepsReg_queueEv _ _ (lost o (by omega))))
  have any : bit ((p.log b i code time info k).reg b i 0x020) 0 = true := by
    rw [Pkg.log_eq, Pkg.KeepsReg.reg (Pkg.keepsReg_queueEv _ _ (lost 0x020 (by decide)))]
    exact (Pkg.logHead_counted p b i _ k).any (by simp [Pkg.intRaw_reg, bit])
  obtain ⟨count, first, last⟩ := Pkg.logRegs_reg p b i (errWord code time info)
  unfold Pkg.ErrRegs
  dsimp only
  rw [kept 0x038 (.inl rfl), kept 0x040 (.inr (.inl rfl)), kept 0x048 (.inr (.inr rfl)), count, first, last]
  refine ⟨?_, rfl, rfl, any⟩
  have small : satAdd 32 (bits (p.reg b i 0x038) 31 0) 1 < 2 ^ 32 := by unfold satAdd; omega
  simp only [satAdd] at small
  simp only [satAdd, bits, BitVec.toNat_ofNat, Nat.shiftRight_zero] at *
  omega

/-- One call of the log enters its event and no other. -/
theorem Pkg.log_logged (p : Pkg) (b : Blk) (i code time info : Nat) (k : Option Nat) :
    p.Logged (p.log b i code time info k) b i code time info := by
  refine ⟨Pkg.log_errRegs p b i code time info k, fun room => ?_⟩
  obtain ⟨evq, evLost⟩ : (p.logHead b i (errWord code time info) k).evq = p.evq ∧
      (p.logHead b i (errWord code time info) k).evLost = p.evLost := by
    have h := (Pkg.intRaw_counted (p.logRegs b i (errWord code time info)) b i 0).trans (Pkg.logHead_counted p b i _ k)
    obtain ⟨q, l⟩ := Pkg.logRegs_queue p b i (errWord code time info)
    exact ⟨h.evq.trans q, h.evLost.trans l⟩
  have fits : ¬ 4096 ≤ (p.logHead b i (errWord code time info) k).evq.length := by rw [evq]; exact Nat.not_le.mpr room
  refine ⟨{ time := time, block := b.base i / 0x4000, code := code, info := info % 2 ^ 20, irq := k.isSome,
            lost := decide (p.evLost ≠ 0) }, ?_, rfl⟩
  rw [Pkg.log_eq, Pkg.queueEv, if_neg fits]
  simp only [evq, evLost]

end
end Sys2Proof.Machine

namespace Sys2Proof.Machine
open Sys2Proof

/-! The path of a command: what handing over its completions may touch (R437, R439, R502). -/

/-- The two packages differ in the host side, in what the Caretaker has sent, and in HOST.STAT and HOST.CPL_HEAD at most. -/
structure Pkg.PathOnly (p q : Pkg) : Prop where
  frame : q = { p with regs := q.regs, fresh := q.fresh, host := q.host,
                       care := { p.care with out := q.care.out, outQ := q.care.outQ, nextTag := q.care.nextTag,
                                             unacked := q.care.unacked } }
  regs : ∀ a, a ≠ F.hostStatRefused.at_ 0 → a ≠ F.hostCplHeadIndex.at_ 0 → p.KeepsReg a q

section
variable {p q r : Pkg}

namespace Pkg.PathOnly

theorem refl (p : Pkg) : p.PathOnly p := ⟨rfl, fun _ _ _ => rfl⟩
theorem trans (h : p.PathOnly q) (g : q.PathOnly r) : p.PathOnly r :=
  ⟨by rw [g.frame, h.frame], fun a h1 h2 => (h.regs a h1 h2).trans (g.regs a h1 h2)⟩
theorem foldl {α : Type} {f : Pkg → α → Pkg} (hf : ∀ (p : Pkg) x, p.PathOnly (f p x)) (l : List α) (p : Pkg) :
    p.PathOnly (l.foldl f p) :=
  List.foldlRecOn (motive := fun (q : Pkg) => p.PathOnly q) l f (.refl p) fun q h x _ => h.trans (hf q x)

theorem setHost (p : Pkg) (x : HostIf) : p.PathOnly { p with host := x } := ⟨rfl, fun _ _ _ => rfl⟩
theorem raise (p : Pkg) (v : Nat) : p.PathOnly (p.raise v) := by
  unfold Pkg.raise
  split
  · exact .refl p
  · exact .setHost p _
theorem head (p : Pkg) (v : Nat) : p.PathOnly (p.fset F.hostCplHeadIndex 0 v) :=
  ⟨rfl, fun _ _ h => Pkg.keepsReg_fset p v h⟩
theorem phase (p : Pkg) (v : Nat) : p.PathOnly (p.fset F.hostCplHeadPhase 0 v) :=
  ⟨rfl, fun _ _ h => Pkg.keepsReg_fset p v h⟩
theorem refused (p : Pkg) (n : Nat) : p.PathOnly (p.fadd F.hostStatRefused 0 n) := by
  refine ⟨?_, fun _ h _ => Pkg.keepsReg_fadd p n h⟩
  unfold Pkg.fadd
  split <;> rfl
theorem cplWrite (p : Pkg) (c : Cpl) (n : Nat) : p.PathOnly (p.cplWrite c n) := by
  unfold Pkg.cplWrite
  extract_lets h sz b p1 p2 p3
  have written : p.PathOnly p3 := ((PathOnly.setHost p _).trans (.head _ _)).trans (.phase _ _)
  split
  · exact written.trans (.raise _ _)
  · exact written
theorem completionPost (p : Pkg) : p.PathOnly (completionPost p) := by
  unfold Machine.completionPost
  split
  · exact .refl p
  · split
    · split
      · exact .setHost p _
      · split
        · exact (PathOnly.setHost p _).trans (.cplWrite _ _ _)
        · exact .refl p
    · exact .setHost p _
theorem cplDrain (k : Nat) (p : Pkg) : p.PathOnly (Pkg.cplDrain k p) := by
  induction k generalizing p with
  | zero => exact .refl p
  | succ k ih => exact (PathOnly.completionPost p).trans (ih _)
theorem complete (p : Pkg) (c : Cpl) : p.PathOnly (p.complete c) := by
  unfold Pkg.complete
  split
  · exact (PathOnly.setHost p _).trans (.cplDrain _ _)
  · exact .setHost p _
theorem final (p : Pkg) (c : Cmd) (status r0 r1 : Nat) : p.PathOnly (p.final c status r0 r1) :=
  ((PathOnly.setHost p _).trans (.refused _ _)).trans (.complete _ _)
theorem early (p : Pkg) (c : Cmd) : p.PathOnly (p.early c) := by
  unfold Pkg.early
  split
  · exact .complete p _
  · exact .refl p
theorem goOn (p : Pkg) (c : Cmd) : p.PathOnly (p.goOn c) := (PathOnly.early p c).trans (.setHost _ _)
theorem endOp (p : Pkg) (op status r0 r1 : Nat) : p.PathOnly (p.endOp op status r0 r1) :=
  .foldl (fun p c => PathOnly.final p c status r0 r1) _ p
theorem endNo (p : Pkg) (n status r0 r1 : Nat) : p.PathOnly (p.endNo n status r0 r1) := by
  unfold Pkg.endNo
  split
  · exact .final p _ _ _ _
  · exact .refl p
theorem careEmit (sess : Nat) (p : Pkg) (x : Nat × List Byte) : p.PathOnly (Pkg.careEmit sess p x) :=
  ⟨rfl, fun _ _ _ => rfl⟩
theorem careFlush (p : Pkg) : p.PathOnly p.careFlush := by
  unfold Pkg.careFlush
  split
  · split
    · exact .refl p
    · exact PathOnly.trans (q := { p with care := { p.care with outQ := [] } }) ⟨rfl, fun _ _ _ => rfl⟩
        (.foldl (.careEmit _) _ _)
  · exact .refl p
theorem careSend (p : Pkg) (typ : Nat) (body : List Byte) : p.PathOnly (p.careSend typ body) :=
  PathOnly.trans (q := { p with care := { p.care with outQ := p.care.outQ ++ [(typ, body)] } }) ⟨rfl, fun _ _ _ => rfl⟩
    (.careFlush _)
theorem careCompletions (p : Pkg) : p.PathOnly p.careCompletions :=
  (PathOnly.setHost p _).trans (.foldl (fun p (c : Cpl) => PathOnly.careSend p 5 c.bytes) _ _)

theorem bell (h : p.PathOnly q) : q.bell = p.bell := (congrArg Pkg.bell h.frame :)
theorem job (h : p.PathOnly q) : q.job = p.job := (congrArg Pkg.job h.frame :)
theorem dig (h : p.PathOnly q) : q.dig = p.dig := (congrArg Pkg.dig h.frame :)
theorem part (h : p.PathOnly q) : q.part = p.part := (congrArg Pkg.part h.frame :)
theorem fens (h : p.PathOnly q) : q.fens = p.fens := (congrArg Pkg.fens h.frame :)
theorem samps (h : p.PathOnly q) : q.samps = p.samps := (congrArg Pkg.samps h.frame :)
theorem roll (h : p.PathOnly q) : q.roll = p.roll := (congrArg Pkg.roll h.frame :)
theorem spdm (h : p.PathOnly q) : q.spdm = p.spdm := (congrArg Pkg.spdm h.frame :)
theorem evq (h : p.PathOnly q) : q.evq = p.evq := (congrArg Pkg.evq h.frame :)

/-- A register of another page than HOST's. -/
theorem reg (h : p.PathOnly q) {b : Blk} {i off : Nat} (hs : b.base i + off ≠ 0x8138) (hc : b.base i + off ≠ 0x8110) :
    q.reg b i off = p.reg b i off := Pkg.KeepsReg.reg (h.regs _ hs hc)
theorem fget (h : p.PathOnly q) {f : Fld} {i : Nat} (hs : f.at_ i ≠ 0x8138) (hc : f.at_ i ≠ 0x8110) : q.fget f i = p.fget f i :=
  Pkg.KeepsReg.fget (h.regs _ hs hc)

end Pkg.PathOnly

/-! The commands in progress. -/

theorem Pkg.cplWrite_running (p : Pkg) (c : Cpl) (n : Nat) : (p.cplWrite c n).host.running = p.host.running := by
  unfold Pkg.cplWrite Pkg.raise
  extract_lets h sz b p1 p2 p3
  split
  · split <;> rfl
  · rfl
theorem Pkg.cplDrain_running (k : Nat) (p : Pkg) : (Pkg.cplDrain k p).host.running = p.host.running := by
  induction k generalizing p with
  | zero => rfl
  | succ k ih =>
    rw [Pkg.cplDrain, ih]
    unfold completionPost
    split
    · rfl
    · split
      · split
        · rfl
        · split
          · exact Pkg.cplWrite_running _ _ _
          · rfl
      · rfl
@[simp] theorem Pkg.complete_running (p : Pkg) (c : Cpl) : (p.complete c).host.running = p.host.running := by
  unfold Pkg.complete
  split
  · exact Pkg.cplDrain_running _ _
  · rfl
@[simp] theorem Pkg.early_running (p : Pkg) (c : Cmd) : (p.early c).host.running = p.host.running := by
  unfold Pkg.early
  split
  · exact Pkg.complete_running _ _
  · rfl
@[simp] theorem Pkg.goOn_running (p : Pkg) (c : Cmd) : (p.goOn c).host.running = p.host.running ++ [c] := by
  simp [Pkg.goOn]
@[simp] theorem Pkg.final_running (p : Pkg) (c : Cmd) (status r0 r1 : Nat) :
    (p.final c status r0 r1).host.running = p.host.running.filter fun x => decide (x.no ≠ c.no) := by
  unfold Pkg.final Pkg.fadd
  dsimp only
  rw [Pkg.complete_running]
  split <;> rfl
theorem Pkg.careFlush_host (p : Pkg) : p.careFlush.host = p.host := by
  unfold Pkg.careFlush
  split
  · split
    · rfl
    · exact List.foldlRecOn (motive := fun (q : Pkg) => q.host = p.host) _ _ rfl fun _ h _ _ => h
  · rfl
@[simp] theorem Pkg.careSend_host (p : Pkg) (typ : Nat) (body : List Byte) : (p.careSend typ body).host = p.host :=
  Pkg.careFlush_host _
@[simp] theorem Pkg.careCompletions_running (p : Pkg) : p.careCompletions.host.running = p.host.running := by
  have h : p.careCompletions.host = { p.host with careCpl := [] } :=
    List.foldlRecOn (motive := fun (q : Pkg) => q.host = { p.host with careCpl := [] }) p.host.careCpl _ rfl
      fun _ h _ _ => (Pkg.careSend_host _ _ _).trans h
  rw [h]
theorem Pkg.final_ended (p : Pkg) (c : Cmd) (status r0 r1 : Nat) :
    ∀ x ∈ (p.final c status r0 r1).careCompletions.host.running, x.no ≠ c.no := by
  simp

/-- Ending a list of commands leaves none of them, and adds none. -/
theorem Pkg.foldl_final_running (status r0 r1 : Nat) (l : List Cmd) (p : Pkg) {x : Cmd}
    (h : x ∈ (l.foldl (fun (p : Pkg) c => p.final c status r0 r1) p).host.running) : x ∈ p.host.running ∧ x ∉ l := by
  induction l generalizing p with
  | nil => exact ⟨h, by simp⟩
  | cons c l ih =>
    obtain ⟨kept, others⟩ := ih _ h
    obtain ⟨inP, no⟩ : x ∈ p.host.running ∧ x.no ≠ c.no := by simpa using kept
    exact ⟨inP, by rintro (_ | ⟨_, m⟩) <;> contradiction⟩
theorem Pkg.endOp_running {p : Pkg} {op status r0 r1 : Nat} {x : Cmd} (h : x ∈ (p.endOp op status r0 r1).host.running) :
    x ∈ p.host.running ∧ x.opcode ≠ op := by
  obtain ⟨inP, notEnded⟩ := Pkg.foldl_final_running status r0 r1 _ p h
  exact ⟨inP, fun e => notEnded (List.mem_filter.mpr ⟨inP, by simpa using e⟩)⟩
theorem Pkg.endNo_running {p : Pkg} {n status r0 r1 : Nat} {x : Cmd} (h : x ∈ (p.endNo n status r0 r1).host.running) :
    x ∈ p.host.running := by
  unfold Pkg.endNo at h
  split at h
  · simp only [Pkg.final_running] at h; exact (List.mem_filter.mp h).1
  · exact h

end
end Sys2Proof.Machine

namespace Sys2Proof.Machine
open Sys2Proof

/-! What a completion's way depends on: packages that agree in it hand over alike. -/

/-- What the path of a command reads and does not change. -/
structure PathCtx where
  cfg : W64
  tail : W64
  session : Option Sess
  mgUp : Nat
  phys : Nat
  tb0 : Nat
  raw : Nat

def Pkg.pathCtx (p : Pkg) : PathCtx :=
  { cfg := p.reg .host 0 0x108, tail := p.reg .host 0 0x118, session := p.fmSession, mgUp := p.mgUp, phys := p.phys, tb0 := p.tb0,
    raw := p.bell.raw }

/-- The two packages agree in all that the path of a command reads: the completion ring's registers and what waits for it,
and the Caretaker's messages. -/
structure Pkg.SameView (p q : Pkg) : Prop where
  ctx : p.pathCtx = q.pathCtx
  head : p.reg .host 0 0x110 = q.reg .host 0 0x110
  cplQ : p.host.cplQ = q.host.cplQ
  careCpl : p.host.careCpl = q.host.careCpl
  d3hot : p.host.d3hot = q.host.d3hot
  out : p.care.out = q.care.out
  outQ : p.care.outQ = q.care.outQ
  nextTag : p.care.nextTag = q.care.nextTag

section
variable {p q r : Pkg}

theorem Pkg.fon_congr {f : Fld} {i : Nat} (h : p.fget f i = q.fget f i) : p.fon f i = q.fon f i :=
  congrArg (fun n => decide (n = 1)) h

theorem Pkg.PathOnly.pathCtx (h : p.PathOnly q) : q.pathCtx = p.pathCtx := by
  have far (f : Fld) (hs : f.at_ 0 ≠ 0x8138 ∧ f.at_ 0 ≠ 0x8110) : q.fget f 0 = p.fget f 0 := h.fget hs.1 hs.2
  have cfg : q.reg .host 0 0x108 = p.reg .host 0 0x108 := h.reg (by decide) (by decide)
  have tail : q.reg .host 0 0x118 = p.reg .host 0 0x118 := h.reg (by decide) (by decide)
  simp only [Pkg.pathCtx, Pkg.fmSession, Pkg.mgUp, Pkg.phys, Pkg.tb0, Pkg.tb0Raw, h.bell, h.spdm, cfg, tail,
    far F.careStatusMgUp (by decide), far F.chipStrapsRackId (by decide), far F.chipStrapsBoardId (by decide),
    far F.chipStrapsPosId (by decide), Pkg.fon_congr (far F.bellCtrlTb0Mode (by decide)), far F.bellTb0Rate (by decide)]

namespace Pkg.SameView

theorem refl (p : Pkg) : p.SameView p := ⟨rfl, rfl, rfl, rfl, rfl, rfl, rfl, rfl⟩
theorem symm (h : p.SameView q) : q.SameView p :=
  ⟨h.ctx.symm, h.head.symm, h.cplQ.symm, h.careCpl.symm, h.d3hot.symm, h.out.symm, h.outQ.symm, h.nextTag.symm⟩
theorem trans (h : p.SameView q) (g : q.SameView r) : p.SameView r :=
  ⟨h.ctx.trans g.ctx, h.head.trans g.head, h.cplQ.trans g.cplQ, h.careCpl.trans g.careCpl, h.d3hot.trans g.d3hot,
    h.out.trans g.out, h.outQ.trans g.outQ, h.nextTag.trans g.nextTag⟩

/-- Registers that the path of a command reads. -/
def regs : List Nat := [0x8108, 0x8110, 0x8118, 0x214C100, 0x110, 0x2140100, 0x2140110]

theorem of_log (h : p.SameButLog q) (kept : ∀ a ∈ regs, p.KeepsReg a q) : p.SameView q := by
  have same (b : Blk) (o : Nat) (m : b.base 0 + o ∈ regs) : p.reg b 0 o = q.reg b 0 o := (Pkg.KeepsReg.reg (kept _ m)).symm
  have field (f : Fld) (m : f.at_ 0 ∈ regs) : p.fget f 0 = q.fget f 0 := (Pkg.KeepsReg.fget (kept _ m)).symm
  have bell : q.bell = p.bell := (congrArg Pkg.bell h :)
  have spdm : q.spdm = p.spdm := (congrArg Pkg.spdm h :)
  have host : q.host = { p.host with msix := q.host.msix } := (congrArg Pkg.host h :)
  have care : q.care = p.care := (congrArg Pkg.care h :)
  refine ⟨?_, same .host 0x110 (by decide), (congrArg HostIf.cplQ host).symm, (congrArg HostIf.careCpl host).symm,
    (congrArg HostIf.d3hot host).symm, (congrArg Care.out care).symm, (congrArg Care.outQ care).symm,
    (congrArg Care.nextTag care).symm⟩
  simp only [Pkg.pathCtx, Pkg.fmSession, Pkg.mgUp, Pkg.phys, Pkg.tb0, Pkg.tb0Raw, bell, spdm,
    same .host 0x108 (by decide), same .host 0x118 (by decide), field F.careStatusMgUp (by decide),
    field F.chipStrapsRackId (by decide), field F.chipStrapsBoardId (by decide), field F.chipStrapsPosId (by decide),
    Pkg.fon_congr (field F.bellCtrlTb0Mode (by decide)), field F.bellTb0Rate (by decide)]

theorem fadd (p : Pkg) {f : Fld} (n : Nat) (h : f.at_ 0 ∉ regs) : p.SameView (p.fadd f 0 n) :=
  of_log (Pkg.fadd_same p f 0 n) fun _ m => Pkg.keepsReg_fadd p n fun e => h (e ▸ m)
theorem log (p : Pkg) (b : Blk) (i code time info : Nat) (k : Option Nat) : p.SameView (p.log b i code time info k) := by
  refine of_log (Pkg.log_same p b i code time info k) fun a m => Pkg.keepsReg_log p b i code time info k ?_ ?_
  · revert a; decide
  · revert a; decide

/-! Operations of the path, on packages that agree. -/

theorem foldl {α : Type} {f : Pkg → α → Pkg} (hf : ∀ (p q : Pkg) (x : α), p.SameView q → (f p x).SameView (f q x)) (l : List α)
    (h : p.SameView q) : (l.foldl f p).SameView (l.foldl f q) :=
  List.foldl_rel h fun x _ p q h => hf p q x h

theorem cplRoom (h : p.SameView q) : p.cplRoom = q.cplRoom := by
  have cfg : p.reg .host 0 0x108 = q.reg .host 0 0x108 := congrArg PathCtx.cfg h.ctx
  have tail : p.reg .host 0 0x118 = q.reg .host 0 0x118 := congrArg PathCtx.tail h.ctx
  have en : p.fon F.hostCplCfgEn 0 = q.fon F.hostCplCfgEn 0 := Pkg.fon_congr (congrArg (bits · 16 16) cfg)
  have size : p.cplSize = q.cplSize := congrArg (fun w => min 12 (max 6 (bits w 3 0))) cfg
  have used : ringUsed (p.fget F.hostCplHeadIndex 0) (p.fget F.hostCplTailIndex 0) =
      ringUsed (q.fget F.hostCplHeadIndex 0) (q.fget F.hostCplTailIndex 0) :=
    congrArg₂ (fun v w => ringUsed (bits v 31 0) (bits w 31 0)) h.head tail
  rw [Pkg.cplRoom, Pkg.cplRoom, en, h.d3hot, used, size]

end Pkg.SameView

theorem Pkg.cplWrite_host (p : Pkg) (c : Cpl) (n : Nat) :
    (p.cplWrite c n).host = { p.host with mem := (p.cplWrite c n).host.mem, msix := (p.cplWrite c n).host.msix } := by
  unfold Pkg.cplWrite Pkg.raise
  extract_lets h sz b p1 p2 p3
  split
  · split <;> rfl
  · rfl
@[simp] theorem Pkg.cplWrite_cplQ (p : Pkg) (c : Cpl) (n : Nat) : (p.cplWrite c n).host.cplQ = p.host.cplQ :=
  (congrArg HostIf.cplQ (p.cplWrite_host c n) :)
@[simp] theorem Pkg.cplWrite_careCpl (p : Pkg) (c : Cpl) (n : Nat) : (p.cplWrite c n).host.careCpl = p.host.careCpl :=
  (congrArg HostIf.careCpl (p.cplWrite_host c n) :)
@[simp] theorem Pkg.cplWrite_d3hot (p : Pkg) (c : Cpl) (n : Nat) : (p.cplWrite c n).host.d3hot = p.host.d3hot :=
  (congrArg HostIf.d3hot (p.cplWrite_host c n) :)
@[simp] theorem Pkg.cplWrite_care (p : Pkg) (c : Cpl) (n : Nat) : (p.cplWrite c n).care = p.care := by
  unfold Pkg.cplWrite Pkg.raise
  extract_lets h sz b p1 p2 p3
  split
  · split <;> rfl
  · rfl
theorem Pkg.cplWrite_head (p : Pkg) (c : Cpl) (n : Nat) :
    (p.cplWrite c n).reg .host 0 0x110 =
      setBits (setBits (p.reg .host 0 0x110) 31 0 (bits (p.reg .host 0 0x110) 31 0 + 1)) 32 32
        (ringPhase ((bits (p.reg .host 0 0x110) 31 0 + 1) % 2 ^ 32) (min 12 (max 6 (bits (p.reg .host 0 0x108) 3 0)))) := by
  have raised (p : Pkg) (v : Nat) : (p.raise v).reg .host 0 0x110 = p.reg .host 0 0x110 :=
    Pkg.KeepsReg.reg (congrArg (AMap.find? · _) (Pkg.raise_regs p v))
  have set (p : Pkg) (v w : Nat) : ((p.fset F.hostCplHeadIndex 0 v).fset F.hostCplHeadPhase 0 w).reg .host 0 0x110 =
      setBits (setBits (p.reg .host 0 0x110) 31 0 v) 32 32 w := by
    show ((p.fset F.hostCplHeadIndex 0 v).fset F.hostCplHeadPhase 0 w).reg F.hostCplHeadPhase.blk 0 F.hostCplHeadPhase.off = _
    rw [Pkg.fset, Pkg.reg_setReg_same]
    show setBits ((p.fset F.hostCplHeadIndex 0 v).reg F.hostCplHeadIndex.blk 0 F.hostCplHeadIndex.off) 32 32 w = _
    rw [Pkg.fset, Pkg.reg_setReg_same]
    rfl
  unfold Pkg.cplWrite
  extract_lets h sz b p1 p2 p3
  split
  · rw [raised]; exact set _ _ _
  · exact set _ _ _

namespace Pkg.SameView

theorem cplWrite (h : p.SameView q) (c : Cpl) (n : Nat) : (p.cplWrite c n).SameView (q.cplWrite c n) where
  ctx := ((Pkg.PathOnly.cplWrite p c n).pathCtx.trans h.ctx).trans (Pkg.PathOnly.cplWrite q c n).pathCtx.symm
  head := by
    have cfg : p.reg .host 0 0x108 = q.reg .host 0 0x108 := congrArg PathCtx.cfg h.ctx
    rw [Pkg.cplWrite_head, Pkg.cplWrite_head, h.head, cfg]
  cplQ := by simpa using h.cplQ
  careCpl := by simpa using h.careCpl
  d3hot := by simpa using h.d3hot
  out := by simpa using h.out
  outQ := by simpa using h.outQ
  nextTag := by simpa using h.nextTag

/-- The same completions wait for the ring. -/
theorem setCplQ (h : p.SameView q) (l : List Cpl) :
    ({ p with host := { p.host with cplQ := l } } : Pkg).SameView { q with host := { q.host with cplQ := l } } :=
  ⟨h.ctx, h.head, rfl, h.careCpl, h.d3hot, h.out, h.outQ, h.nextTag⟩
theorem setCareCpl (h : p.SameView q) (l : List Cpl) :
    ({ p with host := { p.host with careCpl := l } } : Pkg).SameView { q with host := { q.host with careCpl := l } } :=
  ⟨h.ctx, h.head, h.cplQ, rfl, h.d3hot, h.out, h.outQ, h.nextTag⟩
theorem setOutQ (h : p.SameView q) (l : List (Nat × List Byte)) :
    ({ p with care := { p.care with outQ := l } } : Pkg).SameView { q with care := { q.care with outQ := l } } :=
  ⟨h.ctx, h.head, h.cplQ, h.careCpl, h.d3hot, h.out, rfl, h.nextTag⟩

theorem completionPost (h : p.SameView q) : (completionPost p).SameView (completionPost q) := by
  unfold Machine.completionPost
  rw [h.cplQ, h.cplRoom]
  split
  · exact h
  · split
    · split
      · exact h.setCplQ _
      · split
        · exact (h.setCplQ _).cplWrite _ _
        · exact h
    · exact h.setCplQ _
theorem cplDrain (k : Nat) (h : p.SameView q) : (Pkg.cplDrain k p).SameView (Pkg.cplDrain k q) := by
  induction k generalizing p q with
  | zero => exact h
  | succ k ih => exact ih h.completionPost
theorem complete (h : p.SameView q) (c : Cpl) : (p.complete c).SameView (q.complete c) := by
  unfold Pkg.complete
  rw [h.cplQ, h.careCpl]
  split
  · exact (h.setCplQ _).cplDrain _
  · exact h.setCareCpl _

theorem careEmit (h : p.SameView q) (sess : Nat) (x : Nat × List Byte) :
    (Pkg.careEmit sess p x).SameView (Pkg.careEmit sess q x) := by
  have mgUp : p.mgUp = q.mgUp := congrArg PathCtx.mgUp h.ctx
  have phys : p.phys = q.phys := congrArg PathCtx.phys h.ctx
  have tb0 : p.tb0 = q.tb0 := congrArg PathCtx.tb0 h.ctx
  refine ⟨h.ctx, h.head, h.cplQ, h.careCpl, h.d3hot, ?_, h.outQ, ?_⟩
  · simp only [Pkg.careEmit, mgUp, phys, tb0, h.nextTag, h.out]
  · simp only [Pkg.careEmit, h.nextTag]
theorem careFlush (h : p.SameView q) : p.careFlush.SameView q.careFlush := by
  have session : p.fmSession = q.fmSession := congrArg PathCtx.session h.ctx
  have mgUp : p.mgUp = q.mgUp := congrArg PathCtx.mgUp h.ctx
  unfold Pkg.careFlush
  rw [session, mgUp, h.outQ]
  split
  · split
    · exact h
    · exact foldl (fun _ _ x h => h.careEmit _ x) _ (h.setOutQ [])
  · exact h
theorem careSend (h : p.SameView q) (typ : Nat) (body : List Byte) : (p.careSend typ body).SameView (q.careSend typ body) := by
  unfold Pkg.careSend
  rw [h.outQ]
  exact (h.setOutQ _).careFlush
theorem careCompletions (h : p.SameView q) : p.careCompletions.SameView q.careCompletions := by
  unfold Pkg.careCompletions
  rw [h.careCpl]
  exact foldl (fun _ _ c h => h.careSend 5 (Cpl.bytes c)) _ (h.setCareCpl [])

/-- Packages that agree hand over the same. -/
theorem handed {es : List Cpl} (h : q.SameView (es.foldl Pkg.complete p)) : p.Handed q.careCompletions es := by
  have g := h.careCompletions
  refine ⟨g.cplQ, ?_, g.out, g.outQ⟩
  simp only [Pkg.fget, F.hostCplHeadIndex, g.head]

end Pkg.SameView

/-! The ends of a command. -/

theorem Pkg.early_eq (p : Pkg) (c : Cmd) : p.early c = (p.earlyOf c).foldl Pkg.complete p := by
  unfold Pkg.early Pkg.earlyOf Pkg.v13
  simp only [Bool.and_eq_true]
  split <;> rfl
theorem Pkg.final_sameView (p : Pkg) (c : Cmd) (status r0 r1 : Nat) :
    (p.final c status r0 r1).SameView (p.complete (c.cpl status r0 r1)) := by
  have ended : p.SameView { p with host := { p.host with running := p.host.running.filter fun x => decide (x.no ≠ c.no) } } :=
    ⟨rfl, rfl, rfl, rfl, rfl, rfl, rfl, rfl⟩
  exact (ended.trans (.fadd _ (f := F.hostStatRefused) _ (by decide))).symm.complete (c.cpl status r0 r1)

/-- The command ends with what it has done in between, where that is nothing to its path (R439, R446). -/
theorem Pkg.SameView.ends {c : Cmd} (h : q.SameView (p.early c)) (r0 r1 : Nat) : p.Ends (q.final c 0 r0 r1).careCompletions c r0 r1 := by
  refine ⟨Pkg.final_ended q c 0 r0 r1, Pkg.SameView.handed ((Pkg.final_sameView q c 0 r0 r1).trans ?_)⟩
  rw [List.foldl_append, ← Pkg.early_eq]
  exact h.complete _
theorem Pkg.SameView.goesOn {c : Cmd} (h : q.SameView (p.early c)) (hr : q.host.running = p.host.running ++ [c]) :
    p.GoesOn q.careCompletions c := by
  refine ⟨(Pkg.careCompletions_running q).trans hr, Pkg.SameView.handed ?_⟩
  rwa [← Pkg.early_eq]

/-! Frames of the commands. -/

theorem Pkg.PathOnly.keepRegs (h : p.PathOnly q) : p.KeepRegs q [F.hostStatRefused.at_ 0, F.hostCplHeadIndex.at_ 0] :=
  fun a _ m => h.regs a (fun e => m (by simp [e])) fun e => m (by simp [e])

/-- A command that has done nothing but answer. -/
theorem Pkg.PathOnly.byCommand (h : p.PathOnly q) : p.ByCommand q p := by
  refine ⟨fun j _ => ?_, fun d _ => ?_, fun d _ => ?_, h.keepRegs, ?_⟩
  · simp only [Pkg.fen, h.fens]
  · simp only [Pkg.samp, h.samps]
  · simp only [Pkg.mark, show q.marks = p.marks from (congrArg Pkg.marks h.frame :)]
  · unfold Pkg.SameButLog
    rw [h.frame]

/-- A command that is refused (R440). -/
theorem Pkg.final_refuses (p : Pkg) (c : Cmd) (status r0 r1 : Nat) :
    p.Refuses (p.final c status r0 r1).careCompletions c status r0 r1 :=
  ⟨⟨Pkg.final_ended p c status r0 r1, Pkg.SameView.handed (Pkg.final_sameView p c status r0 r1)⟩,
    ((Pkg.PathOnly.final p c status r0 r1).trans (.careCompletions _)).byCommand⟩

end
end Sys2Proof.Machine

namespace Sys2Proof.Machine
open Sys2Proof

/-! DISARM, SHADOW_BEGIN, SHADOW_END and TIME_REBASE, each by its branches (R353, R421, R425, R459, R110). -/

section
variable {p q t : Pkg} {s : State} {c : Cmd} {l : List Cmd} {P : State → Prop}

/-- The package once the ROM has taken the record in front. -/
def Pkg.popped (p : Pkg) (l : List Cmd) : Pkg := { p with host := { p.host with taken := l } }

/-- A command row of the ROM acts through the front record (R435). -/
theorem Pkg.Front.does {op : Nat} {f : Cmd → Pkg → Pkg} {i : Instr} (h : s.pkg.Front op c l) (known : opcodes.contains op = true)
    (arm : exec i s = onPkg (romRun op f) s) (hP : P { s with pkg := (f c (s.pkg.popped l)).careCompletions }) : Does i s P := by
  obtain ⟨on, taken, opcode, may⟩ := h
  refine ⟨_, ?_, hP⟩
  rw [arm, onPkg_on _ on, romRun_runs taken may (opcode ▸ known) opcode, Pkg.popped]

/-- The same behind the checks of R444, all of them passed. -/
theorem Pkg.Clean.does {op : Nat} {f : Cmd → Pkg → Pkg} {i : Instr} {grp : Bool} {bad : Cmd → Pkg → Bool} (h : s.pkg.Clean op c l)
    (known : opcodes.contains op = true) (arm : exec i s = onPkg (romRun op (checked grp never bad f)) s)
    (free : grp = true → s.pkg.groupBusy = false) (good : bad c (s.pkg.popped l) = false)
    (hP : P { s with pkg := (f c (s.pkg.popped l)).careCompletions }) : Does i s P := by
  obtain ⟨front, clean⟩ := h
  refine front.does known arm ?_
  rw [checked_runs (p := s.pkg.popped l) free rfl clean good]
  exact hP

theorem disarm_does (h : s.pkg.Clean 0x0014 c l) (target : c.le 0x10 1 = 1 ∨ c.le 0x10 1 = 2)
    (hP : P { s with pkg := ((s.pkg.popped l).disarm c).careCompletions }) : Does .disarm s P :=
  h.does (by decide) rfl (by simp) (by obtain e | e := target <;> simp [e]) hP
theorem abort_does (h : s.pkg.Front 0x0015 c l) (hP : P { s with pkg := ((s.pkg.popped l).abort c).careCompletions }) :
    Does .abort s P :=
  h.does (f := fun c p => p.abort c) (by decide) rfl hP
theorem shadowBegin_does (h : s.pkg.Clean 0x0058 c l) (free : s.pkg.groupBusy = false)
    (role : c.le 0x10 1 = 1 ∨ c.le 0x10 1 = 2) (port : c.le 0x11 1 < 16)
    (hP : P { s with pkg := ((s.pkg.popped l).shadowBegin c).careCompletions }) : Does .shadowBegin s P :=
  h.does (by decide) rfl (fun _ => free) (by obtain e | e := role <;> simp [e, port]) hP
theorem shadowEnd_does (h : s.pkg.Clean 0x0059 c l) (hP : P { s with pkg := ((s.pkg.popped l).shadowEnd c).careCompletions }) :
    Does .shadowEnd s P :=
  h.does (by decide) rfl (by simp) rfl hP
theorem timeRebase_does (h : s.pkg.Clean 0x0060 c l) (free : s.pkg.groupBusy = false)
    (base : c.le 0x10 1 = 1 ∨ c.le 0x10 1 = 2) (mode : c.le 0x11 1 = 1 ∨ c.le 0x11 1 = 2)
    (hP : P { s with pkg := ((s.pkg.popped l).timeRebase c).careCompletions }) : Does .timeRebase s P :=
  h.does (by decide) rfl (fun _ => free) (by obtain e | e := base <;> obtain g | g := mode <;> simp [e, g]) hP

/-- The frame of a command with an effect on `y` between its acceptance and its end, from the parts of the effect. -/
theorem Pkg.byCommand_of_effect {y u r : Pkg} {ws : List Nat} (early : p.PathOnly y) (after : u.PathOnly t)
    (fens : u.fens = y.fens) (samps : u.samps = y.samps) (marks : u.marks = y.marks) (regs : y.KeepRegs u ws)
    (frame : t = { r with
      regs := t.regs, evq := t.evq, evLost := t.evLost, irqSum := t.irqSum, careIrq := t.careIrq, fresh := t.fresh, host := t.host,
      fens := t.fens, samps := t.samps, marks := t.marks,
      care := { r.care with out := t.care.out, outQ := t.care.outQ, nextTag := t.care.nextTag, unacked := t.care.unacked } }) :
    p.ByCommand t r ws := by
  have marksP : t.marks = p.marks := by
    rw [show t.marks = u.marks from (congrArg Pkg.marks after.frame :), marks]
    exact (congrArg Pkg.marks early.frame :)
  refine ⟨fun j _ => ?_, fun d _ => ?_, fun d _ => ?_, fun a log m => ?_, frame⟩
  · simp only [Pkg.fen, after.fens, fens, early.fens]
  · simp only [Pkg.samp, after.samps, samps, early.samps]
  · simp only [Pkg.mark, marksP]
  · obtain ⟨path, others⟩ : a ∉ [F.hostStatRefused.at_ 0, F.hostCplHeadIndex.at_ 0] ∧ a ∉ ws := by simpa [not_or, and_assoc] using m
    exact (after.keepRegs a log path).trans ((regs a log others).trans (early.keepRegs a log path))

/-- A start whose tick has not come is not settled (R459). -/
theorem Pkg.settleStart_early (h : p.job.state ≠ 5 ∨ ∀ k, p.bell.handoverTick = some k → p.bell.tb2.count < k) :
    p.settleStart = p := by
  unfold Pkg.settleStart handover
  split
  · next k e =>
    obtain no | early := h
    · simp [no]
    · simp [Nat.not_le.mpr (early k e)]
  · rfl

/-- DISARM of the next plan: what it does to an armed one (R353, R459). -/
theorem Pkg.disarm_next (settled : p.settleStart = p) (next : c.le 0x10 1 = 1) (idle : p.drive = false)
    (armed : 3 ≤ p.job.state ∧ p.job.state ≤ 5) : p.disarm c = ((p.early c).cancelStart.unarm).final c 0 0 0 := by
  have target : (if c.le 0x10 1 = 1 && p.job.state = 5 && p.job.state = 6 then 2 else c.le 0x10 1) = 1 := by
    rw [next, if_neg (by simp; omega)]
  unfold Pkg.disarm
  rw [settled]
  simp only [target, idle, armed]
  rfl
theorem Pkg.disarm_nothing (settled : p.settleStart = p) (next : c.le 0x10 1 = 1) (idle : p.drive = false)
    (notArmed : p.job.state < 3 ∨ 5 < p.job.state) : p.disarm c = p.final c 7 0 0 := by
  have target : (if c.le 0x10 1 = 1 && p.job.state = 5 && p.job.state = 6 then 2 else c.le 0x10 1) = 1 := by
    rw [next, if_neg (by simp; omega)]
  have out : ¬ (3 ≤ p.job.state ∧ p.job.state ≤ 5) := by omega
  unfold Pkg.disarm
  rw [settled]
  simp only [target, idle]
  simp [out]
/-- DISARM of the running plan (R353). -/
theorem Pkg.disarm_running (settled : p.settleStart = p) (running : c.le 0x10 1 = 2) (runs : p.tb1Run = true)
    (role : p.dig.pendingRole ≠ 1) : p.disarm c = (p.goOn c).updJob fun j => { j with disarmReq := true } := by
  have dig : (p.goOn c).dig = p.dig := (Pkg.PathOnly.goOn p c).dig
  unfold Pkg.disarm
  rw [settled]
  simp [running, runs, Pkg.updJob, dig, role]
theorem Pkg.disarm_not_running (settled : p.settleStart = p) (running : c.le 0x10 1 = 2) (stands : p.tb1Run = false) :
    p.disarm c = p.final c 7 0 0 := by
  unfold Pkg.disarm
  rw [settled]
  simp [running, stands]

/-- Weight sets change their state as their uses come and go, and nothing else does (R375). -/
theorem Pkg.refreshSets_frame (p : Pkg) : p.refreshSets = { p with wgt := { p.wgt with sets := p.refreshSets.wgt.sets } } := by
  unfold Pkg.refreshSets
  refine List.foldlRecOn (motive := fun (q : Pkg) => q = { p with wgt := { p.wgt with sets := q.wgt.sets } }) (List.range 4) _ rfl
    fun q h n _ => ?_
  dsimp only
  split
  · unfold Pkg.updWset
    rw [h]
  · exact h

/-- The job as a cancelled arming leaves it: its plan RELOCATED (R459). -/
def Job.relocated (j : Job) : Job :=
  { j with
    state := 2,
    next := j.next.map fun n => { n with arm := none, wset := none, filled := false, replay := none, stepBase := 0 } }

theorem Pkg.unarm_eq (noArm : p.job.arming = none) (role : p.dig.pendingRole ≠ 2) :
    p.unarm = ({ p with job := p.job.relocated } : Pkg).refreshSets := by
  unfold Pkg.unarm
  simp [noArm, Pkg.updJob, role, Pkg.jobTo, Job.relocated]
theorem Pkg.cancelStart_eq (h : p.job.state ≠ 5) : p.cancelStart = p := by
  simp [Pkg.cancelStart, h]

/-- DISARM of an armed plan that no start waits for: RELOCATED again at once (R459). -/
theorem Pkg.disarm_armed (next : c.le 0x10 1 = 1) (idle : q.drive = false) (armed : q.job.state = 4) (noArm : q.job.arming = none)
    (role : q.dig.pendingRole ≠ 2) (ht : t = (q.disarm c).careCompletions) :
    t.job = q.job.relocated ∧ q.Ends t c 0 0 ∧
      q.ByCommand t { q with job := t.job, wgt := { q.wgt with sets := t.wgt.sets } } := by
  obtain ⟨y, hy⟩ : ∃ y, y = q.early c := ⟨_, rfl⟩
  have early : q.PathOnly y := hy ▸ Pkg.PathOnly.early q c
  have job : y.job = q.job := early.job
  obtain ⟨u, hu⟩ : ∃ u, u = ({ y with job := y.job.relocated } : Pkg).refreshSets := ⟨_, rfl⟩
  have effect : u = { y with job := y.job.relocated, wgt := { y.wgt with sets := u.wgt.sets } } := by
    rw [hu]; exact Pkg.refreshSets_frame _
  have eq : q.disarm c = u.final c 0 0 0 := by
    rw [Pkg.disarm_next (Pkg.settleStart_early (.inl (by omega))) next idle (by omega), ← hy,
      Pkg.cancelStart_eq (by rw [job]; omega), Pkg.unarm_eq (by rw [job, noArm]) (by rw [early.dig]; exact role), hu]
  clear hu
  have after : u.PathOnly t := by
    rw [ht, eq]; exact (Pkg.PathOnly.final u c 0 0 0).trans (.careCompletions _)
  have view : u.SameView y := by rw [effect]; exact ⟨rfl, rfl, rfl, rfl, rfl, rfl, rfl, rfl⟩
  refine ⟨?_, ?_, ?_⟩
  · rw [after.job, effect, ← job]
  · rw [ht, eq]; exact (hy ▸ view).ends 0 0
  · refine Pkg.byCommand_of_effect early after ?_ ?_ ?_ ?_ ?_
    · rw [effect]
    · rw [effect]
    · rw [effect]
    · rw [effect]; exact fun _ _ _ => rfl
    · rw [after.frame, effect, early.frame]

theorem Pkg.goOn_sameView (p : Pkg) (c : Cmd) : (p.goOn c).SameView (p.early c) := ⟨rfl, rfl, rfl, rfl, rfl, rfl, rfl, rfl⟩

/-- A command that goes on, its one effect a change of the job (R353, R425). -/
theorem Pkg.goOn_updJob (g : Job → Job) (ht : t = ((q.goOn c).updJob g).careCompletions) :
    t.job = g q.job ∧ q.GoesOn t c ∧ q.ByCommand t { q with job := t.job } := by
  have early := Pkg.PathOnly.goOn q c
  have after : ((q.goOn c).updJob g).PathOnly t := ht ▸ .careCompletions _
  have view : ((q.goOn c).updJob g).SameView (q.goOn c) := ⟨rfl, rfl, rfl, rfl, rfl, rfl, rfl, rfl⟩
  refine ⟨?_, ?_, Pkg.byCommand_of_effect early after rfl rfl rfl (fun _ _ _ => rfl) ?_⟩
  · rw [after.job, Pkg.updJob, early.job]
  · rw [ht]; exact (view.trans (Pkg.goOn_sameView q c)).goesOn (Pkg.goOn_running q c)
  · rw [after.frame, Pkg.updJob, early.frame]

/-- A command that goes on, its one effect a change of the digest unit (R425). -/
theorem Pkg.goOn_updDig (g : Dig → Dig) (ht : t = ((q.goOn c).updDig g).careCompletions) :
    t.dig = g q.dig ∧ q.GoesOn t c ∧ q.ByCommand t { q with dig := t.dig } := by
  have early := Pkg.PathOnly.goOn q c
  have after : ((q.goOn c).updDig g).PathOnly t := ht ▸ .careCompletions _
  have view : ((q.goOn c).updDig g).SameView (q.goOn c) := ⟨rfl, rfl, rfl, rfl, rfl, rfl, rfl, rfl⟩
  refine ⟨?_, ?_, Pkg.byCommand_of_effect early after rfl rfl rfl (fun _ _ _ => rfl) ?_⟩
  · rw [after.dig, Pkg.updDig, early.dig]
  · rw [ht]; exact (view.trans (Pkg.goOn_sameView q c)).goesOn (Pkg.goOn_running q c)
  · rw [after.frame, Pkg.updDig, early.frame]

/-- A command done at once, with no effect but its answer. -/
theorem Pkg.done_only (r0 r1 : Nat) (ht : t = (q.done c r0 r1).careCompletions) : q.Ends t c r0 r1 ∧ q.ByCommand t q := by
  refine ⟨?_, ?_⟩
  · rw [ht]; exact (Pkg.SameView.refl _).ends r0 r1
  · rw [ht]
    exact (((Pkg.PathOnly.early q c).trans (.final _ c 0 r0 r1)).trans (.careCompletions _)).byCommand

/-! SHADOW_BEGIN and SHADOW_END (R421, R425). -/

/-- The fields of DLOG.SHADOW that SHADOW_BEGIN sets (R421). -/
def Pkg.shadowRegs (p : Pkg) (port : Nat) : Pkg :=
  (((p.fset F.dlogShadowPort 0 port).fset F.dlogShadowCntClean 0 0).fset F.dlogShadowPromotable 0 0).fset F.dlogShadowBroken 0 0

theorem Pkg.shadowRegs_same (p : Pkg) (port : Nat) : p.SameButLog (p.shadowRegs port) :=
  (((Pkg.fset_same p _ _ _).trans (Pkg.fset_same _ _ _ _)).trans (Pkg.fset_same _ _ _ _)).trans (Pkg.fset_same _ _ _ _)
theorem Pkg.keepsReg_shadowRegs (p : Pkg) (port : Nat) {a : Nat} (h : a ≠ F.dlogShadowPort.at_ 0)
    (hc : a ≠ F.dlogShadowCntClean.at_ 0) : p.KeepsReg a (p.shadowRegs port) :=
  (((Pkg.keepsReg_fset p (f := F.dlogShadowPort) _ h).trans (Pkg.keepsReg_fset _ (f := F.dlogShadowCntClean) _ hc)).trans
    (Pkg.keepsReg_fset _ (f := F.dlogShadowPromotable) _ h)).trans (Pkg.keepsReg_fset _ (f := F.dlogShadowBroken) _ h)
theorem Pkg.shadowRegs_fget (p : Pkg) {port : Nat} (h : port < 16) :
    (p.shadowRegs port).fget F.dlogShadowPort 0 = port ∧ (p.shadowRegs port).fget F.dlogShadowCntClean 0 = 0 ∧
    (p.shadowRegs port).fget F.dlogShadowPromotable 0 = 0 ∧ (p.shadowRegs port).fget F.dlogShadowBroken 0 = 0 := by
  unfold Pkg.shadowRegs
  refine ⟨?_, ?_, ?_, ?_⟩
  · rw [Pkg.fget_fset_field _ F.dlogShadowBroken F.dlogShadowPort _ _ rfl rfl (by decide) (.inr (by decide)),
      Pkg.fget_fset_field _ F.dlogShadowPromotable F.dlogShadowPort _ _ rfl rfl (by decide) (.inr (by decide)),
      Pkg.fget_fset_reg _ F.dlogShadowCntClean F.dlogShadowPort _ _ _ (by decide), Pkg.fget_fset _ _ _ _ (by decide) (by decide)]
    exact Nat.mod_eq_of_lt h
  · rw [Pkg.fget_fset_reg _ F.dlogShadowBroken F.dlogShadowCntClean _ _ _ (by decide),
      Pkg.fget_fset_reg _ F.dlogShadowPromotable F.dlogShadowCntClean _ _ _ (by decide),
      Pkg.fget_fset _ _ _ _ (by decide) (by decide), Nat.zero_mod]
  · rw [Pkg.fget_fset_field _ F.dlogShadowBroken F.dlogShadowPromotable _ _ rfl rfl (by decide) (.inl (by decide)),
      Pkg.fget_fset _ _ _ _ (by decide) (by decide), Nat.zero_mod]
  · rw [Pkg.fget_fset _ _ _ _ (by decide) (by decide), Nat.zero_mod]

/-- What SHADOW_BEGIN notes in the digest unit (R421). -/
def Dig.begun (d : Dig) (c : Cmd) : Dig :=
  { d with pendingRole := c.le 0x10 1, port := c.le 0x11 1, beginStep := c.le 0x18 8 }

/-- The state that SHADOW_BEGIN of its role asks for (R421). -/
def Pkg.shadowFit (p : Pkg) (c : Cmd) : Prop :=
  if c.le 0x10 1 = 1 then p.tb1Run = true ∧ p.dig.halted = false
  else p.job.state = 4 ∧ p.drive = false ∧ p.bell.tb2.state = .locked

theorem Pkg.shadowBegin_unfit (h : ¬ p.shadowFit c) : p.shadowBegin c = p.final c 0x0304 0 0 := by
  unfold Pkg.shadowFit at h
  unfold Pkg.shadowBegin
  by_cases role : c.le 0x10 1 = 1 <;> simp_all
theorem Pkg.shadowBegin_fit (h : p.shadowFit c) (port : c.le 0x11 1 < 16) :
    p.shadowBegin c = ((p.goOn c).updDig (Dig.begun · c)).shadowRegs (c.le 0x11 1) := by
  unfold Pkg.shadowFit at h
  unfold Pkg.shadowBegin Dig.begun
  by_cases role : c.le 0x10 1 = 1 <;> simp_all [Nat.mod_eq_of_lt port, Pkg.shadowRegs]

theorem Pkg.shadowBegin_begun (h : q.shadowFit c) (port : c.le 0x11 1 < 16) (ht : t = (q.shadowBegin c).careCompletions) :
    t.dig = q.dig.begun c ∧ t.fget F.dlogShadowPort 0 = c.le 0x11 1 ∧ t.fget F.dlogShadowCntClean 0 = 0 ∧
    t.fget F.dlogShadowPromotable 0 = 0 ∧ t.fget F.dlogShadowBroken 0 = 0 ∧ q.GoesOn t c ∧
    q.ByCommand t { q with dig := t.dig } [F.dlogShadowPort.at_ 0, F.dlogShadowCntClean.at_ 0] := by
  have early := Pkg.PathOnly.goOn q c
  obtain ⟨y, hy⟩ : ∃ y, y = (q.goOn c).updDig (Dig.begun · c) := ⟨_, rfl⟩
  obtain ⟨u, hu⟩ : ∃ u, u = y.shadowRegs (c.le 0x11 1) := ⟨_, rfl⟩
  have after : u.PathOnly t := by
    rw [ht, Pkg.shadowBegin_fit h port, ← hy, ← hu]; exact .careCompletions _
  have view : u.SameView (q.early c) := by
    have regs : y.SameView u := by
      rw [hu]
      refine Pkg.SameView.of_log (Pkg.shadowRegs_same y _) fun a m => Pkg.keepsReg_shadowRegs y _ ?_ ?_ <;>
      · rintro rfl; revert m; decide
    refine (regs.symm.trans ?_).trans (Pkg.goOn_sameView q c)
    rw [hy]; exact ⟨rfl, rfl, rfl, rfl, rfl, rfl, rfl, rfl⟩
  obtain ⟨fPort, fClean, fProm, fBroken⟩ := Pkg.shadowRegs_fget y port
  rw [← hu] at fPort fClean fProm fBroken
  have same : y.SameButLog u := hu ▸ Pkg.shadowRegs_same y _
  refine ⟨?_, ?_, ?_, ?_, ?_, ?_, ?_⟩
  · rw [after.dig, show u.dig = y.dig from (congrArg Pkg.dig same :), hy, Pkg.updDig, early.dig]
  · rw [after.fget (by decide) (by decide), fPort]
  · rw [after.fget (by decide) (by decide), fClean]
  · rw [after.fget (by decide) (by decide), fProm]
  · rw [after.fget (by decide) (by decide), fBroken]
  · have running : u.host.running = q.host.running ++ [c] := by
      rw [hu, hy]; exact Pkg.goOn_running q c
    rw [ht, Pkg.shadowBegin_fit h port, ← hy, ← hu]
    exact view.goesOn running
  · refine Pkg.byCommand_of_effect early after ?_ ?_ ?_ ?_ ?_
    · rw [show u.fens = y.fens from (congrArg Pkg.fens same :), hy, Pkg.updDig]
    · rw [show u.samps = y.samps from (congrArg Pkg.samps same :), hy, Pkg.updDig]
    · rw [show u.marks = y.marks from (congrArg Pkg.marks same :), hy, Pkg.updDig]
    · intro a _ m
      rw [hu, hy]
      exact Pkg.keepsReg_shadowRegs ((q.goOn c).updDig _) _ (fun e => m (by simp [e])) fun e => m (by simp [e])
    · unfold Pkg.SameButLog at same
      rw [after.frame, same, hy, Pkg.updDig, early.frame]

theorem Pkg.shadowEnd_pupil (h : q.drive = true) : q.shadowEnd c = (q.goOn c).updJob fun j => { j with disarmReq := true } := by
  simp [Pkg.shadowEnd, h]
theorem Pkg.shadowEnd_tutor (h : q.drive = false) (role : q.dig.role = 1) :
    q.shadowEnd c = (q.goOn c).updDig fun g => { g with pendingRole := 4 } := by
  simp [Pkg.shadowEnd, h, role]
theorem Pkg.shadowEnd_none (h : q.drive = false) (role : q.dig.role ≠ 1) (pending : q.dig.pendingRole = 0) :
    q.shadowEnd c = q.done c 0 0 := by
  simp [Pkg.shadowEnd, h, role, pending]

/-! TIME_REBASE (R110). -/

theorem ofLe_lt (bs : List Byte) : ofLe bs < 256 ^ bs.length := by
  induction bs with
  | nil => simp [ofLe]
  | cons b bs ih =>
    have := b.isLt
    rw [ofLe, List.length_cons, Nat.pow_succ]
    omega
theorem leAt_lt (bs : List Byte) (off n : Nat) : leAt bs off n < 256 ^ n := by
  have h := ofLe_lt (sliceB bs off n)
  rwa [show (sliceB bs off n).length = n by simp [sliceB, padTo]; omega] at h

/-- The base that TIME_REBASE leaves: SET puts it at a count, ADOPT lets it acquire (R110). -/
def TBase.rebased (x : TBase) (c : Cmd) : TBase :=
  if c.le 0x11 1 = 2 then { x with count := c.le 0x18 8, frac := 0, lastUse := c.le 0x18 8 }
  else { x with state := .acquire, phaseStepped := false, lockN := 0, acqN := 0, lastUse := x.count }

theorem Pkg.timeRebase_busy (h : p.baseBusy (decide (c.le 0x10 1 = 2)) = true) : p.timeRebase c = p.final c 0x0421 0 0 := by
  simp [Pkg.timeRebase, h]
theorem Pkg.timeRebase_free (h : p.baseBusy (decide (c.le 0x10 1 = 2)) = false) :
    p.timeRebase c = ((p.setTb (decide (c.le 0x10 1 = 2)) ((p.tb (decide (c.le 0x10 1 = 2))).rebased c)).log1
      .bell 0 0x0054 0 none).done c 0 0 := by
  have count : c.le 0x18 8 % 18446744073709551616 = c.le 0x18 8 := Nat.mod_eq_of_lt (leAt_lt c.rec_ 0x18 8)
  unfold Pkg.timeRebase
  simp only [h]
  unfold Pkg.rebase TBase.rebased
  by_cases mode : c.le 0x11 1 = 2 <;> simp [mode, count]

theorem Pkg.SameView.early (h : p.SameView q) (c : Cmd) (part : p.part = q.part) : (p.early c).SameView (q.early c) := by
  rw [Pkg.early_eq, Pkg.early_eq, show p.earlyOf c = q.earlyOf c by rw [Pkg.earlyOf, Pkg.earlyOf, part]]
  exact Pkg.SameView.foldl (fun _ _ x h => h.complete x) _ h

/-- Answering leaves the log as it is. -/
theorem Pkg.Logged.path {u : Pkg} {b : Blk} {i code time info : Nat} (h : q.Logged u b i code time info) (after : u.PathOnly t) :
    q.Logged t b i code time info := by
  have base := Blk.base_mod b i
  have reg (o : Nat) (ho : o < 0x100) : t.reg b i o = u.reg b i o := after.reg (by omega) (by omega)
  obtain ⟨⟨count, last, first, any⟩, entry⟩ := h
  unfold Pkg.Logged Pkg.ErrRegs
  dsimp only
  rw [reg 0x038 (by decide), reg 0x040 (by decide), reg 0x048 (by decide), reg 0x020 (by decide), after.evq]
  exact ⟨⟨count, last, first, any⟩, entry⟩

theorem Pkg.timeRebase_rebased {d : Bool} (hd : d = decide (c.le 0x10 1 = 2)) (h : q.baseBusy d = false)
    (ht : t = (q.timeRebase c).careCompletions) :
    t.bell = (q.setTb d ((q.tb d).rebased c)).bell ∧ q.Ends t c 0 0 ∧ q.Logged t .bell 0 0x0054 t.tb1 0 ∧
    q.ByCommand t { q with bell := t.bell } := by
  obtain ⟨x, hx⟩ : ∃ x, x = q.setTb d ((q.tb d).rebased c) := ⟨_, rfl⟩
  obtain ⟨u, hu⟩ : ∃ u, u = x.log1 .bell 0 0x0054 0 none := ⟨_, rfl⟩
  have eq : q.timeRebase c = u.done c 0 0 := by subst hd; rw [Pkg.timeRebase_free h, ← hx, ← hu]
  have after : u.PathOnly t := by
    rw [ht, eq]
    exact ((Pkg.PathOnly.early u c).trans (.final _ c 0 0 0)).trans (.careCompletions _)
  have same : x.SameButLog u := hu ▸ Pkg.log_same x _ _ _ _ _ _
  have bell : t.bell = x.bell := after.bell.trans (congrArg Pkg.bell same :)
  refine ⟨hx ▸ bell, ?_, ?_, ?_⟩
  · have view : u.SameView q := by
      rw [hu]
      refine (Pkg.SameView.log x _ _ _ _ _ _).symm.trans ?_
      rw [hx]
      cases d <;> exact ⟨rfl, rfl, rfl, rfl, rfl, rfl, rfl, rfl⟩
    rw [ht, eq]
    exact (view.early c (by rw [show u.part = x.part from (congrArg Pkg.part same :), hx]; rfl)).ends 0 0
  · have logged : q.Logged u .bell 0 0x0054 x.tb1 0 := by
      rw [hu, hx]; exact Pkg.log_logged (q.setTb d _) _ _ _ _ _ _
    rw [show t.tb1 = x.tb1 from congrArg (fun b : Bell => b.tb1.count) bell]
    exact logged.path after
  · refine Pkg.byCommand_of_effect (.refl q) after ?_ ?_ ?_ ?_ ?_
    · rw [show u.fens = x.fens from (congrArg Pkg.fens same :), hx]; rfl
    · rw [show u.samps = x.samps from (congrArg Pkg.samps same :), hx]; rfl
    · rw [show u.marks = x.marks from (congrArg Pkg.marks same :), hx]; rfl
    · intro a log _
      have set : q.KeepsReg a x := by rw [hx, Pkg.setTb]; exact .refl a q
      have logged : x.KeepsReg a u := by rw [hu]; exact Pkg.keepsReg_log_of_not_isLogReg x _ _ _ _ _ _ log
      exact set.trans logged
    · unfold Pkg.SameButLog at same
      rw [after.frame, same, hx, Pkg.setTb]

end
end Sys2Proof.Machine

namespace Sys2Proof.Machine
open Sys2Proof

/-! What the end of a plan leaves as it is, and what it can only put an end to (R353, R414, R461). -/

/-- Registers that the end of a plan does not write: JOB.START, JOB.STAT and FEN.MAP. -/
def stays (a : Nat) : Prop := a = 0xC110 ∨ a = 0xC130 ∨ ∃ f, f < 288 ∧ a = 0x1000100 + f * 0x4000

/-- A register that is neither one of them nor JOB.STATE. -/
def elsewhere (a : Nat) : Prop := ¬ stays a ∧ a ≠ 0xC100

/-- Outside JOB's page and those of the fens nothing stays or holds JOB.STATE. -/
theorem elsewhere_of_page {a : Nat} (job : a < 0xC000 ∨ 0x10000 ≤ a) (fen : a < 0x1000000 ∨ 0x1480000 ≤ a) : elsewhere a := by
  refine ⟨?_, by omega⟩
  rintro (h | h | ⟨f, hf, h⟩) <;> omega
/-- Neither do the first offsets of a page, where its log and its counters are. -/
theorem elsewhere_of_off {a : Nat} (h : a % 0x4000 < 0x100) : elsewhere a := by
  refine ⟨?_, by omega⟩
  rintro (e | e | ⟨f, hf, e⟩) <;> omega

/-- No request is ACTIVE and no batch slot is taken (R353). -/
def Roll.Quiet (r : Roll) : Prop := r.slots = [] ∧ ∀ i, (AMap.getD r.entries i .init).state ≠ 2

/-- From `p` to `q` no fen, sampler or register of `stays` has changed; no command has been taken into progress, no plan has
started to run on TB1 or to start, no DISARM has been asked for, and a quiet Roll is quiet still. -/
structure Pkg.Subsides (p q : Pkg) : Prop where
  part : q.part = p.part
  fens : q.fens = p.fens
  samps : q.samps = p.samps
  regs : ∀ a, stays a → p.KeepsReg a q
  running : ∀ x ∈ q.host.running, x ∈ p.host.running
  tb1Run : p.tb1Run = false → q.tb1Run = false
  disarmReq : p.job.disarmReq = false → q.job.disarmReq = false
  state : p.job.state ≠ 5 → q.job.state ≠ 5
  roll : p.roll.Quiet → q.roll.Quiet

section
variable {p q r : Pkg}

namespace Pkg.Subsides

theorem refl (p : Pkg) : p.Subsides p := ⟨rfl, rfl, rfl, fun _ _ => rfl, fun _ h => h, id, id, id, id⟩
theorem trans (h : p.Subsides q) (g : q.Subsides r) : p.Subsides r :=
  ⟨g.part.trans h.part, g.fens.trans h.fens, g.samps.trans h.samps, fun a s => (h.regs a s).trans (g.regs a s),
    fun x m => h.running x (g.running x m), g.tb1Run ∘ h.tb1Run, g.disarmReq ∘ h.disarmReq, g.state ∘ h.state, g.roll ∘ h.roll⟩
theorem foldl {α : Type} {f : Pkg → α → Pkg} (hf : ∀ (p : Pkg) x, p.Subsides (f p x)) (l : List α) (p : Pkg) :
    p.Subsides (l.foldl f p) :=
  List.foldlRecOn (motive := fun (q : Pkg) => p.Subsides q) l f (.refl p) fun q h x _ => h.trans (hf q x)
theorem ite {c : Prop} [Decidable c] (h : p.Subsides q) (g : p.Subsides r) : p.Subsides (if c then q else r) := by
  split <;> assumption

theorem noneRuns (h : p.Subsides q) {op : Nat} (ended : p.noneRuns op) : q.noneRuns op := fun x m => ended x (h.running x m)
theorem fget (h : p.Subsides q) {f : Fld} {i : Nat} (s : stays (f.at_ i)) : q.fget f i = p.fget f i :=
  Pkg.KeepsReg.fget (h.regs _ s)

theorem tb1Run_of_keeps (h : p.KeepsReg 0xC100 q) : p.tb1Run = false → q.tb1Run = false := by
  have field : q.fget F.jobStateTb1Run 0 = p.fget F.jobStateTb1Run 0 := Pkg.KeepsReg.fget h
  rw [Pkg.tb1Run, Pkg.tb1Run, Pkg.fon_congr field]
  exact id

/-- A change of what is not spoken of. -/
theorem of_eq (part : q.part = p.part) (fens : q.fens = p.fens) (samps : q.samps = p.samps) (regs : q.regs = p.regs)
    (running : q.host.running = p.host.running) (job : q.job = p.job) (roll : q.roll = p.roll) : p.Subsides q where
  part := part
  fens := fens
  samps := samps
  regs a _ := congrArg (AMap.find? · a) regs
  running x m := running ▸ m
  tb1Run := tb1Run_of_keeps (congrArg (AMap.find? · _) regs)
  disarmReq := by rw [job]; exact id
  state := by rw [job]; exact id
  roll := by rw [roll]; exact id

/-- A change of registers elsewhere, and of the log. -/
theorem of_log (h : p.SameButLog q) (regs : ∀ a, stays a ∨ a = 0xC100 → p.KeepsReg a q) : p.Subsides q where
  part := (congrArg Pkg.part h :)
  fens := (congrArg Pkg.fens h :)
  samps := (congrArg Pkg.samps h :)
  regs a s := regs a (.inl s)
  running x m := by rwa [show q.host.running = p.host.running from (congrArg (fun p : Pkg => p.host.running) h :)] at m
  tb1Run := tb1Run_of_keeps (regs _ (.inr rfl))
  disarmReq := by rw [show q.job = p.job from (congrArg Pkg.job h :)]; exact id
  state := by rw [show q.job = p.job from (congrArg Pkg.job h :)]; exact id
  roll := by rw [show q.roll = p.roll from (congrArg Pkg.roll h :)]; exact id

theorem ne_of_elsewhere {a o : Nat} (h : stays a ∨ a = 0xC100) (e : elsewhere o) : a ≠ o := by
  rintro rfl
  exact h.elim e.1 e.2
theorem fset (p : Pkg) {f : Fld} {i : Nat} (v : Nat) (h : elsewhere (f.at_ i)) : p.Subsides (p.fset f i v) :=
  of_log (Pkg.fset_same p f i v) fun _ s => Pkg.keepsReg_fset p v (ne_of_elsewhere s h)
theorem fadd (p : Pkg) {f : Fld} {i : Nat} (n : Nat) (h : elsewhere (f.at_ i)) : p.Subsides (p.fadd f i n) :=
  of_log (Pkg.fadd_same p f i n) fun _ s => Pkg.keepsReg_fadd p n (ne_of_elsewhere s h)
theorem intRaw (p : Pkg) (b : Blk) (i k : Nat) : p.Subsides (p.intRaw b i k) :=
  of_log (Pkg.intRaw_same p b i k) fun _ s => Pkg.keepsReg_intRaw p k
    (ne_of_elsewhere s (elsewhere_of_off (by have := Blk.base_mod b i; omega)))
theorem of_counted (h : p.SameButLog q) {b : Blk} {i : Nat} (c : Pkg.Counted b i p q) : p.Subsides q :=
  of_log h fun a s => c.regs a fun o => ne_of_elsewhere s (elsewhere_of_off (by unfold countOff at o; omega)) rfl
theorem perf (p : Pkg) (b : Blk) (i code n : Nat) (a : Option Attr) : p.Subsides (p.perf b i code n a) :=
  of_counted (Pkg.perf_same p b i code n a) (Pkg.perf_counted p b i code n a)
theorem log (p : Pkg) (b : Blk) (i code time info : Nat) (k : Option Nat) : p.Subsides (p.log b i code time info k) := by
  refine of_log (Pkg.log_same p b i code time info k) fun a s => Pkg.keepsReg_log p b i code time info k ?_ ?_
  · obtain (rfl | rfl | ⟨f, hf, rfl⟩) | rfl := s <;> omega
  · exact ne_of_elsewhere s (elsewhere_of_page (by decide) (by decide))

/-- The path of a command puts none into progress. -/
theorem of_path (h : p.PathOnly q) (running : ∀ x ∈ q.host.running, x ∈ p.host.running) : p.Subsides q where
  part := h.part
  fens := h.fens
  samps := h.samps
  regs a s := h.regs a (ne_of_elsewhere (.inl s) (elsewhere_of_page (by decide) (by decide)))
    (ne_of_elsewhere (.inl s) (elsewhere_of_page (by decide) (by decide)))
  running := running
  tb1Run := tb1Run_of_keeps (h.regs _ (by decide) (by decide))
  disarmReq := by rw [h.job]; exact id
  state := by rw [h.job]; exact id
  roll := by rw [h.roll]; exact id

theorem raise (p : Pkg) (v : Nat) : p.Subsides (p.raise v) := by
  refine of_path (.raise p v) fun x m => ?_
  have host : (p.raise v).host.running = p.host.running := by unfold Pkg.raise; split <;> rfl
  exact host ▸ m
theorem final (p : Pkg) (c : Cmd) (status r0 r1 : Nat) : p.Subsides (p.final c status r0 r1) :=
  of_path (.final p c status r0 r1) fun x m => by
    rw [Pkg.final_running] at m
    exact (List.mem_filter.mp m).1
theorem endOp (p : Pkg) (op status r0 r1 : Nat) : p.Subsides (p.endOp op status r0 r1) :=
  of_path (.endOp p op status r0 r1) fun _ m => (Pkg.endOp_running m).1
theorem endNo (p : Pkg) (n status r0 r1 : Nat) : p.Subsides (p.endNo n status r0 r1) :=
  of_path (.endNo p n status r0 r1) fun _ m => Pkg.endNo_running m
theorem careSend (p : Pkg) (typ : Nat) (body : List Byte) : p.Subsides (p.careSend typ body) :=
  of_path (.careSend p typ body) fun x m => by rwa [Pkg.careSend_host] at m
theorem careCompletions (p : Pkg) : p.Subsides p.careCompletions :=
  of_path (.careCompletions p) fun x m => by simpa using m

theorem updDig (p : Pkg) (g : Dig → Dig) : p.Subsides (p.updDig g) := of_eq rfl rfl rfl rfl rfl rfl rfl
theorem updPort (p : Pkg) (i : Nat) (g : Port → Port) : p.Subsides (p.updPort i g) := of_eq rfl rfl rfl rfl rfl rfl rfl
theorem updDram (p : Pkg) (g : Dram → Dram) : p.Subsides (p.updDram g) := of_eq rfl rfl rfl rfl rfl rfl rfl
theorem setStack (p : Pkg) (i : Nat) (x : Stack) : p.Subsides (p.setStack i x) := of_eq rfl rfl rfl rfl rfl rfl rfl
theorem updStep (p : Pkg) (k : Nat) (g : DigStep → DigStep) : p.Subsides (p.updStep k g) := .updDig p _
theorem hostWrite (p : Pkg) (a : Nat) (bs : List Byte) : p.Subsides (p.hostWrite a bs) := of_eq rfl rfl rfl rfl rfl rfl rfl
theorem memWrite (p : Pkg) (cls a : Nat) (bs : List Byte) : p.Subsides (p.memWrite cls a bs) :=
  ite (.updDram p _) (.updDram p _)
theorem updJob (p : Pkg) {g : Job → Job} (d : (g p.job).disarmReq = p.job.disarmReq)
    (s : (g p.job).state = p.job.state ∨ (g p.job).state ≠ 5) : p.Subsides (p.updJob g) where
  part := rfl
  fens := rfl
  samps := rfl
  regs _ _ := rfl
  running _ m := m
  tb1Run := id
  disarmReq h := d.trans h
  state h := s.elim (fun e => e ▸ h) id
  roll := id
theorem updRoll (p : Pkg) {g : Roll → Roll} (h : p.roll.Quiet → (g p.roll).Quiet) : p.Subsides (p.updRoll g) where
  part := rfl
  fens := rfl
  samps := rfl
  regs _ _ := rfl
  running _ m := m
  tb1Run := id
  disarmReq := id
  state := id
  roll := h
theorem jobTo (p : Pkg) : p.Subsides (p.jobTo 2) := .updJob p rfl (.inr (by decide : (2 : Nat) ≠ 5))
theorem refreshSets (p : Pkg) : p.Subsides p.refreshSets := by
  rw [Pkg.refreshSets_frame]
  exact of_eq rfl rfl rfl rfl rfl rfl rfl

/-! Reads of stacked DRAM, and the digest log (R254, R413, R414). -/

theorem fault (p : Pkg) {f : Fld} (h : elsewhere (f.at_ 0)) : p.Subsides (p.fault f) :=
  ite (.refl p) ((fset p 1 h).trans (.intRaw _ _ _ _))
theorem ue (p : Pkg) : p.Subsides p.ue :=
  (fault p (f := F.chipFaultUe) (elsewhere_of_page (by decide) (by decide))).trans
    (.fadd _ _ (elsewhere_of_page (by decide) (by decide)))
theorem sdram_elsewhere (f : Fld) (s : Nat) (h : f.blk = .sdram) : elsewhere (f.at_ s) := by
  have base : f.at_ s = 0x02100000 + s * 0x4000 + f.off := by rw [Fld.at_, h, Blk.base]
  exact elsewhere_of_page (by omega) (by omega)
theorem listRow (p : Pkg) (s k : Nat) : p.Subsides (p.listRow s k) :=
  ite (.refl p) ((setStack p s _).trans (.fset _ _ (sdram_elsewhere _ s rfl)))
theorem dramPut (p : Pkg) (a d : Nat) : p.Subsides (p.dramPut a d) := .updDram p _
theorem freeNext (p : Pkg) : p.Subsides p.freeNext := of_eq rfl rfl rfl rfl rfl rfl rfl
theorem dramReadWord (p : Pkg) (a : Nat) : p.Subsides (p.dramReadWord a).1 := by
  have counted (code k : Nat) (f : Fld) (h : f.blk = .sdram) :
      p.Subsides ((p.log1 .sdram k code 0 none).fadd f k 1) := (log p _ _ _ _ _ _).trans (.fadd _ _ (sdram_elsewhere f k h))
  unfold Pkg.dramReadWord
  extract_lets s k c1 n c2 c3 u1 u2
  have corrected : p.Subsides c3 :=
    ((counted 0x0070 s F.sdramEccCe rfl).trans (setStack _ _ _)).trans (ite (.listRow c2 s k) (.refl c2))
  have uncorrected : p.Subsides u2 :=
    ((counted 0x0071 s F.sdramEccUe rfl).trans (ue _)).trans (fset u1 (f := F.sdramErrAddrOffset) _ (sdram_elsewhere _ s rfl))
  split
  · exact .refl p
  · exact corrected.trans (dramPut c3 _ _)
  · exact (uncorrected.trans (listRow u2 s k)).trans (freeNext _)
theorem memGet (p : Pkg) (a n : Nat) : p.Subsides (p.memGet 0 a n).1 :=
  .foldl (fun p x => .dramReadWord p x) _ p

theorem dlog_elsewhere (f : Fld) (h : f.blk = .dlog) (ho : f.off < 0x4000) : elsewhere (f.at_ 0) := by
  have base : f.at_ 0 = 0x10000 + f.off := by rw [Fld.at_, h, Blk.base]
  exact elsewhere_of_page (by omega) (by omega)
theorem dlogRec (p : Pkg) (ty flags cause points step : Nat) (body : List Byte) :
    p.Subsides (p.dlogRec ty flags cause points step body) := by
  have index (q : Pkg) (v : Nat) : q.Subsides (q.fset F.dlogHeadIndex 0 v) := fset q v (dlog_elsewhere _ rfl (by decide))
  unfold Pkg.dlogRec
  extract_lets h fl b p1 p2
  have written : p.Subsides p2 := (memWrite p 0 _ _).trans (index _ _)
  exact ite (written.trans (.fadd _ _ (dlog_elsewhere _ rfl (by decide)))) written
theorem traceRec (p : Pkg) (t : Nat × Nat) : p.Subsides (p.traceRec t) := by
  unfold Pkg.traceRec
  split
  · exact .refl p
  · exact ite (.fadd _ _ (dlog_elsewhere _ rfl (by decide))) ((memWrite p 0 _ _).trans (.updDig _ _))
theorem sendSdig (p : Pkg) (k : Nat) (s : DigStep) : p.Subsides (p.sendSdig k s) := .foldl (fun p _ => .updPort p _ _) _ p
theorem cleanReset (p : Pkg) : p.Subsides p.cleanReset := .fset p _ (dlog_elsewhere _ rfl (by decide))
theorem dlog (p : Pkg) (code info : Nat) (k : Option Nat) : p.Subsides (p.dlog code info k) := .log p _ _ _ _ _ _
theorem compareStep (p : Pkg) (k : Nat) : p.Subsides (p.compareStep k) := by
  have clean (q : Pkg) (n : Nat) : q.Subsides (q.fadd F.dlogShadowCntClean 0 n) := fadd q n (dlog_elsewhere _ rfl (by decide))
  have mismatch (q : Pkg) (n : Nat) : q.Subsides (q.fadd F.dlogShadowCntMismatch 0 n) :=
    fadd q n (dlog_elsewhere _ rfl (by decide))
  have promotable (q : Pkg) : q.Subsides (q.fset F.dlogShadowPromotable 0 1) := fset q 1 (dlog_elsewhere _ rfl (by decide))
  unfold Pkg.compareStep
  split
  · split
    · exact .refl p
    · extract_lets p1 same
      have erased : p.Subsides p1 := .updDig p _
      refine erased.trans ?_
      split
      · exact (((memGet _ _ _).trans (.memWrite _ _ _ _)).trans (.dlog _ _ _ _)).trans ((mismatch _ _).trans (.cleanReset _))
      · split
        · exact ite ((clean _ _).trans ((promotable _).trans (.dlog _ _ _ _))) (clean _ _)
        · exact .cleanReset _
  · exact .refl p
theorem stepRecord (p : Pkg) (k : Nat) (s : DigStep) : p.Subsides (p.stepRecord k s) := by
  have armed (q : Pkg) : q.Subsides (q.fset F.dlogTraceArmed 0 0) := fset q 0 (dlog_elsewhere _ rfl (by decide))
  have defective (q : Pkg) (n : Nat) : q.Subsides (q.fadd F.dlogStatDefective 0 n) := fadd q n (dlog_elsewhere _ rfl (by decide))
  unfold Pkg.stepRecord
  extract_lets inc p1 h fl p2 p3 p4 v o
  have traced : p.Subsides p1 := ite ((foldl (fun p t => .traceRec p t) _ p).trans (armed _)) (.refl p)
  have noted : p.Subsides p4 := ((traced.trans (.dlogRec _ _ _ _ _ _ _)).trans (defective _ _)).trans (.updDig _ _)
  refine noted.trans (ite (.sendSdig _ _ _) (ite ((updDig _ _).trans (.compareStep _ _)) (.refl _)))

/-! Digest points (R367, R411). -/

theorem addUnit (d : DPoint) (taken : AMap Beat) (die k : Nat) (p : Pkg) (u : Nat) :
    p.Subsides (Pkg.addUnit d taken die k p u) := by
  unfold Pkg.addUnit
  dsimp only
  exact ite (ite ((updStep p _ _).trans (.updDig _ _)) (.updStep p _ _))
    (ite (ite ((updStep p _ _).trans (.updDig _ _)) (.updStep p _ _)) (ite ((updStep p _ _).trans (.updDig _ _)) (.refl p)))
theorem commitNotice (die k : Nat) (p : Pkg) (n : List Byte) : p.Subsides (Pkg.commitNotice die k p n) := by
  unfold Pkg.commitNotice
  extract_lets slot m idx es sum poison p1 p2
  have folded : p.Subsides p2 := (updStep p _ _).trans (.updDig _ _)
  exact ite (.refl p) (ite (folded.trans (.dlog _ _ _ _)) folded)
theorem foldPoint (p : Pkg) (o : DigPoint) : p.Subsides (p.foldPoint o) := by
  unfold Pkg.foldPoint
  split
  · exact .refl p
  · extract_lets die units sum p1 b0 p2 p3 p4
    have units : p.Subsides p1 := .foldl (fun p u => .addUnit _ _ _ _ p u) _ p
    have notices : p.Subsides p2 := units.trans (ite (.foldl (fun p n => .commitNotice _ _ p n) _ _) (.refl _))
    have mask : p.Subsides p3 := notices.trans (ite (.updStep _ _ _) (.refl _))
    exact (mask.trans (.updStep _ _ _)).trans (.updDig _ _)
theorem finishSteps (p : Pkg) : p.Subsides p.finishSteps := by
  have incomplete (q : Pkg) (n : Nat) : q.Subsides (q.fadd F.dlogStatIncomplete 0 n) :=
    fadd q n (dlog_elsewhere _ rfl (by decide))
  unfold Pkg.finishSteps
  extract_lets p1 ended
  refine (foldl (fun p o => .foldPoint p o) _ p).trans (foldl (fun p x => ?_) ended p1)
  exact (((updDig p _).trans (incomplete _ _)).trans (.foldl (fun p _ => .dlog p _ _ _) _ _)).trans (.stepRecord _ _ _)

end Pkg.Subsides
end
end Sys2Proof.Machine

namespace Sys2Proof.Machine
open Sys2Proof

/-! The Roll as its requests close and its records go out (R330, R343, R353). -/

section
variable {p q r : Pkg}

theorem Roll.Quiet.set {x : Roll} (h : x.Quiet) (i : Nat) {e : REntry} (he : e.state ≠ 2) (m : AMap REntry)
    (hm : m = AMap.set REntry.init x.entries i e) : ({ x with entries := m } : Roll).Quiet := by
  subst hm
  refine ⟨h.1, fun j => ?_⟩
  by_cases same : j = i
  · subst same
    rwa [AMap.getD_set_same]
  · rw [AMap.getD_set_other _ _ _ _ same]
    exact h.2 j

namespace Pkg.Subsides

/-- A change of the Roll beside its slots and entries. -/
theorem updRoll_beside (p : Pkg) {g : Roll → Roll} (slots : (g p.roll).slots = p.roll.slots)
    (entries : (g p.roll).entries = p.roll.entries) : p.Subsides (p.updRoll g) :=
  .updRoll p fun h => ⟨slots.trans h.1, fun i => by rw [entries]; exact h.2 i⟩
/-- An entry is written, and a quiet Roll does not get an ACTIVE one by it. -/
theorem setEntry (p : Pkg) (i : Nat) {e : REntry} (h : p.roll.Quiet → e.state ≠ 2) : p.Subsides (p.setEntry i e) :=
  .updRoll p fun quiet => quiet.set i (h quiet) _ rfl
theorem egPush (p : Pkg) (e : EgRec) : p.Subsides (p.egPush e) := .updRoll_beside p rfl rfl
theorem updAd (p : Pkg) (h : Nat) (g : AdEnt → AdEnt) : p.Subsides (p.updAd h g) := .updRoll_beside p rfl rfl
theorem roll_elsewhere (f : Fld) (h : f.blk = .roll) : elsewhere (f.at_ 0) := by
  have base : f.at_ 0 = 0x2144000 + f.off := by rw [Fld.at_, h, Blk.base]
  exact elsewhere_of_page (by omega) (by omega)
theorem adRelease (p : Pkg) (h gen : Nat) : p.Subsides (p.adRelease h gen) := (egPush p _).trans (.fadd _ _ (roll_elsewhere _ rfl))
theorem adUnref (p : Pkg) (h gen k : Nat) : p.Subsides (p.adUnref h gen k) := by
  unfold Pkg.adUnref
  extract_lets e
  split
  · exact .refl p
  · exact ite ((updAd p _ _).trans (.adRelease _ _ _)) (.updAd p _ _)
theorem closeReq (p : Pkg) (i cause : Nat) : p.Subsides (p.closeReq i cause) := by
  unfold Pkg.closeReq
  extract_lets e drain draining p1 p2 tag p3 p4
  have slot : p.Subsides p1 := by
    unfold p1
    split
    · next active => exact .updRoll p fun quiet => absurd active (quiet.2 i)
    · exact .refl p
  have closed : p.Subsides p4 :=
    ((slot.trans (setEntry p1 i fun _ => (by decide : (3 : Nat) ≠ 2))).trans (egPush p2 _)).trans
      (fadd p3 _ (roll_elsewhere _ rfl))
  exact ite (.refl p) (ite (closed.trans (adUnref p4 _ _ _)) closed)
theorem readEntry (p : Pkg) (i : Nat) : p.Subsides (p.readEntry i) := ite ((closeReq p i _).trans (.log _ _ _ _ _ _ _)) (.refl p)

end Pkg.Subsides

theorem REntry.tokenPosted_state (e : REntry) (now n idx : Nat) : (e.tokenPosted now n idx).1.state = e.state := by
  unfold REntry.tokenPosted
  split
  · rfl
  · split <;> rfl

namespace Pkg.Subsides

theorem egPost (p : Pkg) (e : EgRec) : p.Subsides (p.egPost e) := by
  have head (q : Pkg) (v : Nat) : q.Subsides (q.fset F.rollEgressHead 0 v) := fset q v (roll_elsewhere _ rfl)
  have phase (q : Pkg) (v : Nat) : q.Subsides (q.fset F.rollEgressHeadPhase 0 v) := fset q v (roll_elsewhere _ rfl)
  unfold Pkg.egPost
  extract_lets now p1 p2 h sz x fl b p3 p4 p5 p6
  have read : p.Subsides p1 := ite (.readEntry p _) (.refl p)
  have token : p1.Subsides p2 := by
    refine ite ?_ (.refl p1)
    refine (setEntry p1 _ fun quiet => ?_).trans (.fadd _ _ (roll_elsewhere _ rfl))
    exact (REntry.tokenPosted_state _ _ _ _).trans_ne (quiet.2 _)
  have posted : p.Subsides p6 :=
    ((((read.trans token).trans (hostWrite p2 _ _)).trans (head p3 _)).trans (phase p4 _)).trans (perf p5 _ _ _ _ _)
  exact ite (posted.trans ((setEntry p6 _ fun _ => (by decide : REntry.init.state ≠ 2)).trans (.updRoll_beside _ rfl rfl))) posted
theorem egDrain (k : Nat) (p : Pkg) (vs : List (Nat × Nat)) : p.Subsides (Pkg.egDrain k p vs).1 := by
  induction k generalizing p vs with
  | zero => exact .refl p
  | succ k ih =>
    unfold Pkg.egDrain
    split
    · exact .refl p
    · split
      · exact ((updRoll_beside p rfl rfl).trans (.egPost _ _)).trans (ih _ _)
      · exact .refl p
theorem egress (p : Pkg) : p.Subsides p.egress := by
  unfold Pkg.egress
  extract_lets r vs
  exact ((egDrain _ p []).trans (.foldl (fun p v => .raise p _) _ _)).trans (.updRoll_beside _ rfl rfl)
theorem closeActive (p : Pkg) : p.Subsides p.closeActive := by
  unfold Pkg.closeActive
  extract_lets p1
  exact (foldl (fun p x => .closeReq p _ _) _ p).trans (.updRoll p1 fun h => ⟨rfl, h.2⟩)

end Pkg.Subsides

/-! Closing all ACTIVE requests leaves none (R353). -/

theorem Pkg.adUnref_entries (p : Pkg) (h gen k : Nat) : (p.adUnref h gen k).roll.entries = p.roll.entries := by
  have released (q : Pkg) (h gen : Nat) : (q.adRelease h gen).roll.entries = q.roll.entries := by
    unfold Pkg.adRelease Pkg.fadd
    split <;> rfl
  unfold Pkg.adUnref
  extract_lets e
  split
  · rfl
  · extract_lets s s1
    split
    · exact released _ _ _
    · rfl

/-- A request that closes is ACTIVE no more, and the others are as they were. -/
theorem Pkg.closeReq_active {i cause j : Nat} (h : ((p.closeReq i cause).entry j).state = 2) :
    j ≠ i ∧ (p.entry j).state = 2 := by
  unfold Pkg.closeReq at h
  extract_lets e drain draining p1 p2 tag p3 p4 at h
  split at h
  · next idle =>
    have closed : e.state ≠ 2 := fun active => by simp [active] at idle
    refine ⟨?_, h⟩
    rintro rfl
    exact closed h
  · have slots : p1.roll.entries = p.roll.entries := by unfold p1; split <;> rfl
    have entries : p4.roll.entries = AMap.set .init p.roll.entries i { e with state := 3, cause := cause, slot := 0xFFFF } := by
      have counted : p4.roll = p3.roll := (congrArg Pkg.roll (Pkg.fadd_same p3 F.rollStatFailed 0 _) :)
      rw [counted, ← slots]
      rfl
    have final : (AMap.getD p4.roll.entries j .init).state = 2 := by
      split at h
      · rwa [Pkg.entry, Pkg.adUnref_entries] at h
      · exact h
    rw [entries] at final
    by_cases same : j = i
    · subst same
      rw [AMap.getD_set_same] at final
      exact absurd (show (3 : Nat) = 2 from final) (by decide)
    · rw [AMap.getD_set_other _ _ _ _ same] at final
      exact ⟨same, final⟩

theorem AMap.mem_of_find? {α : Type} {m : AMap α} {i : Nat} {v : α} (h : AMap.find? m i = some v) : (i, v) ∈ m := by
  induction m with
  | nil => cases h
  | cons a m ih =>
    rw [AMap.find?] at h
    split at h
    · next e => cases h; exact e ▸ List.mem_cons_self
    · exact List.mem_cons_of_mem a (ih h)

theorem Pkg.foldl_closeReq_active (cause : Nat) (l : List (Nat × REntry)) (p : Pkg) {j : Nat}
    (h : ((l.foldl (fun (p : Pkg) x => p.closeReq x.1 cause) p).entry j).state = 2) :
    (p.entry j).state = 2 ∧ ∀ x ∈ l, j ≠ x.1 := by
  induction l generalizing p with
  | nil => exact ⟨h, by simp⟩
  | cons a l ih =>
    obtain ⟨active, others⟩ := ih _ h
    obtain ⟨ne, before⟩ := Pkg.closeReq_active active
    exact ⟨before, List.forall_mem_cons.mpr ⟨ne, others⟩⟩

theorem Pkg.closeActive_quiet (p : Pkg) : p.closeActive.roll.Quiet := by
  refine ⟨rfl, fun j active => ?_⟩
  obtain ⟨before, others⟩ := Pkg.foldl_closeReq_active 0x19 _ p active
  have listed : ∃ e, AMap.find? p.roll.entries j = some e ∧ e.state = 2 := by
    unfold Pkg.entry AMap.getD at before
    cases found : AMap.find? p.roll.entries j with
    | none => rw [found] at before; exact absurd before (by decide)
    | some e => rw [found] at before; exact ⟨e, rfl, before⟩
  obtain ⟨e, found, state⟩ := listed
  exact others (j, e) (List.mem_filter.mpr ⟨AMap.mem_of_find? found, by simpa using state⟩) rfl

/-! The next plan is armed no more; the plan that ran is over (R399, R451, R459). -/

namespace Pkg.Subsides

theorem armFail (p : Pkg) (c : Cmd) (status r0 : Nat) : p.Subsides (p.armFail c status r0) :=
  ((log p _ _ _ _ _ _).trans (.final _ _ _ _ _)).trans (.careSend _ _ _)
theorem unarm (p : Pkg) : p.Subsides p.unarm := by
  unfold Pkg.unarm
  extract_lets p1 p2 p3
  have noArm : p.Subsides p1 := by
    unfold p1
    split
    · exact (updJob p rfl (.inl rfl)).trans (.armFail _ _ _ _)
    · exact .refl p
  have plan : p.Subsides p2 := noArm.trans (updJob p1 rfl (.inl rfl))
  have role : p.Subsides p3 := plan.trans (ite ((updDig p2 _).trans (.endOp _ _ _ _ _)) (.refl p2))
  exact (role.trans (jobTo p3)).trans (.refreshSets _)

theorem wlog (p : Pkg) (code : Nat) (k : Option Nat) : p.Subsides (p.wlog code k) := .log p _ _ _ _ _ _
theorem cancelSwitch (p : Pkg) : p.Subsides p.cancelSwitch := by
  unfold Pkg.cancelSwitch
  split
  · next n t no pending =>
    have gone : p.Subsides { p with wgt := { p.wgt with pending := none } } := of_eq rfl rfl rfl rfl rfl rfl rfl
    exact ((gone.trans (wlog _ _ _)).trans (endNo _ no 6 0 0)).trans (refreshSets _)
  · exact .refl p
theorem cancelThrottle (p : Pkg) : p.Subsides p.cancelThrottle := by
  unfold Pkg.cancelThrottle
  split
  · have gone : p.Subsides { p with bell := { p.bell with throttle := none } } := of_eq rfl rfl rfl rfl rfl rfl rfl
    exact gone.trans (.log _ _ _ _ _ _ _)
  · exact .refl p
theorem plannedBack (p : Pkg) : p.Subsides p.plannedBack := by
  unfold Pkg.plannedBack
  extract_lets n
  exact ite (.refl p) ((updJob p rfl (.inl rfl)).trans (.jobTo _))

end Pkg.Subsides

/-- JOB.STATE.TB1_RUN is cleared. -/
theorem Pkg.tb1Run_cleared (p : Pkg) : (p.fset F.jobStateTb1Run 0 0).tb1Run = false := by
  rw [Pkg.tb1Run, Pkg.fon, Pkg.fget_fset _ _ _ _ (by decide) (by decide)]
  rfl
theorem Pkg.Subsides.clearTb1Run (p : Pkg) : p.Subsides (p.fset F.jobStateTb1Run 0 0) where
  part := rfl
  fens := rfl
  samps := rfl
  regs a s := Pkg.keepsReg_fset p 0 fun e => by
    have at_ : F.jobStateTb1Run.at_ 0 = 0xC100 := rfl
    obtain rfl | rfl | ⟨f, _, rfl⟩ := s <;> omega
  running _ m := m
  tb1Run _ := Pkg.tb1Run_cleared p
  disarmReq := id
  state := id
  roll := id

/-- The end of a plan as far as TB1_RUN, and from there (R353, R414). -/
theorem Pkg.planOver_split (p : Pkg) (cause : Nat) :
    ∃ q : Pkg, p.Subsides q ∧ (q.fset F.jobStateTb1Run 0 0).Subsides (p.planOver cause) := by
  refine ⟨((p.endRec cause).cancelSwitch.cancelThrottle).plannedBack, ?_, ?_⟩
  · exact (((Pkg.Subsides.dlogRec p _ _ _ _ _ _).trans (.cancelSwitch _)).trans (.cancelThrottle _)).trans (.plannedBack _)
  · have drive (q : Pkg) : q.Subsides (q.fset F.bellCtrlDrive 0 0) := .fset q 0 (elsewhere_of_page (by decide) (by decide))
    have role (q : Pkg) : q.Subsides (q.fset F.dlogShadowRole 0 0) := .fset q 0 (elsewhere_of_page (by decide) (by decide))
    exact (((drive _).trans (.updDig _ _)).trans (role _)).trans (.refreshSets _)
theorem Pkg.Subsides.planOver (p : Pkg) (cause : Nat) : p.Subsides (p.planOver cause) := by
  obtain ⟨q, before, after⟩ := p.planOver_split cause
  exact (before.trans (.clearTb1Run q)).trans after
theorem Pkg.planOver_tb1Run (p : Pkg) (cause : Nat) : (p.planOver cause).tb1Run = false := by
  obtain ⟨q, _, after⟩ := p.planOver_split cause
  exact after.tb1Run q.tb1Run_cleared

end
end Sys2Proof.Machine

namespace Sys2Proof.Machine
open Sys2Proof

/-! ABORT: the fens, the samplers, then the plan (R461, R462). -/

section
variable {p q r : Pkg} {c : Cmd}

theorem Pkg.fen_setFen_same (p : Pkg) (f : Nat) (x : Fen) : (p.setFen f x).fen f = x := AMap.getD_set_same _ _ _ _
theorem Pkg.fen_setFen_other (p : Pkg) {f j : Nat} (x : Fen) (h : j ≠ f) : (p.setFen f x).fen j = p.fen j :=
  AMap.getD_set_other _ _ _ _ h
theorem Pkg.fen_congr (h : q.fens = p.fens) (f : Nat) : q.fen f = p.fen f := by rw [Pkg.fen, Pkg.fen, h]
theorem Pkg.samp_setSamp_same (p : Pkg) (d : Nat) (x : Samp) : (p.setSamp d x).samp d = x := AMap.getD_set_same _ _ _ _
theorem Pkg.samp_setSamp_other (p : Pkg) {d j : Nat} (x : Samp) (h : j ≠ d) : (p.setSamp d x).samp j = p.samp j :=
  AMap.getD_set_other _ _ _ _ h

/-- Of the fens those of `l` alone have changed; the registers of `stays`, JOB.STATE, the job and the commands in progress are
as they were. -/
structure Pkg.OnlyFens (l : List Nat) (p q : Pkg) : Prop where
  part : q.part = p.part
  fens : ∀ j, j ∉ l → q.fen j = p.fen j
  regs : ∀ a, stays a ∨ a = 0xC100 → p.KeepsReg a q
  running : q.host.running = p.host.running
  job : q.job = p.job

namespace Pkg.OnlyFens
variable {l m : List Nat}

theorem refl (p : Pkg) : Pkg.OnlyFens [] p p := ⟨rfl, fun _ _ => rfl, fun _ _ => rfl, rfl, rfl⟩
theorem trans (h : Pkg.OnlyFens l p q) (g : Pkg.OnlyFens m q r) : Pkg.OnlyFens (l ++ m) p r :=
  ⟨g.part.trans h.part,
    fun j out => (g.fens j fun i => out (List.mem_append_right l i)).trans (h.fens j fun i => out (List.mem_append_left m i)),
    fun a s => (h.regs a s).trans (g.regs a s), g.running.trans h.running, g.job.trans h.job⟩
theorem of_log (h : p.SameButLog q) (regs : ∀ a, stays a ∨ a = 0xC100 → p.KeepsReg a q) : Pkg.OnlyFens [] p q :=
  ⟨(congrArg Pkg.part h :), fun j _ => by rw [Pkg.fen, Pkg.fen, show q.fens = p.fens from (congrArg Pkg.fens h :)], regs,
    (congrArg (fun p : Pkg => p.host.running) h :), (congrArg Pkg.job h :)⟩
theorem fadd (p : Pkg) {f : Fld} {i : Nat} (n : Nat) (h : elsewhere (f.at_ i)) : Pkg.OnlyFens [] p (p.fadd f i n) :=
  of_log (Pkg.fadd_same p f i n) fun _ s => Pkg.keepsReg_fadd p n (Pkg.Subsides.ne_of_elsewhere s h)
theorem perf (p : Pkg) (b : Blk) (i code n : Nat) (a : Option Attr) : Pkg.OnlyFens [] p (p.perf b i code n a) :=
  of_log (Pkg.perf_same p b i code n a) fun _ s => (Pkg.perf_counted p b i code n a).regs _ fun o =>
    Pkg.Subsides.ne_of_elsewhere s (elsewhere_of_off (by unfold countOff at o; omega)) rfl
theorem updFen (p : Pkg) (f : Nat) (g : Fen → Fen) : Pkg.OnlyFens [f] p (p.updFen f g) :=
  ⟨rfl, fun _ out => Pkg.fen_setFen_other p _ (by simpa using out), fun _ _ => rfl, rfl, rfl⟩

/-- The squashes of the samplers' draws leave the fens. -/
theorem sampSquash (l ep8 : Nat) (ds : List Nat) (s : Pkg × Nat) :
    Pkg.OnlyFens [] s.1 (ds.foldl (fun (s : Pkg × Nat) d =>
      let (q, k) := s.1.sampSquash l ep8 d
      (q, s.2 + k)) s).1 :=
  List.foldlRecOn (motive := fun (t : Pkg × Nat) => Pkg.OnlyFens [] s.1 t.1) ds _ (refl s.1)
    fun _ h _ _ => h.trans (m := []) ⟨rfl, fun _ _ => rfl, fun _ _ => rfl, rfl, rfl⟩

end Pkg.OnlyFens

theorem fen_elsewhere (f : Fld) (i : Nat) (h : f.blk = .fen) (lo : 0x100 < f.off) (hi : f.off < 0x4000) : elsewhere (f.at_ i) := by
  have base : f.at_ i = 0x1000000 + i * 0x4000 + f.off := by rw [Fld.at_, h, Blk.base]
  refine ⟨?_, by omega⟩
  rintro (e | e | ⟨k, _, e⟩) <;> omega

theorem Fen.setSluice_foldl_proc (sl : List (Nat × List SlEnt × Nat)) (x : Fen) :
    (sl.foldl (fun x z => x.setSluice z.1 z.2.1) x).proc = x.proc :=
  List.foldlRecOn (motive := fun (y : Fen) => y.proc = x.proc) sl _ rfl fun _ h _ _ => h

/-- The epoch advances in one fen, whose Proctor is otherwise as it was (R148). -/
theorem Pkg.epochAdvance_fen (p : Pkg) (f : Nat) :
    Pkg.OnlyFens [f] p (p.epochAdvance f) ∧
    ((p.epochAdvance f).fen f).proc = { (p.fen f).proc with ep := (p.fen f).proc.ep + 1#64 } := by
  unfold Pkg.epochAdvance
  extract_lets x t ep e8 keep gone p1 p2 sl p3
  have before : Pkg.OnlyFens [] p p2 := ⟨rfl, fun _ _ => rfl, fun _ _ => rfl, rfl, rfl⟩
  have here : Pkg.OnlyFens [f] p p3 := before.trans (Pkg.OnlyFens.updFen p2 f _)
  have proc : (p3.fen f).proc = { (p.fen f).proc with ep := (p.fen f).proc.ep + 1#64 } := by
    unfold p3 Pkg.updFen
    rw [Pkg.fen_setFen_same, Fen.setSluice_foldl_proc]
    rfl
  have drawn := Pkg.OnlyFens.sampSquash (p3.logNum f) e8 (List.range 4) (p3, gone.length)
  split
  next z q n e =>
    rw [e] at drawn
    have squashed : Pkg.OnlyFens [] q (q.fadd F.fenCmdStatSquashed f n) :=
      .fadd q n (fen_elsewhere _ f rfl (by decide) (by decide))
    have after := ((drawn.trans squashed).trans (Pkg.OnlyFens.perf _ .fen f 0x304 n (engine 0))).trans
      (Pkg.OnlyFens.fadd _ (f := F.fenSluiceStatDiscarded) (i := f) ((sl.map fun z => z.2.2).foldl (· + ·) 0)
        (fen_elsewhere _ f rfl (by decide) (by decide)))
    exact ⟨here.trans after, (congrArg Fen.proc (after.fens f List.not_mem_nil)).trans proc⟩

/-- What ABORT makes of a fen `x` (R148, R461). -/
def Fen.Aborted (x y : Fen) : Prop :=
  y.qTe = [] ∧ y.qVe = [] ∧ y.qSm = [] ∧ y.qLx = [] ∧ y.proc.st = .idle ∧ y.proc.held = none ∧ y.proc.waitB = none ∧
  y.proc.ep = x.proc.ep + 1#64

theorem Pkg.abortFen_fen (p : Pkg) (f : Nat) :
    Pkg.OnlyFens [f] p (p.abortFen f) ∧ Fen.Aborted (p.fen f) ((p.abortFen f).fen f) := by
  obtain ⟨only, proc⟩ := p.epochAdvance_fen f
  unfold Pkg.abortFen
  extract_lets p1 x p2
  have counted : Pkg.OnlyFens [] p1 p2 := .fadd p1 _ (fen_elsewhere _ f rfl (by decide) (by decide))
  have ep : (p2.fen f).proc.ep = (p.fen f).proc.ep + 1#64 := by
    rw [counted.fens f List.not_mem_nil, proc]
  refine ⟨?_, ?_⟩
  · have all := (only.trans counted).trans (Pkg.OnlyFens.updFen p2 f fun x =>
      { x with qTe := [], qVe := [], qSm := [], qLx := [],
               proc := { x.proc with st := .idle, held := none, waitB := none, icache := { x.proc.icache with pins := [] } } })
    exact ⟨all.part, fun j out => all.fens j (by simpa using out), all.regs, all.running, all.job⟩
  · clear_value p2
    unfold Fen.Aborted Pkg.updFen
    rw [Pkg.fen_setFen_same]
    exact ⟨rfl, rfl, rfl, rfl, rfl, rfl, rfl, ep⟩

theorem Pkg.foldl_abortFen (l : List Nat) (distinct : l.Nodup) (p : Pkg) :
    Pkg.OnlyFens l p (l.foldl Pkg.abortFen p) ∧ ∀ f ∈ l, Fen.Aborted (p.fen f) ((l.foldl Pkg.abortFen p).fen f) := by
  induction l generalizing p with
  | nil => exact ⟨.refl p, by simp⟩
  | cons f l ih =>
    obtain ⟨notIn, rest⟩ := List.nodup_cons.mp distinct
    obtain ⟨only, aborted⟩ := p.abortFen_fen f
    rw [List.foldl_cons]
    generalize p.abortFen f = q at only aborted ⊢
    obtain ⟨onlyRest, abortedRest⟩ := ih rest q
    refine ⟨only.trans onlyRest, List.forall_mem_cons.mpr ⟨?_, fun j hj => ?_⟩⟩
    · rw [onlyRest.fens f notIn]
      exact aborted
    · have other : q.fen j = p.fen j := only.fens j (by rintro (_ | ⟨_, ⟨⟩⟩); exact notIn hj)
      rw [← other]
      exact abortedRest j hj

/-- Every sampler queue of the list is emptied, and no fen, register or command is touched. -/
theorem Pkg.foldl_clearSamp (l : List Nat) (p : Pkg) :
    Pkg.OnlyFens [] p (l.foldl (fun (p : Pkg) d => p.setSamp d { p.samp d with queue := [] }) p) ∧
    ∀ d, d ∈ l ∨ (p.samp d).queue = [] →
      ((l.foldl (fun (p : Pkg) d => p.setSamp d { p.samp d with queue := [] }) p).samp d).queue = [] := by
  induction l generalizing p with
  | nil => exact ⟨.refl p, by simp⟩
  | cons a l ih =>
    obtain ⟨only, empty⟩ := ih (p.setSamp a { p.samp a with queue := [] })
    have first : Pkg.OnlyFens [] p (p.setSamp a { p.samp a with queue := [] }) := ⟨rfl, fun _ _ => rfl, fun _ _ => rfl, rfl, rfl⟩
    refine ⟨first.trans only, fun d hd => empty d ?_⟩
    by_cases same : d = a
    · subst same
      exact .inr (by rw [Pkg.samp_setSamp_same])
    · rw [Pkg.samp_setSamp_other p _ same]
      exact hd.imp_left fun m => (List.mem_cons.mp m).resolve_left same

/-! ABORT in three parts: fens and samplers, ports and requests, start and plan. -/

/-- ABORT's part on the fens and samplers: steps that have ended are recorded, every queue is emptied (R461). -/
def Pkg.abortUnits (p : Pkg) : Pkg :=
  let p := if p.planRuns then p.finishSteps else p
  let p := ((List.range 288).filter fun f => !p.fused f && p.fon F.fenMapMapped f).foldl Pkg.abortFen p
  let p := p.updJob fun j => { j with starts := [], disarmReq := false }
  (List.range 4).foldl (fun (p : Pkg) d => p.setSamp d { p.samp d with queue := [] }) p
/-- Its part on the ports and the Roll. -/
def Pkg.abortRequests (p : Pkg) : Pkg := (((List.range 16).foldl Pkg.portAbort p).closeActive).egress
/-- Its part on the next plan and on the one that ran, if one did. -/
def Pkg.abortJob (ran : Bool) (p : Pkg) : Pkg :=
  let p := (p.endOp 0x0058 6 0 0).updDig fun g => { g with pendingRole := 0 }
  let p := if 3 ≤ p.job.state && p.job.state ≤ 5 && !p.drive then p.unarm else p
  let p := if ran then (p.planOver 2).endOp 0x0050 6 0 0 else p
  let p := (p.endOp 0x0059 0 0 0).endOp 0x0014 0 0 0
  let p := p.updDig fun g => { g with open_ := [], steps := [], prov := [] }
  (p.updJob fun j => { j with cur := none }).refreshSets.dropLost

theorem Pkg.abortPlan_eq (p : Pkg) : p.abortPlan = (p.abortUnits.abortRequests.cancelStart).abortJob p.planRuns := by
  dsimp only [Pkg.abortPlan, Pkg.abortUnits, Pkg.abortRequests, Pkg.abortJob]

/-- What the first part leaves. -/
structure Pkg.UnitsGone (p t : Pkg) : Prop where
  fens : ∀ f, f < 288 → p.fused f = false → p.fon F.fenMapMapped f = true → Fen.Aborted (p.fen f) (t.fen f)
  samps : ∀ d, d < 4 → (t.samp d).queue = []
  disarmReq : t.job.disarmReq = false
  tb1Run : p.tb1Run = false → t.tb1Run = false
  state : p.job.state ≠ 5 → t.job.state ≠ 5
  regs : ∀ a, stays a → p.KeepsReg a t

theorem Pkg.abortUnits_gone (p : Pkg) : p.UnitsGone p.abortUnits := by
  unfold Pkg.abortUnits
  extract_lets p1 p2 p3
  have steps : p.Subsides p1 := .ite (.finishSteps p) (.refl p)
  obtain ⟨fensOnly, aborted⟩ := Pkg.foldl_abortFen
    ((List.range 288).filter fun f => !p1.fused f && p1.fon F.fenMapMapped f) (List.nodup_range.filter _) p1
  obtain ⟨sampsOnly, empty⟩ := p3.foldl_clearSamp (List.range 4)
  refine
    { fens := fun f hf fused mapped => ?_, samps := fun d hd => empty d (.inl (List.mem_range.mpr hd)),
      disarmReq := congrArg Job.disarmReq sampsOnly.job, tb1Run := fun stood => ?_, state := fun h => ?_, regs := fun a s => ?_ }
  · have mappedAfter : p1.fon F.fenMapMapped f = true := by
      have kept : stays (F.fenMapMapped.at_ f) :=
        .inr (.inr ⟨f, hf, by simp only [Fld.at_, F.fenMapMapped, Blk.base]; omega⟩)
      rw [Pkg.fon_congr (steps.fget kept)]
      exact mapped
    have fusedAfter : p1.fused f = false := by rw [Pkg.fused, Pkg.fusedCols, steps.part]; exact fused
    have here := aborted f (List.mem_filter.mpr ⟨List.mem_range.mpr hf, by simp [mappedAfter, fusedAfter]⟩)
    have before : p1.fen f = p.fen f := Pkg.fen_congr steps.fens f
    rw [sampsOnly.fens f List.not_mem_nil, ← before]
    exact here
  · have fens := Pkg.Subsides.tb1Run_of_keeps (fensOnly.regs _ (.inr rfl)) (steps.tb1Run stood)
    exact Pkg.Subsides.tb1Run_of_keeps (sampsOnly.regs _ (.inr rfl)) fens
  · rw [sampsOnly.job]
    show p2.job.state ≠ 5
    rw [fensOnly.job]
    exact steps.state h
  · exact ((steps.regs _ s).trans (fensOnly.regs _ (.inl s))).trans (sampsOnly.regs _ (.inl s))

theorem Pkg.Subsides.portAbort (p : Pkg) (i : Nat) : p.Subsides (p.portAbort i) := by
  have base : F.issynStatusPartnerChanged.at_ i = 0x2000000 + i * 0x4000 + 0x108 := rfl
  exact (updPort p i _).trans (.fset _ _ (elsewhere_of_page (by omega) (by omega)))

theorem Pkg.abortRequests_quiet (p : Pkg) : p.Subsides p.abortRequests ∧ p.abortRequests.roll.Quiet :=
  ⟨((Pkg.Subsides.foldl .portAbort _ p).trans (.closeActive _)).trans (.egress _),
    (Pkg.Subsides.egress _).roll (Pkg.closeActive_quiet _)⟩

theorem Pkg.endOp_noneRuns (p : Pkg) (op status r0 r1 : Nat) : (p.endOp op status r0 r1).noneRuns op :=
  fun _ m => (Pkg.endOp_running m).2

/-- What the last part leaves: no plan, and none of the commands that asked for its end or for a role. -/
structure Pkg.JobGone (ran : Bool) (p t : Pkg) : Prop where
  subsides : p.Subsides t
  cur : t.job.cur = none
  tb1Run : ran = true → t.tb1Run = false
  disarm : t.noneRuns 0x0014
  shadowBegin : t.noneRuns 0x0058
  shadowEnd : t.noneRuns 0x0059

theorem Pkg.abortJob_gone (ran : Bool) (p : Pkg) : p.JobGone ran (p.abortJob ran) := by
  unfold Pkg.abortJob
  extract_lets p1 p2 p3 p4 p5
  have shadow : p.Subsides p1 := (Pkg.Subsides.endOp p _ _ _ _).trans (.updDig _ _)
  have unarmed : p1.Subsides p2 := .ite (.unarm p1) (.refl p1)
  have ended : p2.Subsides p3 := .ite ((Pkg.Subsides.planOver p2 2).trans (.endOp _ _ _ _ _)) (.refl p2)
  have answered : p3.Subsides p4 := (Pkg.Subsides.endOp p3 _ _ _ _).trans (.endOp _ _ _ _ _)
  have dropped (q : Pkg) : q.Subsides q.dropLost := .of_eq rfl rfl rfl rfl rfl rfl rfl
  have last : p4.Subsides (p5.updJob fun j => { j with cur := none }).refreshSets.dropLost :=
    (((Pkg.Subsides.updDig p4 _).trans (.updJob p5 rfl (.inl rfl))).trans (.refreshSets _)).trans (dropped _)
  have rest := ((unarmed.trans ended).trans answered).trans last
  refine
    { subsides := shadow.trans rest, cur := ?_, tb1Run := fun hran => ?_, disarm := last.noneRuns (Pkg.endOp_noneRuns _ _ _ _ _),
      shadowBegin := rest.noneRuns ((Pkg.Subsides.updDig _ _).noneRuns (Pkg.endOp_noneRuns p 0x0058 _ _ _)),
      shadowEnd := ((Pkg.Subsides.endOp _ _ _ _ _).trans last).noneRuns (Pkg.endOp_noneRuns p3 0x0059 _ _ _) }
  · rw [Pkg.dropLost, Pkg.refreshSets_frame]
    rfl
  · have p3ran : p3 = (p2.planOver 2).endOp 0x0050 6 0 0 := if_pos hran
    refine (answered.trans last).tb1Run ?_
    rw [p3ran]
    exact (Pkg.Subsides.endOp _ _ _ _ _).tb1Run (p2.planOver_tb1Run 2)

/-- What ABORT leaves of package `p` (R461). -/
structure Pkg.PlanGone (p t : Pkg) : Prop where
  fens : ∀ f, f < 288 → p.fused f = false → p.fon F.fenMapMapped f = true → Fen.Aborted (p.fen f) (t.fen f)
  samps : ∀ d, d < 4 → (t.samp d).queue = []
  slots : t.roll.slots = []
  cur : t.job.cur = none
  disarmReq : t.job.disarmReq = false
  tb1Run : t.tb1Run = false
  disarm : t.noneRuns 0x0014
  shadowBegin : t.noneRuns 0x0058
  shadowEnd : t.noneRuns 0x0059

theorem Pkg.abortPlan_gone (h : p.job.state ≠ 5) : p.PlanGone p.abortPlan ∧ p.KeepsReg (F.jobStatAborts.at_ 0) p.abortPlan := by
  have units := p.abortUnits_gone
  obtain ⟨requests, quiet⟩ := p.abortUnits.abortRequests_quiet
  rw [Pkg.abortPlan_eq, Pkg.cancelStart_eq (requests.state (units.state h))]
  have job := p.abortUnits.abortRequests.abortJob_gone p.planRuns
  have all := requests.trans job.subsides
  refine ⟨{ fens := fun f hf fused mapped => ?_, samps := fun d hd => ?_, slots := (job.subsides.roll quiet).1, cur := job.cur,
            disarmReq := all.disarmReq units.disarmReq, tb1Run := ?_, disarm := job.disarm, shadowBegin := job.shadowBegin,
            shadowEnd := job.shadowEnd }, ?_⟩
  · rw [Pkg.fen_congr all.fens]
    exact units.fens f hf fused mapped
  · rw [Pkg.samp, all.samps]
    exact units.samps d hd
  · cases ran : p.planRuns with
    | true => exact ran ▸ job.tb1Run ran
    | false => exact ran ▸ all.tb1Run (units.tb1Run (Bool.or_eq_false_iff.mp ran).1)
  · have stat : stays (F.jobStatAborts.at_ 0) := .inr (.inl rfl)
    exact (units.regs _ stat).trans (all.regs _ stat)

/-- What is gone stays gone while ABORT is counted, logged and answered. -/
theorem Pkg.PlanGone.later {p g t : Pkg} (h : p.PlanGone g) (fens : t.fens = g.fens) (samps : t.samps = g.samps)
    (roll : t.roll = g.roll) (job : t.job = g.job) (running : ∀ x ∈ t.host.running, x ∈ g.host.running)
    (state : g.KeepsReg 0xC100 t) : p.PlanGone t where
  fens f hf fused mapped := by
    rw [Pkg.fen_congr fens]
    exact h.fens f hf fused mapped
  samps d hd := by rw [Pkg.samp, samps]; exact h.samps d hd
  slots := by rw [roll]; exact h.slots
  cur := by rw [job]; exact h.cur
  disarmReq := by rw [job]; exact h.disarmReq
  tb1Run := Pkg.Subsides.tb1Run_of_keeps state h.tb1Run
  disarm x m := h.disarm x (running x m)
  shadowBegin x m := h.shadowBegin x (running x m)
  shadowEnd x m := h.shadowEnd x (running x m)

theorem Pkg.fget_fadd (p : Pkg) (f : Fld) (i : Nat) {n : Nat} (hn : n ≠ 0) (h : f.lo ≤ f.hi) (h64 : f.hi < 64) :
    (p.fadd f i n).fget f i = satAdd (f.hi + 1 - f.lo) (p.fget f i) n := by
  have set : (p.fadd f i n).fget f i =
      bits (setBits (p.reg f.blk i f.off) f.hi f.lo (satAdd (f.hi + 1 - f.lo) (p.fget f i) n)) f.hi f.lo := by
    rw [Pkg.fadd, if_neg hn, Pkg.fget, Pkg.reg_setReg_same]
  rw [set, bits_setBits _ _ _ _ h h64]
  have pos := Nat.two_pow_pos (f.hi + 1 - f.lo)
  exact Nat.mod_eq_of_lt (by unfold satAdd; omega)

/-- The code in ERR_LAST after an event (R492). -/
theorem Pkg.log_lastCode (p : Pkg) (b : Blk) (i code time info : Nat) (k : Option Nat) (h : code < 2 ^ 12) :
    bits ((p.log b i code time info k).reg b i 0x048) 11 0 = code := by
  obtain ⟨_, last, _⟩ := Pkg.log_errRegs p b i code time info k
  rw [last]
  simp only [bits, BitVec.toNat_ofNat, Nat.shiftRight_zero]
  omega

/-- ABORT is counted in JOB.STAT and logged (R461). -/
def Pkg.abortNoted (p : Pkg) : Pkg := (p.fadd F.jobStatAborts 0 1).jlog 0x00E4 0 none

theorem Pkg.abortNoted_same (p : Pkg) : p.SameButLog p.abortNoted := by
  unfold Pkg.abortNoted Pkg.jlog
  exact (Pkg.fadd_same p _ _ _).trans (Pkg.log_same _ _ _ _ _ _ _)
theorem Pkg.abortNoted_stat (p : Pkg) : p.abortNoted.fget F.jobStatAborts 0 = satAdd 16 (p.fget F.jobStatAborts 0) 1 := by
  have logged := Pkg.keepsReg_log (p.fadd F.jobStatAborts 0 1) .job 0 0x00E4
    (p.fadd F.jobStatAborts 0 1).bell.tb2.count 0 none (a := F.jobStatAborts.at_ 0) (by decide) (by decide)
  rw [Pkg.abortNoted, Pkg.jlog, logged.fget, Pkg.fget_fadd _ _ _ (by decide) (by decide) (by decide)]
  rfl

theorem Pkg.abortNoted_state (p : Pkg) : p.KeepsReg 0xC100 p.abortNoted := by
  unfold Pkg.abortNoted Pkg.jlog
  exact (Pkg.keepsReg_fadd p 1 (by decide)).trans (Pkg.keepsReg_log _ _ _ _ _ _ _ (by decide) (by decide))
theorem Pkg.abortNoted_code (p : Pkg) : bits (p.abortNoted.reg .job 0 0x048) 11 0 = 0x0E4 := by
  unfold Pkg.abortNoted Pkg.jlog
  exact Pkg.log_lastCode _ _ _ _ _ _ _ (by decide)

theorem Pkg.PlanGone.noted {p g : Pkg} (h : p.PlanGone g) : p.PlanGone g.abortNoted := by
  obtain ⟨u, hu⟩ : ∃ u, u = g.abortNoted := ⟨_, rfl⟩
  have same : g.SameButLog u := hu ▸ g.abortNoted_same
  have state : g.KeepsReg 0xC100 u := hu ▸ g.abortNoted_state
  have running : u.host.running = g.host.running := (congrArg (fun p : Pkg => p.host.running) same :)
  rw [← hu]
  exact h.later (congrArg Pkg.fens same :) (congrArg Pkg.samps same :) (congrArg Pkg.roll same :) (congrArg Pkg.job same :)
    (fun x m => running ▸ m) state

theorem Pkg.abort_eq (h : p.job.state ≠ 5) : p.abort c = (p.early c).abortPlan.abortNoted.final c 0 0 0 := by
  have settled : (p.early c).settleStart = p.early c :=
    Pkg.settleStart_early (.inl (by rwa [(Pkg.PathOnly.early p c).job]))
  unfold Pkg.abort Pkg.abortNoted
  rw [settled]

/-- ABORT as the ROM runs it (R461, R462). -/
theorem Pkg.abort_aborts {t : Pkg} (h : q.job.state ≠ 5) (ht : t = (q.abort c).careCompletions) :
    q.PlanGone t ∧ t.fget F.jobStatAborts 0 = satAdd 16 (q.fget F.jobStatAborts 0) 1 ∧
    bits (t.reg .job 0 0x048) 11 0 = 0x0E4 ∧ ∀ x ∈ t.host.running, x.no ≠ c.no := by
  have early := Pkg.PathOnly.early q c
  obtain ⟨y, hy⟩ : ∃ y, y = q.early c := ⟨_, rfl⟩
  rw [← hy] at early
  obtain ⟨gone, stat⟩ := Pkg.abortPlan_gone (p := y) (by rwa [early.job])
  obtain ⟨g, hg⟩ : ∃ g, g = y.abortPlan := ⟨_, rfl⟩
  rw [← hg] at gone stat
  have eq : q.abort c = g.abortNoted.final c 0 0 0 := by rw [Pkg.abort_eq h, ← hy, ← hg]
  rw [eq] at ht
  have path : g.abortNoted.PathOnly t := ht ▸ (Pkg.PathOnly.final _ c 0 0 0).trans (.careCompletions _)
  have answered : g.abortNoted.Subsides t := ht ▸ (Pkg.Subsides.final _ c 0 0 0).trans (.careCompletions _)
  have later : y.PlanGone t := gone.noted.later path.fens path.samps path.roll path.job answered.running
    (path.regs _ (by decide) (by decide))
  refine ⟨?_, ?_, ?_, ?_⟩
  · exact { later with
      fens := fun f hf fused mapped => by
        have fusedAfter : y.fused f = false := by rw [Pkg.fused, Pkg.fusedCols, early.part]; exact fused
        have base : F.fenMapMapped.at_ f = 0x1000000 + f * 0x4000 + 0x100 := rfl
        have field : y.fget F.fenMapMapped f = q.fget F.fenMapMapped f := early.fget (by omega) (by omega)
        rw [← Pkg.fen_congr early.fens f]
        exact later.fens f hf fusedAfter (by rw [Pkg.fon_congr field]; exact mapped) }
  · rw [path.fget (by decide) (by decide), g.abortNoted_stat, stat.fget, early.fget (by decide) (by decide)]
  · rw [path.reg (by decide) (by decide), g.abortNoted_code]
  · rw [ht]; exact Pkg.final_ended _ c 0 0 0

end
end Sys2Proof.Machine

namespace Sys2Proof.Machine
open Sys2Proof

/-! DISARM before the start that waits (R459). -/

section
variable {p q t : Pkg} {c : Cmd}

/-- A start that is cancelled: START_AT or REPLAY has ended, the handover is not armed any more. -/
def Pkg.startEnded (p : Pkg) : Pkg :=
  ((({ p with bell := { p.bell with handoverTick := none } }.fset F.bellHandoverStatArmed 0 0).endOp 0x0013 6 0 0).endOp 0x0050 6 0 0)
/-- It is out of JOB.START, logged and counted. -/
def Pkg.startCounted (p : Pkg) : Pkg := ((p.fset F.jobStartTick 0 0).jlog 0x00E2 0 none).fadd F.jobStatCancelled 0 1

theorem Pkg.cancelStart_starting (h : p.job.state = 5) : p.cancelStart = p.startEnded.startCounted := by
  rw [Pkg.cancelStart, if_pos h]
  rfl

theorem Pkg.startEnded_bell (p : Pkg) : p.startEnded.bell = { p.bell with handoverTick := none } :=
  (Pkg.PathOnly.endOp _ 0x0050 6 0 0).bell.trans (Pkg.PathOnly.endOp _ 0x0013 6 0 0).bell
theorem Pkg.startEnded_subsides (p : Pkg) : p.Subsides p.startEnded := by
  have stat (q : Pkg) : q.Subsides (q.fset F.bellHandoverStatArmed 0 0) := .fset q 0 (elsewhere_of_page (by decide) (by decide))
  have tick : p.Subsides { p with bell := { p.bell with handoverTick := none } } := .of_eq rfl rfl rfl rfl rfl rfl rfl
  exact ((tick.trans (stat _)).trans (.endOp _ 0x0013 6 0 0)).trans (.endOp _ 0x0050 6 0 0)
theorem Pkg.startEnded_noneRuns (p : Pkg) : p.startEnded.noneRuns 0x0013 ∧ p.startEnded.noneRuns 0x0050 :=
  ⟨(Pkg.Subsides.endOp _ 0x0050 6 0 0).noneRuns (Pkg.endOp_noneRuns _ 0x0013 6 0 0), Pkg.endOp_noneRuns _ 0x0050 6 0 0⟩

theorem Pkg.startCounted_same (p : Pkg) : p.SameButLog p.startCounted := by
  unfold Pkg.startCounted Pkg.jlog
  exact ((Pkg.fset_same p _ _ _).trans (Pkg.log_same _ _ _ _ _ _ _)).trans (Pkg.fadd_same _ _ _ _)
theorem Pkg.startCounted_tick (p : Pkg) : p.startCounted.fget F.jobStartTick 0 = 0 := by
  unfold Pkg.startCounted Pkg.jlog
  rw [(Pkg.keepsReg_fadd _ 1 (by decide)).fget, (Pkg.keepsReg_log _ _ _ _ _ _ _ (by decide) (by decide)).fget,
    Pkg.fget_fset _ _ _ _ (by decide) (by decide), Nat.zero_mod]
theorem Pkg.startCounted_stat (p : Pkg) :
    p.startCounted.fget F.jobStatCancelled 0 = satAdd 16 (p.fget F.jobStatCancelled 0) 1 := by
  unfold Pkg.startCounted Pkg.jlog
  rw [Pkg.fget_fadd _ _ _ (by decide) (by decide) (by decide),
    (Pkg.keepsReg_log _ _ _ _ _ _ _ (by decide) (by decide)).fget, (Pkg.keepsReg_fset p 0 (by decide)).fget]
  rfl

theorem Pkg.unarm_bell (p : Pkg) : p.unarm.bell = p.bell := by
  have refreshed (q : Pkg) : q.refreshSets.bell = q.bell := by rw [Pkg.refreshSets_frame]
  unfold Pkg.unarm
  extract_lets p1 p2 p3
  have noArm : p1.bell = p.bell := by
    unfold p1
    split
    · exact ((Pkg.PathOnly.careSend _ _ _).bell.trans (Pkg.PathOnly.final _ _ _ _ _).bell).trans
        (congrArg Pkg.bell (Pkg.log_same _ _ _ _ _ _ _) :)
    · rfl
  have role : p3.bell = p2.bell := by
    unfold p3
    split
    · exact (Pkg.PathOnly.endOp _ _ _ _ _).bell
    · rfl
  exact (refreshed _).trans (role.trans noArm)
theorem Pkg.unarm_state (p : Pkg) : p.unarm.job.state = 2 := by
  unfold Pkg.unarm
  extract_lets p1 p2 p3
  rw [Pkg.refreshSets_frame]
  rfl

theorem Pkg.disarm_starting {k : Nat} (next : c.le 0x10 1 = 1) (idle : q.drive = false) (state : q.job.state = 5)
    (tick : q.bell.handoverTick = some k) (early : q.bell.tb2.count < k) (ht : t = (q.disarm c).careCompletions) :
    t.job.state = 2 ∧ t.bell = { q.bell with handoverTick := none } ∧ t.fget F.jobStartTick 0 = 0 ∧
    t.noneRuns 0x0013 ∧ t.noneRuns 0x0050 ∧
    t.fget F.jobStatCancelled 0 = satAdd 16 (q.fget F.jobStatCancelled 0) 1 ∧ (∀ x ∈ t.host.running, x.no ≠ c.no) := by
  have settled : q.settleStart = q := Pkg.settleStart_early (.inr fun j e => by
    obtain rfl : k = j := Option.some.inj (tick.symm.trans e)
    exact early)
  have accepted := Pkg.PathOnly.early q c
  obtain ⟨e, he⟩ : ∃ e, e = (q.early c).startEnded := ⟨_, rfl⟩
  obtain ⟨u, hu⟩ : ∃ u, u = e.startCounted := ⟨_, rfl⟩
  have eq : q.disarm c = u.unarm.final c 0 0 0 := by
    rw [Pkg.disarm_next settled next idle (by omega), Pkg.cancelStart_starting (by rw [accepted.job, state]), ← he, ← hu]
  rw [eq] at ht
  have path : u.unarm.PathOnly t := ht ▸ (Pkg.PathOnly.final _ c 0 0 0).trans (.careCompletions _)
  have rest : u.Subsides t := ht ▸ ((Pkg.Subsides.unarm u).trans (.final _ c 0 0 0)).trans (.careCompletions _)
  have same : e.SameButLog u := hu ▸ e.startCounted_same
  have running : u.host.running = e.host.running := (congrArg (fun p : Pkg => p.host.running) same :)
  have noStart : e.noneRuns 0x0013 ∧ e.noneRuns 0x0050 := he ▸ (q.early c).startEnded_noneRuns
  have startKept : stays (F.jobStartTick.at_ 0) := .inl rfl
  have statKept : stays (F.jobStatCancelled.at_ 0) := .inr (.inl rfl)
  refine ⟨?_, ?_, ?_, ?_, ?_, ?_, ?_⟩
  · rw [path.job, Pkg.unarm_state]
  · rw [path.bell, Pkg.unarm_bell, show u.bell = e.bell from (congrArg Pkg.bell same :), he, Pkg.startEnded_bell, accepted.bell]
  · rw [rest.fget startKept, hu, Pkg.startCounted_tick]
  · exact fun x m => noStart.1 x (running ▸ rest.running x m)
  · exact fun x m => noStart.2 x (running ▸ rest.running x m)
  · rw [rest.fget statKept, hu, Pkg.startCounted_stat, he, (q.early c).startEnded_subsides.fget statKept,
      accepted.fget (by decide) (by decide)]
  · rw [ht]; exact Pkg.final_ended _ c 0 0 0

end

/-- Settles O47, clause by clause: each command's branch as the ROM runs it, from the record in front of its queue. -/
theorem planStops : Obligations.PlanStops := by
  unfold Obligations.PlanStops
  intro s c l
  extract_lets p src q
  have refuses (status : Nat) : q.Refuses (q.final c status 0 0).careCompletions c status 0 0 := q.final_refuses c status 0 0
  refine ⟨fun h state => ⟨fun next idle armed arming role => ?_, fun next idle out => ?_, fun running runs role => ?_,
      fun running stands => ?_⟩,
    fun k h next idle state tick early => ?_, fun h state => ?_, fun h free role port => ?_,
    fun h => ⟨fun pupil => ?_, fun idle role => ?_, fun idle role pending => ?_⟩, fun h free base mode => ?_⟩
  · exact disarm_does h (.inl next) (Pkg.disarm_armed (q := q) next idle armed arming role rfl)
  · refine disarm_does h (.inl next) ?_
    have eq : q.disarm c = q.final c 7 0 0 := Pkg.disarm_nothing (Pkg.settleStart_early (.inl state)) next idle out
    exact eq ▸ refuses 7
  · refine disarm_does h (.inr running) ?_
    have eq : q.disarm c = _ := Pkg.disarm_running (Pkg.settleStart_early (.inl state)) running runs role
    exact Pkg.goOn_updJob (q := q) _ (congrArg Pkg.careCompletions eq)
  · refine disarm_does h (.inr running) ?_
    have eq : q.disarm c = q.final c 7 0 0 := Pkg.disarm_not_running (Pkg.settleStart_early (.inl state)) running stands
    exact eq ▸ refuses 7
  · exact disarm_does h (.inl next) (Pkg.disarm_starting (q := q) next idle state tick early rfl)
  · obtain ⟨gone, stat, code, ended⟩ := Pkg.abort_aborts (q := q) (c := c) state rfl
    exact abort_does h ⟨gone.fens, gone.samps, gone.slots, gone.cur, gone.disarmReq, gone.tb1Run, gone.disarm, gone.shadowBegin,
      gone.shadowEnd, stat, code, ended⟩
  · refine ⟨fun unfit => shadowBegin_does h free role port ?_, fun fit => shadowBegin_does h free role port ?_⟩
    · exact Pkg.shadowBegin_unfit (p := q) unfit ▸ refuses 0x0304
    · exact Pkg.shadowBegin_begun (q := q) fit port rfl
  · exact shadowEnd_does h (Pkg.goOn_updJob (q := q) _ (congrArg Pkg.careCompletions (Pkg.shadowEnd_pupil pupil)))
  · exact shadowEnd_does h (Pkg.goOn_updDig (q := q) _ (congrArg Pkg.careCompletions (Pkg.shadowEnd_tutor idle role)))
  · exact shadowEnd_does h (Pkg.done_only (q := q) 0 0 (congrArg Pkg.careCompletions (Pkg.shadowEnd_none idle role pending)))
  · refine ⟨fun busy => timeRebase_does h free base mode ?_, fun idle => timeRebase_does h free base mode ?_⟩
    · exact Pkg.timeRebase_busy (p := q) busy ▸ refuses 0x0421
    · exact Pkg.timeRebase_rebased (q := q) rfl idle rfl

end Sys2Proof.Machine

namespace Sys2Proof.Machine
open Sys2Proof

/-- What counts is for the log (R529). -/
theorem not_countOff_of_not_isLogReg {a : Nat} (h : isLogReg a = false) : ¬ countOff a := by
  simp only [isLogReg, Bool.or_eq_false_iff, Bool.and_eq_false_iff, decide_eq_false_iff_not] at h
  unfold countOff
  omega

/-! What an instruction of a Proctor may touch: its fen, the Markbook of its die, the digests, the log and the counters
(R182, R199). -/

section
variable {p q r : Pkg} {f : Nat} {ws : List Nat}

/-- Beyond the digests, the log and the counters, `q` differs from `p` in fen `f`, the Markbook of its die and the registers
`ws` alone. -/
def Pkg.ByProctor (f : Nat) (ws : List Nat) (p q : Pkg) : Prop :=
  p.Keeps q { p with dig := q.dig } { fens := [f], marks := [f / 72], regs := ws }

namespace Pkg.ByProctor

theorem trans (h : Pkg.ByProctor f ws p q) (g : Pkg.ByProctor f ws q r) : Pkg.ByProctor f ws p r := by
  obtain ⟨fens, samps, marks, regs, frame⟩ := h
  obtain ⟨fens', samps', marks', regs', frame'⟩ := g
  refine ⟨fun j o => (fens' j o).trans (fens j o), fun d o => (samps' d o).trans (samps d o),
    fun d o => (marks' d o).trans (marks d o), fun a l o => (regs' a l o).trans (regs a l o), ?_⟩
  unfold Pkg.SameButLog at *
  rw [frame', frame]

/-- A change of registers and log alone. -/
theorem of_log (h : p.SameButLog q) (regs : ∀ a, isLogReg a = false → a ∉ ws → p.KeepsReg a q) : Pkg.ByProctor f ws p q := by
  have fens : q.fens = p.fens := (congrArg Pkg.fens h :)
  have samps : q.samps = p.samps := (congrArg Pkg.samps h :)
  have marks : q.marks = p.marks := (congrArg Pkg.marks h :)
  refine ⟨fun j _ => Pkg.fen_congr fens j, fun d _ => ?_, fun d _ => ?_, regs, ?_⟩
  · rw [Pkg.samp, Pkg.samp, samps]
  · rw [Pkg.mark, Pkg.mark, marks]
  · have dig : q.dig = p.dig := (congrArg Pkg.dig h :)
    rw [fens, samps, marks, dig]
    exact h

theorem updProc (p : Pkg) (f : Nat) (ws : List Nat) (g : Proctor → Proctor) : Pkg.ByProctor f ws p (p.updProc f g) :=
  ⟨fun _ out => Pkg.fen_setFen_other p _ (by simpa using out), fun _ _ => rfl, fun _ _ => rfl, fun _ _ _ => rfl, rfl⟩
theorem setMark (p : Pkg) (f : Nat) (ws : List Nat) (k : Mark) : Pkg.ByProctor f ws p (p.setMark (f / 72) k) :=
  ⟨fun _ _ => rfl, fun _ _ => rfl, fun _ out => AMap.getD_set_other _ _ _ _ (by simpa using out), fun _ _ _ => rfl, rfl⟩
theorem refl (p : Pkg) (f : Nat) (ws : List Nat) : Pkg.ByProctor f ws p p := of_log (.refl p) fun _ _ _ => rfl
theorem updDig (p : Pkg) (f : Nat) (ws : List Nat) (g : Dig → Dig) : Pkg.ByProctor f ws p (p.updDig g) :=
  ⟨fun _ _ => rfl, fun _ _ => rfl, fun _ _ => rfl, fun _ _ _ => rfl, rfl⟩
theorem log (p : Pkg) (f : Nat) (ws : List Nat) (b : Blk) (i code time info : Nat) (k : Option Nat) :
    Pkg.ByProctor f ws p (p.log b i code time info k) :=
  of_log (Pkg.log_same p b i code time info k) fun _ l _ => Pkg.keepsReg_log_of_not_isLogReg p b i code time info k l
theorem perf (p : Pkg) (f : Nat) (ws : List Nat) (b : Blk) (i code n : Nat) (a : Option Attr) :
    Pkg.ByProctor f ws p (p.perf b i code n a) :=
  of_log (Pkg.perf_same p b i code n a) fun _ l _ => (Pkg.perf_counted p b i code n a).regs _ (not_countOff_of_not_isLogReg l)

theorem fadd (p : Pkg) {fl : Fld} {i : Nat} (n : Nat) (h : fl.at_ i ∈ ws) : Pkg.ByProctor f ws p (p.fadd fl i n) :=
  of_log (Pkg.fadd_same p fl i n) fun _ _ out => Pkg.keepsReg_fadd p n fun e => out (e ▸ h)
theorem defect (p : Pkg) (f : Nat) (ws : List Nat) (t code : Nat) : Pkg.ByProctor f ws p (p.defect t code) := by
  unfold Pkg.defect
  split
  · dsimp only
    split
    · exact (updDig p f ws _).trans (updDig _ f ws _)
    · exact updDig p f ws _
  · exact refl p f ws

end Pkg.ByProctor

/-! The item that an instruction gives to the Markbook and the counters (R533, R536). -/

/-- All that an item can do in a Markbook: nothing, or a write of it. -/
theorem Pkg.markItem_cases (p : Pkg) (d : Nat) (m : MarkOpen) :
    p.markItem d m = p ∨ ∃ k, p.markItem d m = p.setMark d k := by
  unfold Pkg.markItem
  dsimp only
  split
  · split
    · exact .inr ⟨_, rfl⟩
    · exact .inr ⟨_, rfl⟩
  · exact .inl rfl

theorem Pkg.procItem_cases (p : Pkg) (c : PCtx) (cost : Nat) (ill : Bool) :
    ∃ q, q = p.perf .fen c.f 0x200 1 (proctorAttr 0) ∧
      (p.procItem c cost ill = q ∨ ∃ k, p.procItem c cost ill = q.setMark (c.f / 72) k) :=
  ⟨_, rfl, Pkg.markItem_cases _ _ _⟩

theorem Pkg.procItem_byProctor (p : Pkg) (c : PCtx) (cost : Nat) (ill : Bool) :
    Pkg.ByProctor c.f ws p (p.procItem c cost ill) := by
  obtain ⟨q, hq, e | ⟨k, e⟩⟩ := p.procItem_cases c cost ill <;> rw [e, hq]
  · exact .perf p c.f ws _ _ _ _ _
  · exact (Pkg.ByProctor.perf p c.f ws _ _ _ _ _).trans (.setMark _ c.f ws k)
theorem Pkg.procItem_counted (p : Pkg) (c : PCtx) (cost : Nat) (ill : Bool) :
    Pkg.Counted .fen c.f p (p.procItem c cost ill) := by
  have count := Pkg.perf_counted p .fen c.f 0x200 1 (proctorAttr 0)
  obtain ⟨q, hq, e | ⟨k, e⟩⟩ := p.procItem_cases c cost ill <;> rw [e, hq]
  · exact count
  · exact count.trans ⟨rfl, rfl, fun _ _ => rfl, id⟩
/-- The item leaves the fens and the digests. -/
theorem Pkg.procItem_units (p : Pkg) (c : PCtx) (cost : Nat) (ill : Bool) :
    (p.procItem c cost ill).fens = p.fens ∧ (p.procItem c cost ill).dig = p.dig := by
  have same := Pkg.perf_same p .fen c.f 0x200 1 (proctorAttr 0)
  obtain ⟨q, hq, e | ⟨k, e⟩⟩ := p.procItem_cases c cost ill <;> rw [e, hq] <;>
    exact ⟨(congrArg Pkg.fens same :), (congrArg Pkg.dig same :)⟩

theorem Pkg.fen_updProc_same (p : Pkg) (f : Nat) (g : Proctor → Proctor) :
    (p.updProc f g).fen f = { p.fen f with proc := g (p.fen f).proc } := Pkg.fen_setFen_same p f _

/-! Completion (R181, R182, R190). -/

theorem Proctor.greg_setG (x : Proctor) (d : Nat) (v : W64) (n : Nat) :
    (x.setG d v).greg n = if n = 0 then 0#64 else if n = d then v else x.greg n := by
  unfold Proctor.greg Proctor.setG
  by_cases zero : n = 0
  · simp [zero]
  · by_cases same : n = d
    · subst same; simp [zero]
    · by_cases d0 : d = 0
      · simp [zero, d0]
      · simp [zero, same, d0, AMap.getD_set_other _ _ _ _ same]

/-- R190 as the Proctor runs it. -/
theorem Proctor.flow_eq (x : Proctor) (pc : Nat) :
    x.flow pc = { x with pc := (loopNext x.loops pc).1, loops := (loopNext x.loops pc).2 } := by
  obtain ⟨ls, hls⟩ : ∃ ls, ls = x.loops := ⟨_, rfl⟩
  cases ls with
  | nil => simp [Proctor.flow, loopNext, ← hls]
  | cons e r =>
    by_cases stop : e.stop = pc
    · by_cases more : 1 < e.remaining.toNat
      · simp [Proctor.flow, loopNext, ← hls, stop, more, Nat.not_le.mpr more]
      · simp [Proctor.flow, loopNext, ← hls, stop, more, Nat.not_lt.mp more]
    · simp [Proctor.flow, loopNext, ← hls, stop]

/-- The Proctor with the result, if there is one, in DST. -/
def Proctor.withResult (x : Proctor) (d : Nat) (v : Option W64) : Proctor :=
  match v with
  | some v => x.setG d v
  | none => x

theorem Proctor.greg_withResult (x : Proctor) (d : Nat) (v : Option W64) (n : Nat) :
    (x.withResult d v).greg n = if n = 0 then 0#64 else if n = d then v.getD (x.greg n) else x.greg n := by
  cases v with
  | none => by_cases zero : n = 0 <;> simp [Proctor.withResult, Proctor.greg, zero]
  | some v => exact x.greg_setG d v n
theorem Proctor.withResult_eq (x : Proctor) (d : Nat) (v : Option W64) :
    x.withResult d v = { x with g := (x.withResult d v).g } := by
  cases v with
  | none => rfl
  | some v =>
    unfold Proctor.withResult Proctor.setG
    dsimp only
    split <;> rfl

/-- The Proctor once its instruction has completed with this result. -/
def Proctor.completed (x : Proctor) (c : PCtx) (v : Option W64) : Proctor :=
  { (x.withResult c.dst v).flow c.pc with
    st := .run, ready := c.l + 1, waitB := none, icache := (x.withResult c.dst v).icache.touch (c.pc / 64) }

theorem Proctor.completed_eq (x : Proctor) (c : PCtx) (v : Option W64) :
    x.completed c v =
      { x with g := (x.withResult c.dst v).g, pc := (loopNext x.loops c.pc).1, loops := (loopNext x.loops c.pc).2, st := .run,
               ready := c.l + 1, waitB := none, icache := x.icache.touch (c.pc / 64) } := by
  unfold Proctor.completed
  rw [Proctor.flow_eq, Proctor.withResult_eq]

theorem Pkg.pDone_eq (p : Pkg) (c : PCtx) (v : Option W64) :
    p.pDone c v = (p.updProc c.f fun x => x.completed c v).procItem c 1 false := by
  cases v <;> rfl

/-- An instruction that completes writes its result and goes on (R181, R182, R190). -/
theorem Pkg.pDone_done {c : PCtx} (v : Option W64) (h : (p.fen c.f).proc = c.x) : c.Done p (p.pDone c v) p v c.x := by
  have fen : (p.pDone c v).fen c.f = { p.fen c.f with proc := c.x.completed c v } := by
    rw [Pkg.pDone_eq, Pkg.fen_congr (Pkg.procItem_units _ c 1 false).1, Pkg.fen_updProc_same, h]
  have dig : (p.pDone c v).dig = p.dig := by rw [Pkg.pDone_eq, (Pkg.procItem_units _ c 1 false).2]; rfl
  have frame : Pkg.ByProctor c.f [] p (p.pDone c v) := by
    rw [Pkg.pDone_eq]
    exact (Pkg.ByProctor.updProc p c.f [] _).trans (Pkg.procItem_byProctor _ c 1 false)
  have proc : ((p.pDone c v).fen c.f).proc = c.x.completed c v := by rw [fen]
  unfold Pkg.ByProctor at frame
  rw [dig] at frame
  refine ⟨fun n => ?_, ?_, ?_, frame⟩
  · rw [proc, Proctor.completed_eq]
    exact c.x.greg_withResult c.dst v n
  · rw [proc, Proctor.completed_eq]
  · rw [proc, fen]

/-! Illegal instructions (R199). -/

/-- The registers that an entry of the log has written hold it as long as nothing writes them again. -/
theorem Pkg.Logged.later {b : Blk} {i code time info : Nat} (h : p.Logged q b i code time info) (evq : r.evq = q.evq)
    (regs : ∀ o ∈ [0x038, 0x040, 0x048], q.KeepsReg (b.base i + o) r)
    (any : bit (q.reg b i 0x020) 0 = true → bit (r.reg b i 0x020) 0 = true) : p.Logged r b i code time info := by
  obtain ⟨⟨count, last, first, raw⟩, entry⟩ := h
  unfold Pkg.Logged Pkg.ErrRegs
  dsimp only
  rw [(regs 0x038 (by simp)).reg, (regs 0x040 (by simp)).reg, (regs 0x048 (by simp)).reg, evq]
  exact ⟨⟨count, last, first, any raw⟩, entry⟩
/-- An event holds the low 20 bits of its information word (R492). -/
theorem Pkg.logged_info_mod {b : Blk} {i code time info : Nat} :
    p.Logged q b i code time (info % 2 ^ 20) ↔ p.Logged q b i code time info := by
  simp [Pkg.Logged, Pkg.ErrRegs, Pkg.isEvent]

/-- A defect touches the digests alone. -/
theorem Pkg.defect_frame (p : Pkg) (t code : Nat) : p.defect t code = { p with dig := (p.defect t code).dig } := by
  unfold Pkg.defect
  split
  · dsimp only
    split <;> rfl
  · rfl
/-- A defect in a step of a plan that runs marks the step and reports it (R199). -/
theorem Pkg.defect_marks (t code : Nat) (cur : p.job.cur.isSome = true) (started : p.job.start ≤ t) (runs : p.planRuns = true) :
    (((p.defect t code).dig.steps.getD (p.stepOf t) .init).defect).isSome = true ∧
      (none, code, p.stepOf t) ∈ (p.defect t code).dig.reports := by
  have runs' (g : DigStep → DigStep) : (p.updStep (p.stepOf t) g).planRuns = true := runs
  unfold Pkg.defect
  simp only [cur, started, runs, runs', decide_true, Bool.and_true, Bool.true_or, if_true]
  exact ⟨by simp [Pkg.updStep, Pkg.updDig], by simp [Pkg.updStep, Pkg.updDig, Pkg.stepOf]⟩

/-- Whether a plan runs stands in two registers (R451, R110). -/
theorem Pkg.planRuns_of_keeps (tb1 : Pkg.KeepsReg (F.jobStateTb1Run.at_ 0) p q) (drive : Pkg.KeepsReg (F.bellCtrlDrive.at_ 0) p q) :
    q.planRuns = p.planRuns := by
  unfold Pkg.planRuns Pkg.tb1Run Pkg.drive Pkg.fon
  rw [tb1.fget, drive.fget]

/-- The Proctor once an instruction has been skipped. -/
def Proctor.skipped (x : Proctor) (c : PCtx) : Proctor :=
  { x with pc := (c.pc + 8) % 2 ^ 20, st := .run, ready := c.l + 1, waitB := none, icache := x.icache.touch (c.pc / 64) }
/-- The package as the event of a skipped instruction has been logged and counted. -/
def Pkg.illegalNoted (p : Pkg) (c : PCtx) (code : Nat) : Pkg :=
  ((p.updProc c.f fun x => x.skipped c).log .fen c.f code c.l c.pc none).fadd F.fenProcStatIllegal c.f 1

theorem Pkg.pIllegal_eq (p : Pkg) (c : PCtx) {code : Nat} (h : code ≠ 0x0037) :
    p.pIllegal c code = ((p.illegalNoted c code).defect c.l code).procItem c 1 true := by
  unfold Pkg.pIllegal
  simp only [h, if_false]
  rfl

theorem Pkg.illegalNoted_same (p : Pkg) (c : PCtx) (code : Nat) :
    (p.updProc c.f fun x => x.skipped c).SameButLog (p.illegalNoted c code) :=
  (Pkg.log_same _ _ _ _ _ _ _).trans (Pkg.fadd_same _ _ _ _)
theorem Pkg.illegalNoted_byProctor (p : Pkg) (c : PCtx) (code : Nat) :
    Pkg.ByProctor c.f [F.fenProcStatIllegal.at_ c.f] p (p.illegalNoted c code) :=
  ((Pkg.ByProctor.updProc p c.f _ _).trans (.log _ c.f _ _ _ _ _ _ _)).trans (.fadd _ _ (List.mem_singleton_self _))
/-- ILLEGAL stands in PROC_STAT of the fen's page (R204, R567). -/
theorem fenProcStatIllegal_at (f : Nat) : F.fenProcStatIllegal.at_ f = 0x1000158 + f * 0x4000 := Nat.add_right_comm _ _ _
/-- A plan runs behind the event if it ran before. -/
theorem Pkg.illegalNoted_planRuns (p : Pkg) (c : PCtx) (code : Nat) : (p.illegalNoted c code).planRuns = p.planRuns := by
  obtain ⟨_, _, _, regs, _⟩ := p.illegalNoted_byProctor c code
  have other {a : Nat} (h : a % 0x4000 ≠ 0x158) : a ∉ [F.fenProcStatIllegal.at_ c.f] := by
    rw [fenProcStatIllegal_at, List.mem_singleton]
    omega
  exact Pkg.planRuns_of_keeps (regs _ (by decide) (other (by decide))) (regs _ (by decide) (other (by decide)))
theorem Pkg.illegalNoted_illegal (p : Pkg) (c : PCtx) (code : Nat) :
    (p.illegalNoted c code).fget F.fenProcStatIllegal c.f =
      satAdd (F.fenProcStatIllegal.hi + 1 - F.fenProcStatIllegal.lo) (p.fget F.fenProcStatIllegal c.f) 1 := by
  have at_ := fenProcStatIllegal_at c.f
  have lost : F.careStatLogLost.at_ 0 = 0x214C118 := rfl
  unfold Pkg.illegalNoted
  rw [Pkg.fget_fadd _ _ _ (by decide) (by decide) (by decide),
    Pkg.KeepsReg.fget (Pkg.keepsReg_log _ _ _ _ _ _ _ (by omega) (by omega))]
  rfl
theorem Pkg.illegalNoted_logged (p : Pkg) (c : PCtx) (code : Nat) :
    p.Logged (p.illegalNoted c code) .fen c.f code c.l c.pc := by
  have other {o : Nat} (h : o < 0x158) : Blk.base .fen c.f + o ≠ F.fenProcStatIllegal.at_ c.f := by
    rw [fenProcStatIllegal_at, show Blk.base .fen c.f = 0x1000000 + c.f * 0x4000 from rfl]
    omega
  have entered := Pkg.log_logged (p.updProc c.f fun x => x.skipped c) .fen c.f code c.l c.pc none
  unfold Pkg.illegalNoted
  obtain ⟨q, hq⟩ : ∃ q, q = (p.updProc c.f fun x => x.skipped c).log .fen c.f code c.l c.pc none := ⟨_, rfl⟩
  rw [← hq] at entered ⊢
  have keep {o : Nat} (h : o < 0x158) : q.KeepsReg (Blk.base .fen c.f + o) (q.fadd F.fenProcStatIllegal c.f 1) :=
    Pkg.keepsReg_fadd q 1 (other h)
  refine Pkg.Logged.later (q := q) entered rfl (fun o m => keep ?_) fun any => ?_
  · simp only [List.mem_cons, List.not_mem_nil, or_false] at m
    omega
  · rw [(keep (by decide)).reg]; exact any

/-- A defect counts nothing. -/
theorem Pkg.defect_counted (p : Pkg) (b : Blk) (i t code : Nat) : Pkg.Counted b i p (p.defect t code) := by
  have frame := Pkg.defect_frame p t code
  have regs : (p.defect t code).regs = p.regs := (congrArg Pkg.regs frame :)
  exact ⟨(congrArg Pkg.evq frame :), (congrArg Pkg.evLost frame :), fun a _ => congrArg (AMap.find? · a) regs,
    fun any => by simpa only [Pkg.reg, regs] using any⟩

/-- An illegal instruction is skipped (R199). -/
theorem Pkg.pIllegal_skipped {c : PCtx} {code : Nat} (h : (p.fen c.f).proc = c.x) (hc : code ≠ 0x0037) :
    c.Skipped p (p.pIllegal c code) code := by
  rw [Pkg.pIllegal_eq p c hc]
  obtain ⟨n, hn⟩ : ∃ n, n = p.illegalNoted c code := ⟨_, rfl⟩
  obtain ⟨q, hq⟩ : ∃ q, q = (n.defect c.l code).procItem c 1 true := ⟨_, rfl⟩
  rw [← hn, ← hq]
  have same : (p.updProc c.f fun x => x.skipped c).SameButLog n := hn ▸ p.illegalNoted_same c code
  have count : Pkg.Counted .fen c.f n q := hq ▸ (n.defect_counted _ _ _ _).trans (Pkg.procItem_counted _ c 1 true)
  obtain ⟨fens, dig⟩ : q.fens = (n.defect c.l code).fens ∧ q.dig = (n.defect c.l code).dig := hq ▸ Pkg.procItem_units _ c 1 true
  have kept (o : Nat) (lo : o < 0x4000) (ho : o ≠ 0x020 ∧ (o < 0x080 ∨ 0x100 ≤ o)) : n.KeepsReg (Blk.base .fen c.f + o) q := by
    have base := Blk.base_mod .fen c.f
    exact count.regs _ (by unfold countOff; omega)
  refine ⟨?_, ?_, ?_, fun cur started runs => ?_, ?_⟩
  · have units : q.fens = (p.updProc c.f fun x => x.skipped c).fens := by
      rw [fens, Pkg.defect_frame]
      exact (congrArg Pkg.fens same :)
    rw [Pkg.fen_congr units, Pkg.fen_updProc_same, h]
    rfl
  · rw [Pkg.KeepsReg.fget (f := F.fenProcStatIllegal) (kept 0x158 (by decide) (by decide)), hn, Pkg.illegalNoted_illegal]
  · refine Pkg.logged_info_mod.mpr ((hn ▸ p.illegalNoted_logged c code).later count.evq (fun o m => kept o ?_ ?_) count.any)
    all_goals
      simp only [List.mem_cons, List.not_mem_nil, or_false] at m
      omega
  · have job : n.job = p.job := (congrArg Pkg.job same :)
    have step : n.stepOf c.l = p.stepOf c.l := by rw [Pkg.stepOf, Pkg.stepOf, job]
    rw [dig, ← step]
    rw [← job] at cur started
    exact n.defect_marks c.l code cur started (by rw [hn, Pkg.illegalNoted_planRuns]; exact runs)
  · have noted := p.illegalNoted_byProctor c code
    rw [← hn] at noted
    exact hq ▸ (noted.trans (.defect n c.f _ c.l code)).trans (Pkg.procItem_byProctor _ c 1 true)

end
end Sys2Proof.Machine

namespace Sys2Proof.Machine
open Sys2Proof

/-! The integer and address rows of the Proctor as machine words: what the ALU computes is what R185, R186, R187 and R189 say in
exact arithmetic. -/

/-! Numbers as words: reduction modulo 2^64 goes through sums, products and the logic operations. -/

@[simp] theorem w64_toNat (w : W64) : w64 w.toNat = w := by simp [w64]
@[simp] theorem i64_toInt (w : W64) : i64 w.toInt = w := BitVec.ofInt_toInt
@[simp] theorem i64_natCast (n : Nat) : i64 (n : Int) = w64 n := BitVec.ofInt_natCast 64 n
theorem toNat_w64 (n : Nat) : (w64 n).toNat = n % 2 ^ 64 := BitVec.toNat_ofNat n 64
theorem w64_add (m n : Nat) : w64 (m + n) = w64 m + w64 n := BitVec.ofNat_add m n
theorem w64_mul (m n : Nat) : w64 (m * n) = w64 m * w64 n := BitVec.ofNat_mul m n
theorem i64_add (m n : Int) : i64 (m + n) = i64 m + i64 n := BitVec.ofInt_add m n
theorem i64_mul (m n : Int) : i64 (m * n) = i64 m * i64 n := BitVec.ofInt_mul m n
theorem i64_sub (m n : Int) : i64 (m - n) = i64 m - i64 n := by
  rw [Int.sub_eq_add_neg, i64_add, BitVec.sub_eq_add_neg]
  exact congrArg (i64 m + ·) BitVec.ofInt_neg

theorem w64_shiftLeft (a : W64) (n : Nat) : w64 (a.toNat * 2 ^ n) = a <<< n :=
  BitVec.eq_of_toNat_eq (by rw [toNat_w64, BitVec.toNat_shiftLeft, Nat.shiftLeft_eq])
theorem w64_shiftRight (a : W64) (n : Nat) : w64 (a.toNat / 2 ^ n) = a >>> n := by
  rw [← Nat.shiftRight_eq_div_pow, ← BitVec.toNat_ushiftRight, w64_toNat]
theorem i64_shiftRight (a : W64) (n : Nat) : i64 (a.toInt / (2 ^ n : Nat)) = a.sshiftRight n := by
  rw [← Int.shiftRight_eq_div_pow, ← BitVec.toInt_sshiftRight, i64_toInt]

/-- A field of `n` bits at `q` (R185). -/
theorem bits_field (a : W64) (q : Nat) {n : Nat} (hn : n ≠ 0) : bits a (q + n - 1) q = a.toNat / 2 ^ q % 2 ^ n := by
  rw [bits, Nat.shiftRight_eq_div_pow, show q + n - 1 + 1 - q = n by omega]

/-- A word with a field of `n` bits at `q` replaced, part by part (R189). -/
theorem setBits_field (a : W64) {q n : Nat} (v : Nat) (hn : n ≠ 0) (h : q + n ≤ 64) :
    setBits a (q + n - 1) q v = w64 (a.toNat % 2 ^ q + v % 2 ^ n * 2 ^ q + a.toNat / 2 ^ (q + n) * 2 ^ (q + n)) := by
  have low : a.toNat % 2 ^ q < 2 ^ q := Nat.mod_lt _ (Nat.two_pow_pos q)
  have mid : a.toNat % 2 ^ q + v % 2 ^ n * 2 ^ q < 2 ^ (q + n) := by
    calc a.toNat % 2 ^ q + v % 2 ^ n * 2 ^ q < (v % 2 ^ n + 1) * 2 ^ q := by rw [Nat.succ_mul]; omega
      _ ≤ 2 ^ n * 2 ^ q := Nat.mul_le_mul_right _ (Nat.mod_lt v (Nat.two_pow_pos n))
      _ = 2 ^ (q + n) := by rw [Nat.pow_add, Nat.mul_comm]
  refine BitVec.eq_of_getLsbD_eq fun i hi => ?_
  rw [w64, BitVec.getLsbD_ofNat, Nat.add_comm _ (_ * _), Nat.mul_comm _ (2 ^ (q + n)), Nat.testBit_two_pow_mul_add _ mid,
    Nat.add_comm _ (_ * _), Nat.mul_comm _ (2 ^ q), Nat.testBit_two_pow_mul_add _ low]
  simp only [setBits, show q + n - 1 + 1 - q = n by omega, BitVec.getLsbD_or, BitVec.getLsbD_and, BitVec.getLsbD_not,
    BitVec.getLsbD_ofNat, hi, Nat.testBit_mul_two_pow, Nat.testBit_two_pow_sub_one, Nat.testBit_mod_two_pow,
    Nat.testBit_div_two_pow]
  by_cases below : i < q
  · simp [below, show ¬ q ≤ i by omega, show i < q + n by omega]
    rfl
  · by_cases inside : i < q + n
    · simp [below, inside, show q ≤ i by omega, show i - q < n by omega]
    · simp [inside, show ¬ i - q < n by omega, show i - (q + n) + (q + n) = i by omega]
      rfl

/-- The conditions of CMP and BR (R185). -/
theorem holdsCond_eq_cond (k : Nat) (a b : W64) : holdsCond k a b = cond k a b := by
  match k with
  | 0 | 1 => simp [holdsCond, cond, ← BitVec.toNat_inj, bne, beq_eq_decide]
  | 2 | 4 => rfl
  | 3 | 5 => simp [holdsCond, cond, slt64, ult64, ← decide_not]
  | k + 6 => simp [holdsCond, cond]

/-- A sum of strides (R186). -/
theorem strides_eq (d : Desc) (i0 i1 i2 : Int) :
    strides d i0 i1 i2 = d.base + i64 i0 * s32 d.str01 31 0 + i64 i1 * s32 d.str01 63 32 + i64 i2 * s32 d.str2 31 0 := by
  simp only [strides, i64_add, i64_mul, i64_natCast, w64_toNat]
  rfl

/-! What each row computes is `valueOf` of its opcode. -/

section
variable (x : PCtx)

theorem valueOf_add : valueOf 0x00 x = some (x.a + x.b) :=
  congrArg some (by rw [w64_add, w64_toNat, w64_toNat])
theorem valueOf_sub : valueOf 0x01 x = some (x.a - x.b) :=
  congrArg some (by rw [i64_sub, i64_natCast, i64_natCast, w64_toNat, w64_toNat])
theorem valueOf_and : valueOf 0x02 x = some (x.a &&& x.b) :=
  congrArg some (by rw [← BitVec.toNat_and, w64_toNat])
theorem valueOf_or : valueOf 0x03 x = some (x.a ||| x.b) :=
  congrArg some (by rw [← BitVec.toNat_or, w64_toNat])
theorem valueOf_xor : valueOf 0x04 x = some (x.a ^^^ x.b) :=
  congrArg some (by rw [← BitVec.toNat_xor, w64_toNat])
theorem valueOf_shl : valueOf 0x05 x = some (x.a <<< bits x.b 5 0) :=
  congrArg some (w64_shiftLeft x.a _)
theorem valueOf_shr : valueOf 0x06 x = some (x.a >>> bits x.b 5 0) :=
  congrArg some (w64_shiftRight x.a _)
theorem valueOf_sra : valueOf 0x07 x = some (x.a.sshiftRight (bits x.b 5 0)) :=
  congrArg some (i64_shiftRight x.a _)
theorem valueOf_mul : valueOf 0x08 x = some (x.a * x.b) :=
  congrArg some (by rw [w64_mul, w64_toNat, w64_toNat])
theorem valueOf_addi : valueOf 0x09 x = some (x.a + x.simm) :=
  congrArg some (by rw [i64_add, i64_natCast, w64_toNat]; rfl)
theorem valueOf_andi : valueOf 0x0A x = some (x.a &&& BitVec.ofNat 64 x.fi) :=
  congrArg some (by rw [w64, BitVec.ofNat_and, ← w64, w64_toNat]; rfl)
theorem valueOf_ldi : valueOf 0x0B x = some x.simm := rfl
theorem valueOf_ldhi : valueOf 0x0C x = some (setBits x.a 63 32 (x.fb 31 0)) := by
  have fit : x.fb 31 0 % 2 ^ 32 = x.fb 31 0 := Nat.mod_mod _ _
  have top : x.a.toNat / 2 ^ (32 + 32) = 0 := Nat.div_eq_of_lt x.a.isLt
  have set : setBits x.a 63 32 (x.fb 31 0) = _ := setBits_field x.a (q := 32) (n := 32) (x.fb 31 0) (by decide) (by decide)
  rw [fit, top, Nat.zero_mul, Nat.add_zero (_ + _), Nat.add_comm (_ % _)] at set
  rw [set]
  rfl
theorem valueOf_cmp : valueOf 0x0D x = (cond (x.fb 2 0) x.a x.b).map boolW := by
  rw [← holdsCond_eq_cond]; rfl
theorem valueOf_agcur : valueOf 0x10 x = some (x.x.dsc (x.fb 2 0)).addr :=
  congrArg some (by simp only [strides_eq, i64_natCast]; rfl)
theorem valueOf_agat : valueOf 0x14 x = some ((x.x.dsc (x.fb 2 0)).base + x.a * s32 (x.x.dsc (x.fb 2 0)).str01 31 0 +
    x.b * s32 (x.x.dsc (x.fb 2 0)).str01 63 32) :=
  congrArg some (by simp [strides_eq, i64])
theorem valueOf_lidx : valueOf 0x1C x = (x.x.loops[x.fb 1 0]?).map LoopEnt.index := rfl

/-- POS and LEN are illegal as R185 says. -/
theorem posLen_cases : (posLen x = none ∧ (x.fb 12 6 = 0 ∨ 64 < x.fb 5 0 + x.fb 12 6)) ∨
    (posLen x = some (x.fb 5 0, x.fb 12 6) ∧ x.fb 12 6 ≠ 0 ∧ x.fb 5 0 + x.fb 12 6 ≤ 64) := by
  unfold posLen
  dsimp only
  split
  · next h => exact .inl ⟨rfl, h⟩
  · next h => exact .inr ⟨rfl, by omega⟩
theorem valueOf_bfx : valueOf 0x0F x = (posLen x).map fun f => BitVec.ofNat 64 (bits x.a (f.1 + f.2 - 1) f.1) := by
  unfold valueOf
  obtain ⟨e, bad⟩ | ⟨e, len, fits⟩ := posLen_cases x
  · simp [e, bad]
  · simp [e, len, fits, bits_field x.a _ len, w64]
theorem valueOf_ins : valueOf 0x25 x = (posLen x).map fun f => setBits x.a (f.1 + f.2 - 1) f.1 x.b.toNat := by
  unfold valueOf
  obtain ⟨e, bad⟩ | ⟨e, len, fits⟩ := posLen_cases x
  · simp [e, bad]
  · simp [e, len, fits, setBits_field x.a _ len fits]

/-- MINMAX as the row decides it, by one comparison (R185). -/
def minmaxOf : W64 :=
  let lt := if x.fb 1 0 < 2 then slt64 x.a x.b else ult64 x.a x.b
  if x.fb 1 0 % 2 = 0 then (if lt then x.a else x.b) else if lt then x.b else x.a

theorem valueOf_minmax : valueOf 0x0E x = some (minmaxOf x) := by
  have small : x.fb 1 0 < 4 := Nat.mod_lt _ (by decide)
  unfold valueOf minmaxOf
  obtain e | e | e | e : x.fb 1 0 = 0 ∨ x.fb 1 0 = 1 ∨ x.fb 1 0 = 2 ∨ x.fb 1 0 = 3 := by omega
  · simp [e, slt64, min_def_lt, apply_ite i64]
  · simp [e, slt64, max_def_lt, apply_ite i64]
  · simp [e, ult64, min_def_lt, apply_ite w64]
  · simp [e, ult64, max_def_lt, apply_ite w64]
end
end Sys2Proof.Machine

namespace Sys2Proof.Machine
open Sys2Proof

/-! The integer and address rows of the Proctor end with their value, or are skipped (R185, R186, R187, R189, R199). -/

section
variable {p : Pkg} {s : State} {x : PCtx} {f : Fin 288} {k : Nat} {c : Instr}

/-- An instruction with this value completes with it; one without a value is skipped. -/
def Pkg.finish (p : Pkg) (x : PCtx) (v : Option W64) : Pkg :=
  match v with
  | some v => p.pDone x (some v)
  | none => p.pIllegal x 0x0034

/-- The context of an instruction is that of its fen. -/
theorem Pkg.Issues.proc (i : p.Issues f k x) : (p.fen x.f).proc = x.x := by
  obtain ⟨_, fetch, _⟩ := i
  unfold Pkg.pFetch at fetch
  dsimp only at fetch
  split at fetch
  · cases fetch; rfl
  · cases fetch

/-- The row of the instruction that the Proctor issues executes it. -/
theorem Pkg.Issues.procRow_runs {go : PCtx → Pkg → Pkg} (i : p.Issues f k x) (known : majorDefined k = true) :
    procRow k go f p = go x p := by
  obtain ⟨_, fetch, op, good⟩ := i
  unfold procRow
  simp [fetch, op, known, good]

theorem Pkg.Issues.valRow_runs {v : PCtx → W64} (i : p.Issues f k x) (value : valueOf k x = some (v x))
    (known : majorDefined k = true := by decide) : valRow k v f p = p.finish x (valueOf k x) := by
  rw [valRow, i.procRow_runs known, value]; rfl
theorem Pkg.Issues.cmp_runs (i : p.Issues f 0x0D x) : cmp f p = p.finish x (valueOf 0x0D x) := by
  rw [cmp, i.procRow_runs rfl, valueOf_cmp]
  cases cond (x.fb 2 0) x.a x.b <;> rfl
theorem Pkg.Issues.bfx_runs (i : p.Issues f 0x0F x) : bfx f p = p.finish x (valueOf 0x0F x) := by
  rw [bfx, i.procRow_runs rfl, valueOf_bfx]
  cases posLen x <;> rfl
theorem Pkg.Issues.lidx_runs (i : p.Issues f 0x1C x) : lidx f p = p.finish x (valueOf 0x1C x) := by
  rw [lidx, i.procRow_runs rfl, valueOf_lidx]
  cases x.x.loops[x.fb 1 0]? <;> rfl
theorem Pkg.Issues.ins_runs (i : p.Issues f 0x25 x) : ins f p = p.finish x (valueOf 0x25 x) := by
  rw [ins, i.procRow_runs rfl, valueOf_ins]
  cases posLen x <;> rfl

theorem Pkg.Issues.exec_eq {row : Pkg → Pkg} {v : Option W64} (i : s.pkg.Issues f k x) (arm : exec c s = onPkg row s)
    (runs : row s.pkg = s.pkg.finish x v) : exec c s = .next { s with pkg := s.pkg.finish x v } := by
  obtain ⟨on, _⟩ := i
  rw [arm, onPkg_on _ on, runs]

/-- Every row of `valueRow` ends as `valueOf` says. -/
theorem exec_valueRow (row : valueRow c = some (f, k)) (i : s.pkg.Issues f k x) :
    exec c s = .next { s with pkg := s.pkg.finish x (valueOf k x) } := by
  unfold valueRow at row
  split at row
  all_goals cases row
  · exact i.exec_eq rfl (i.valRow_runs (valueOf_add x))
  · exact i.exec_eq rfl (i.valRow_runs (valueOf_sub x))
  · exact i.exec_eq rfl (i.valRow_runs (valueOf_and x))
  · exact i.exec_eq rfl (i.valRow_runs (valueOf_or x))
  · exact i.exec_eq rfl (i.valRow_runs (valueOf_xor x))
  · exact i.exec_eq rfl (i.valRow_runs (valueOf_shl x))
  · exact i.exec_eq rfl (i.valRow_runs (valueOf_shr x))
  · exact i.exec_eq rfl (i.valRow_runs (valueOf_sra x))
  · exact i.exec_eq rfl (i.valRow_runs (valueOf_mul x))
  · exact i.exec_eq rfl (i.valRow_runs (valueOf_addi x))
  · exact i.exec_eq rfl (i.valRow_runs (valueOf_andi x))
  · exact i.exec_eq rfl (i.valRow_runs (valueOf_ldi x))
  · exact i.exec_eq rfl (i.valRow_runs (valueOf_ldhi x))
  · exact i.exec_eq rfl i.cmp_runs
  · exact i.exec_eq rfl (i.valRow_runs (valueOf_minmax x))
  · exact i.exec_eq rfl i.bfx_runs
  · exact i.exec_eq rfl (i.valRow_runs (valueOf_agcur x))
  · exact i.exec_eq rfl (i.valRow_runs (valueOf_agat x))
  · exact i.exec_eq rfl i.lidx_runs
  · exact i.exec_eq rfl i.ins_runs

end

/-- Settles O5: the row runs on the instruction that the Proctor has fetched, its value is that of exact arithmetic, and then
it completes with that value or is skipped. -/
theorem proctorArithmetic : Obligations.ProctorArithmetic := by
  unfold Obligations.ProctorArithmetic
  intro c f k s x row i
  have run := exec_valueRow row i
  cases value : valueOf k x with
  | some v => rw [value] at run; exact ⟨_, run, Pkg.pDone_done (some v) i.proc⟩
  | none => rw [value] at run; exact ⟨_, run, Pkg.pIllegal_skipped i.proc (by decide)⟩

end Sys2Proof.Machine

namespace Sys2Proof.Machine
open Sys2Proof

/-! The slab windows: requests issued to port B (R211, R217), and those refused (R216, R433, R496). -/

section
variable {p q r : Pkg} {s : State} {f n addr len : Nat} {by_ : SlabPath} {be : List Bool} {data : List Byte}

/-! Where a path finds a slab byte (R215, R433, R496). -/

theorem slabPlace_slabOff_host {form a : Nat} (hf : form < 3) (ha : a < 2 ^ 24) (hn : n < 256) :
    slabPlace .host (slabOff .host form n a) = some (form, n, a) := by
  have inside : form * 2 ^ 32 + n * 2 ^ 24 + a < 3 * 2 ^ 32 := by omega
  rw [slabOff, if_pos rfl, slabPlace, if_pos rfl, if_pos inside, Option.some_inj, Prod.mk.injEq, Prod.mk.injEq]
  omega

theorem slabPlace_slabOff_care {form a : Nat} (other : by_ ≠ .host) (hf : form < 3) (ha : a < 2 ^ 24) (hn : n < 288) :
    slabPlace by_ (slabOff by_ form n a) = some (form, n, a) := by
  rw [slabOff, if_neg other, slabPlace, if_neg other, if_pos (by omega), Option.some_inj, Prod.mk.injEq, Prod.mk.injEq]
  omega

/-! Requests issued to port B. -/

/-- A change of the fens `l` and of the log keeps everything else. -/
theorem Pkg.keeps_of_fens {l : List Nat} (fens : ∀ j, j ∉ l → q.fen j = p.fen j) (regs : p.KeepRegs q [])
    (h : Pkg.SameButLog { p with fens := q.fens } q) : p.Keeps q p { fens := l } := by
  have samps : q.samps = p.samps := (congrArg Pkg.samps h :)
  have marks : q.marks = p.marks := (congrArg Pkg.marks h :)
  refine ⟨fens, fun d _ => ?_, fun d _ => ?_, regs, ?_⟩
  · rw [Pkg.samp, Pkg.samp, samps]
  · rw [Pkg.mark, Pkg.mark, marks]
  · rw [samps, marks]
    exact h

/-- The slab of fen `f` has taken the accesses `l` to its port B, and nothing else has changed (R211). -/
structure Pkg.Issued (f : Nat) (l : List PbReq) (p q : Pkg) : Prop where
  fen : q.fen f = { p.fen f with slab := { (p.fen f).slab with pb := (p.fen f).slab.pb ++ l } }
  others : ∀ j, j ≠ f → q.fen j = p.fen j
  frame : q = { p with fens := q.fens }

namespace Pkg.Issued
variable {l m : List PbReq}

theorem refl (f : Nat) (p : Pkg) : Pkg.Issued f [] p p := ⟨by rw [List.append_nil], fun _ _ => rfl, rfl⟩
theorem trans (h : Pkg.Issued f l p q) (g : Pkg.Issued f m q r) : Pkg.Issued f (l ++ m) p r where
  fen := by rw [g.fen, h.fen, List.append_assoc]
  others j o := (g.others j o).trans (h.others j o)
  frame := by rw [g.frame, h.frame]
theorem pbIssue (p : Pkg) (f : Nat) (x : PbReq) : Pkg.Issued f [{ x with issued := p.local_ f }] p (p.pbIssue f x) :=
  ⟨Pkg.fen_setFen_same p f _, fun _ o => Pkg.fen_setFen_other p _ o, rfl⟩
/-- Taking an access does not move the fen's local tick. -/
theorem local_eq (h : Pkg.Issued f l p q) : q.local_ f = p.local_ f := by
  rw [Pkg.local_, Pkg.local_, h.fen, show q.refCount = p.refCount by rw [h.frame]; rfl]
theorem foldl (g : Nat × Nat → PbReq) (runs : List (Nat × Nat)) (p : Pkg) (f : Nat) :
    Pkg.Issued f (runs.map fun x => { g x with issued := p.local_ f }) p (runs.foldl (fun p x => p.pbIssue f (g x)) p) := by
  induction runs generalizing p with
  | nil => exact refl f p
  | cons x rest ih =>
    have first := pbIssue p f (g x)
    have then_ := ih (p.pbIssue f (g x))
    rw [first.local_eq] at then_
    exact first.trans then_
theorem keeps (h : Pkg.Issued f l p q) : p.Keeps q p { fens := [f] } :=
  Pkg.keeps_of_fens (fun j o => h.others j (by simpa using o)) (fun _ _ _ => by rw [h.frame]) (h.frame ▸ Pkg.SameButLog.refl q)
end Pkg.Issued

theorem slabWindowRead_issued (fen : p.winFen by_ n = some f) (fits : addr + len ≤ slabBytes) :
    Pkg.Issued f (windowReqs (slabMaster by_) .read addr len (p.local_ f) [] []) p (slabWindowRead by_ n addr len p) := by
  have runs := Pkg.Issued.foldl (fun x => pbReq (slabMaster by_) .read x.1 x.2) (beatRuns addr len) p f
  simpa [slabWindowRead, fen, fits, windowReqs, pbReq] using runs

theorem Pkg.windowWrite_issued (k : PbKind) (be : List Bool) (fen : p.winFen by_ n = some f) (fits : addr + data.length ≤ slabBytes) :
    Pkg.Issued f (windowReqs (slabMaster by_) k addr data.length (p.local_ f) be data) p
      (p.windowWrite k by_ n addr be data false) := by
  have runs := Pkg.Issued.foldl (fun x => { pbReq (slabMaster by_) k x.1 x.2 with
    data := (data.drop (x.1 - addr)).take x.2, be := (be.drop (x.1 - addr)).take x.2 }) (beatRuns addr data.length) p f
  simpa [Pkg.windowWrite, fen, Nat.not_lt.mpr fits, windowReqs] using runs

/-! Requests that reach no slab. -/

/-- The host interface has been handed the bytes `bs` of a read, or Unsupported Request. -/
def Pkg.answered (p : Pkg) (bs : List Byte) (ur : Bool) : Pkg :=
  { p with host := { p.host with resp := p.host.resp ++ [(bs, ur, false)] } }

theorem slabWindowRead_fused (other : by_ ≠ .host) (hn : n < 288) (fused : p.winFen by_ n = none) :
    slabWindowRead by_ n addr len p = p.answered (List.replicate len 0#8) false := by
  simp [slabWindowRead, fused, other, hn, Pkg.answered]

/-- A request of the host names no slab, or reaches beyond its last byte (R216). -/
def Pkg.winRefused (p : Pkg) (n addr len : Nat) : Prop := p.winFen .host n = none ∨ slabBytes < addr + len

theorem slabWindowRead_refused (h : p.winRefused n addr len) : slabWindowRead .host n addr len p = p.answered [] true := by
  cases fen : p.winFen .host n with
  | none => simp [slabWindowRead, fen, Pkg.answered]
  | some f =>
    have beyond : ¬ addr + len ≤ slabBytes := Nat.not_le.mpr (h.resolve_left (by simp [fen]))
    simp [slabWindowRead, fen, beyond, Pkg.answered]

theorem Pkg.windowWrite_refused (k : PbKind) (be : List Bool) (h : p.winRefused n addr data.length) :
    p.windowWrite k .host n addr be data false = p.hostUr := by
  cases fen : p.winFen .host n with
  | none => simp [Pkg.windowWrite, fen]
  | some f =>
    have beyond : slabBytes < addr + data.length := h.resolve_left (by simp [fen])
    simp [Pkg.windowWrite, fen, beyond]

/-- A posted write that reaches nothing is logged, and nothing else (R216, R433). -/
theorem Pkg.hostUr_refuses (p : Pkg) : p.hostUr.fens = p.fens ∧ p.Logged p.hostUr .host 0 0x00D1 p.tb0 0 ∧ p.Keeps p.hostUr p {} := by
  have eq : p.hostUr = p.log .host 0 0x00D1 p.tb0 0 none := rfl
  have same : p.SameButLog p.hostUr := eq ▸ Pkg.log_same p _ _ _ _ _ _
  have fens : p.hostUr.fens = p.fens := (congrArg Pkg.fens same :)
  refine ⟨fens, eq ▸ Pkg.log_logged p _ _ _ _ _ _, Pkg.keeps_of_fens (fun j _ => Pkg.fen_congr fens j) (fun a l _ => ?_) ?_⟩
  · rw [eq]
    exact Pkg.keepsReg_log_of_not_isLogReg p _ _ _ _ _ _ l
  · rw [fens]
    exact same

/-- A command that acts on a package that is on answers what its meaning makes of it. -/
theorem does_onPkg {c : Instr} {g : Pkg → Pkg} {P : State → Prop} (arm : exec c s = onPkg g s) (on : s.pkg.on = true)
    (hP : P { s with pkg := g s.pkg }) : Does c s P :=
  ⟨_, arm.trans (onPkg_on g on), hP⟩

end

/-- Settles O24: a request that reaches a slab puts one access per beat behind those waiting at its port B; one that does not
is answered, or logged, at once. -/
theorem slabWindows : Obligations.SlabWindows := by
  unfold Obligations.SlabWindows
  refine ⟨fun by_ form n a hf ha hn => ?_, fun by_ n addr be data s on => ?_⟩
  · by_cases host : by_ = .host
    · subst host
      exact slabPlace_slabOff_host hf ha hn
    · exact slabPlace_slabOff_care host hf ha (by simpa [host] using hn)
  · extract_lets p m issue
    have hm : m = slabMaster by_ := rfl
    refine ⟨fun f fen fits => ?_, fun other hn fused => ?_, fun refused => ⟨?_, fun c row => ?_⟩⟩
    · have write (k : PbKind) (hk : k ≠ .read) (t : State) (ht : t.pkg = p.windowWrite k by_ n addr be data false) :
          issue k data.length f t := by
        have done := Pkg.windowWrite_issued k be fen fits
        simp only [issue, if_neg hk, ht, hm]
        exact ⟨done.fen, done.keeps⟩
      have read := slabWindowRead_issued fen fits
      exact ⟨does_onPkg rfl on (write .write (by decide) _ rfl), does_onPkg rfl on (write .bitSet (by decide) _ rfl),
        does_onPkg rfl on (write .bitClear (by decide) _ rfl), does_onPkg rfl on ⟨read.fen, read.keeps⟩⟩
    · exact does_onPkg rfl on (slabWindowRead_fused other hn fused)
    · exact does_onPkg rfl on (slabWindowRead_refused refused)
    · have logged (k : PbKind) (t : State) (ht : t.pkg = p.windowWrite k .host n addr be data false) :
          t.pkg.fens = p.fens ∧ p.Logged t.pkg .host 0 0x00D1 p.tb0 0 ∧ p.Keeps t.pkg p {} := by
        rw [ht, Pkg.windowWrite_refused k be refused]
        exact p.hostUr_refuses
      simp only [List.mem_cons, List.not_mem_nil, or_false] at row
      obtain rfl | rfl | rfl := row
      · exact does_onPkg rfl on (logged .write _ rfl)
      · exact does_onPkg rfl on (logged .bitSet _ rfl)
      · exact does_onPkg rfl on (logged .bitClear _ rfl)

end Sys2Proof.Machine
